-- ==== Sys2Proof/Word.lean ====
section
/-! DEFINITION. The byte and word types of the model and the plainest names over them. -/
namespace Sys2Proof

/-- One octet. -/
abbrev Byte := BitVec 8
/-- A run of octets, first octet first. -/
abbrev Bytes := List Byte

/-- The octet of a number (its low eight bits). -/
abbrev b8 (n : Nat) : Byte := BitVec.ofNat 8 n

end Sys2Proof
end

