-- ==== Sys2Proof/Syntax/Operands.lean ====
section
/-! DEFINITION. What a command carries: the operand types of the constructors of `Sys2Proof.Instr`, chapter by chapter. A command
carries what arrives from outside the device with it: a register write's value, a packet's fields and payload, a job's descriptor
and the host memory it names, a bridge's response, a measured level. -/
namespace Sys2Proof

/-! ### Registers (R423, R429, R430) -/

/-- One register write on BAR0: byte offset, 4 or 8 octets, value. -/
structure RegAccess where
  off : Nat
  len : Nat
  val : Nat
  deriving DecidableEq, Repr

/-! ### Network (R99 to R132) -/

/-- A sub-port Pn.m (R133). -/
structure SubPort where
  port : Fin 6
  sub : Fin 8
  deriving DecidableEq, Repr

/-- Where a packet stands in its message. -/
inductive MsgPos where
  | first | middle | last | only
  deriving DecidableEq, Repr

/-- What the device sees of every RoCEv2 packet beside its own header: sub-port, destination address and VLAN where they are not those of
that sub-port (R99, R124), BTH fields, priority sources (R101), CE mark (R130) and the check results of the link and the invariant CRC
(R131). -/
structure Pkt where
  port : SubPort
  qpn : Nat
  psn : Nat
  dst : Option (Bytes × Nat) := none
  pkey : Nat := 0xFFFF
  ackReq : Bool := false
  pcp : Option (Fin 8) := none
  dscp : Fin 64 := 0
  ce : Bool := false
  badFcs : Bool := false
  badIcrc : Bool := false
  deriving DecidableEq, Repr

/-- A RETH: absolute offset, rkey, message length in octets. -/
structure Reth where
  va : Nat
  rkey : Nat
  len : Nat
  deriving DecidableEq, Repr

/-- The spray placement header (R125). -/
structure SprayHdr where
  va : Nat
  rkey : Nat
  msgLen : Nat
  msgPsn : Nat
  pktOffset : Nat
  deriving DecidableEq, Repr

/-- The transport of a packet whose opcode is outside R99 (R100). -/
inductive Transport where
  | rc | uc | ud | xrc | rd
  deriving DecidableEq, Repr

/-- A CM REQ (R102, R124): where it came in, the sender's address and queue pair, the service port, transport, path MTU, first
PSN, private data, and whether an NVMe Connect it opens asks for a discovery or an I/O controller. -/
structure CmReq where
  port : SubPort
  peerAddr : Bytes
  peerQpn : Nat
  service : Nat
  uc : Bool := false
  mtu : Nat
  psn : Nat
  priv : Bytes
  deriving DecidableEq, Repr

/-! ### NVMe (R135 to R167) -/

/-- Where an NVMe command came from and the fields common to all: controller ID, submission queue, command identifier, NSID. -/
structure NvHdr where
  ctrl : Nat
  sq : Nat
  cid : Nat
  nsid : Nat
  deriving DecidableEq, Repr

/-- A DMA that ended in a fault (R28): octets transferred, first failing address. -/
structure DmaFault where
  bytes : Nat
  addr : Nat
  deriving DecidableEq, Repr

/-- Host data of a write or compare, as it reaches the device: in the capsule, over PCIe (with its fault, R34), or to be fetched by
RDMA READ from a keyed SGL (R136). -/
inductive NvData where
  | capsule (bytes : Bytes)
  | dma (bytes : Bytes) (fault : Option DmaFault)
  | keyed (addr rkey len : Nat)
  deriving DecidableEq, Repr

/-- Where an NVMe command's data goes in the host, its length, and the fault the transfer ends in, where it does (R34). -/
structure NvBuf where
  addr : Nat
  rkey : Nat := 0
  len : Nat
  fault : Option DmaFault := none
  deriving DecidableEq, Repr

/-- One range of a Dataset Management command (R148). -/
structure DsmRange where
  slba : Nat
  len : Nat
  deriving DecidableEq, Repr

/-- A fabrics Connect (R136, R137, R138). -/
structure ConnectArgs where
  qpn : Nat
  cid : Nat
  qid : Nat
  sqsize_m1 : Nat
  kato : Nat
  cntlid : Nat
  hostId : Bytes
  discovery : Bool
  subnqn : Bytes
  wantsAuth : Bool
  deriving DecidableEq, Repr

/-! ### Jobs (R187, R211) -/

/-- A job of the RED service (R187): the 64 octets of its descriptor, whose op the row names; the octets of the host input that its
addresses name; and how many octets of input or output went over before a host memory fault, where one struck (R28). -/
structure JobArgs where
  ring : Fin 4
  desc : Bytes
  input : Bytes := []
  fault : Option Nat := none
  outFault : Option Nat := none
  deriving DecidableEq, Repr

/-- A cipher job (R211): the 64 octets of its descriptor with the host input it names, and where a host memory fault struck. -/
structure CipherArgs where
  ring : Fin 2
  desc : Bytes
  input : Bytes := []
  fault : Option Nat := none
  outFault : Option Nat := none
  deriving DecidableEq, Repr

/-! ### The Pengenko link (R245) -/

/-- The slot descriptor of R174. -/
structure Desc where
  crc : Nat := 0
  ctl : Nat := 0
  codecVer : Nat := 0
  keyLabel : Nat := 0
  tag : Bytes := []
  deriving DecidableEq, Repr

/-- A write identity (R176). -/
structure WriteId where
  stream : Nat := 0
  seq : Nat := 0
  block : Nat := 0
  deriving DecidableEq, Repr

/-- What comes with the peer's image digest: it refused its copy or holds it valid (R70), or the octets of its active image, for a head
that rejoins with an older one (R74). -/
inductive PeerImage where
  | refused | held
  | active (octets : Bytes)
  deriving DecidableEq, Repr

/-- The heartbeat's payload (R245). -/
structure Heartbeat where
  term : Nat
  generation : Nat
  pools : Nat
  mirrorReq : Bool
  sealOn : Bool
  resync : Bool
  kcv : Nat
  deriving DecidableEq, Repr

/-- A mirrored slot with the staging index entry that travels with it (R220, R360); `of_` is the number of blocks of a host's write of at
most 1 MiB that is not acknowledged yet, which is wholly there or not at all (R145), else 0. -/
structure MirrorSlot where
  off : Nat
  nsid : Nat
  lba : Nat
  wid : WriteId
  desc : Desc
  image : Bytes
  plain : Bytes
  fp : Option Bytes := none
  of_ : Nat := 0
  deriving DecidableEq, Repr

/-- A member address of R275. -/
structure MemberAddr where
  module : Nat
  die : Nat
  block : Nat
  page : Nat
  state : Nat := 0
  role : Nat := 0
  index : Nat := 0
  deriving DecidableEq, Repr

/-- One slot of a stripe: data member, its descriptor, back reference and content (R174, R272). -/
structure StripeSlot where
  member : Nat
  slot : Nat
  off : Nat
  nsid : Nat
  lba : Nat
  wid : WriteId
  desc : Desc
  image : Bytes
  plain : Bytes
  fp : Option Bytes := none
  deriving DecidableEq, Repr

/-- A journal open record with the slots its stripe holds (R276). -/
structure OpenRec where
  pool : Nat
  seq : Nat
  data : Nat
  parity : Nat
  pageKib : Nat
  layout : Nat
  generation : Nat
  members : List MemberAddr
  slots : List StripeSlot
  deriving DecidableEq, Repr

/-- A map entry's location (R357): deallocated, zero, a stored slot, a reference to an index entry, unrecovered; and the two places a
version lies before its stripe is sealed: a staged slot, which the staging index names (R360), and an ingest buffer (R19); and a place that
the other head gave a block, whose content is open to this one. -/
inductive Loc where
  | dealloc
  | zero
  | stored (cls member slot off stripe : Nat)
  | ref (cls entry : Nat)
  | lost
  | staged (slot : Nat)
  | ingest (n : Nat)
  | foreign
  deriving DecidableEq, Repr

/-- A place that is no entry of the map (R360): a version's before its stripe is sealed, or one that the other head gave. -/
def Loc.unsealed : Loc → Bool
  | .staged _ | .ingest _ | .foreign => true
  | _ => false

/-- A map delta (R361): namespace, block, new location, and the write identity it belongs to; `stale` where a later version is mapped
already, `of_` as in `MirrorSlot`. -/
structure MapDelta where
  pool : Nat
  stripeSeq : Nat
  nsid : Nat
  lba : Nat
  loc : Loc
  wid : WriteId
  stale : Bool := false
  of_ : Nat := 0
  deriving DecidableEq, Repr

/-- A mirrored capture queue-pair context (R132). -/
structure QpMirror where
  qpn : Nat
  senderQpn : Nat
  uc : Bool
  spray : Bool
  prot : Bool
  epsn : Nat
  msn : Nat
  mtu : Nat
  paths : List SubPort
  windows : List Nat
  deriving DecidableEq, Repr

/-- Mirrored window state (R113, R249). -/
structure WinMirror where
  window : Nat
  horizon : Nat
  limit : Nat
  cseq : Nat
  lastImm : Nat
  qpn : Nat
  revoked : Bool := false
  deriving DecidableEq, Repr

/-- A mirrored holder of a fingerprint in an open epoch, with the entry it belongs to (R185): its owner, references, effort, sealed state, and
whether it is pending; `of_` as in `MirrorSlot`. -/
structure HolderMirror where
  nsid : Nat
  lba : Nat
  wid : WriteId
  fp : Bytes
  slotOff : Option Nat
  owner : WriteId := {}
  refs : Nat := 0
  effort : Nat := 0
  pending : Bool := true
  isSealed : Bool := false
  of_ : Nat := 0
  deriving DecidableEq, Repr

/-- Mirrored open-epoch state of a namespace (R249): positions placed and not closed, digest chain, latest closed number;
and the check values that its pool's metadata took at the Cairn (R203). -/
structure CairnMirror where
  nsid : Nat
  closed : Nat
  digest : Bytes
  placed : List (Nat × List (Nat × Nat))
  heads : List (Nat × Nat)
  kcv : Option Nat := none
  rkcv : Option Nat := none
  deriving DecidableEq, Repr

/-- Mirrored Caravan progress of a target (R249). -/
structure CaravanMirror where
  target : Nat
  caravan : Nat
  base : Nat
  end_ : Nat
  full : Bool
  record : Nat
  srcDevice : Nat
  deriving DecidableEq, Repr

/-- The peer's firmware update state (R245, class 3 type 8). -/
structure FwuPeer where
  state : Nat := 0
  result : Nat := 0
  slot : Nat := 0
  version : Nat := 0
  deriving DecidableEq, Repr

/-- What rides on every received Pengenko packet: whether its CRC held, whether it already failed once, its link and class
sequence, the acknowledgement it carries, the lane that reported an uncorrectable error, where one did, and the number of a self-test
echo (R245, R247). -/
structure PeerHdr where
  lseq : Nat
  cseq : Nat
  ack : Option Nat := none
  crcOk : Bool := true
  secondFailure : Bool := false
  badLane : Option (Fin 24) := none
  fwMajor : Nat := 0
  needMirror : Nat := 0
  echo : Nat := 0
  deriving DecidableEq, Repr

/-- What a reshape position record says (R290, R292, R293): the last old-layout stripe copied, that the pool has switched over, or that the
reshape is cancelled. -/
inductive ReshapeMark where
  | copied (seq : Nat)
  | switched
  | cancelled
  deriving DecidableEq, Repr

/-! ### The arbiter (R252) -/

/-- An arbiter message, received or sent. -/
structure ArbMsg where
  typ : Nat
  head : Nat
  handback : Bool := false
  fenced : Bool := false
  mirror : Bool := false
  silent : Bool := false
  reason : Nat := 0
  arrayId : Nat := 0
  term : Nat := 0
  seq : Nat := 0
  ackSeq : Nat := 0
  pools : Nat := 0
  timeNs : Nat := 0
  deriving DecidableEq, Repr

/-! ### Vrelen lanes and bridges (R318 to R328) -/

/-- Bridge statuses (R328). -/
inductive BStatus where
  | ok | fail | staleTerm | notOwner | timeout | invalid | absent | suspended | notRunning | refusedState | discarded | range
  | claimLow
  deriving DecidableEq, Repr

/-- A response descriptor (R327). -/
structure Resp where
  lane : Fin 64
  tag : Nat
  die : Fin 64
  status : BStatus
  nandStatus : Nat := 0
  busyUs : Nat := 0
  temp : Option Int := none
  planeFail : Nat := 0
  term : Nat := 0
  deriving DecidableEq, Repr

/-- What the decoders find in the codewords a READ delivered: whether all decoded, the most bits corrected in one, the unsatisfied
checks otherwise, and the octets of the slot that the read serves as they then stand (with the last member of a reconstruction, as
reconstructed); none where they are as they were programmed. -/
structure Decode where
  decoded : Bool
  bits : Nat := 0
  unsat : Nat := 0
  slot : Option Bytes := none
  deriving DecidableEq, Repr

/-- A frame flit (R318) and whether the frame's CRC holds. -/
structure FrameFlit where
  lane : Fin 64
  crcOk : Bool
  fseq : Nat
  ackValid : Bool
  nak : Bool
  ack : Nat
  cmdCredits : Nat
  dataCredits : Nat
  deriving DecidableEq, Repr

/-- A module record's fields (R345) the device computes with; lists run over the densities SLC, MLC, TLC, QLC. -/
structure ModuleRec where
  serial : Nat
  dieCount : Nat
  pageKib : Nat
  spareBytes : Nat := 0
  planes : Nat
  densities : Nat
  blocks : Nat
  pagesPerBlock : List Nat
  programMbs : List Nat
  tR : Nat
  tPROG : Nat
  tBERS : Nat
  tESPD : Nat
  ersMinRun : Nat
  progInSusp : Bool
  stepMv : Nat := 0
  ratedPe : List Nat
  verifyBits : Nat
  softDelta : Nat
  margin : Bytes := []
  start : Bytes := []
  ladder : Bytes := []
  trims : Bytes := []
  deriving DecidableEq, Repr

/-- A die record (R346): identity and the blocks marked bad or erase-incomplete. -/
structure DieRec where
  gen : Nat
  serial : Nat
  die : Nat
  uniqueId : Nat
  factoryBad : List Nat := []
  grownBad : List Nat := []
  eraseIncomplete : List Nat := []
  deriving DecidableEq, Repr

/-- A config flit from the bridge (R321), whether the lane trained at ×2, and what the option area then answers (R347): the octets of the two
module record pages, and of each die present those of its die record pages in pairs from page 2 on. -/
structure ConfigFlit where
  lane : Fin 64
  port : Nat
  dieCount : Nat
  pageKib : Nat
  cmdQueue : Nat
  dataBufKib : Nat
  serial : Nat
  lastFseq : Nat
  x2 : Bool := false
  moduleA : Bytes
  moduleB : Bytes := []
  dies : List (Nat × List (Bytes × Bytes))
  deriving DecidableEq, Repr

/-- Corrected bits of the three reads of a threshold sample (R342): one step below the tracked offsets, at them, one step above. -/
structure ThrSample where
  below : Nat
  at_ : Nat
  above : Nat
  deriving DecidableEq, Repr

/-- BRIDGE_STATUS data (R326). -/
structure BridgeStatus where
  maxTerm : Nat
  mine : Nat
  other : Nat
  chState : List Nat
  chTemp : List (Option Int)
  present : Nat
  deriving DecidableEq, Repr

/-! ### Management port, time, memory, engines, power -/

/-- Header of a management datagram (R450): the source port the reply returns to, sequence number, arguments, and whether magic,
version, reserved word and length are as R450 gives them. -/
structure MgmtHdr where
  src : Nat := 0
  seq : Nat
  arg0 : Nat := 0
  arg1 : Nat := 0
  sound : Bool := true
  deriving DecidableEq, Repr

/-- Where a PTP message comes in: its domain, the port and the subport (R60, R94). -/
structure PtpPort where
  domain : Nat := 0
  port : Nat := 0
  sub : Nat := 0
  deriving DecidableEq, Repr

/-- A PTP Sync as it acts on TIME (R94): offset measured, in ns, and where it comes in. -/
structure PtpSync where
  offset : Int
  from_ : PtpPort := {}
  deriving DecidableEq, Repr

/-- The master that a PTP Announce names (R95), and where it comes in. -/
structure PtpMaster where
  id : Nat
  from_ : PtpPort := {}
  deriving DecidableEq, Repr

/-- Where a word or line that was read out lies (R239): in the own dirty area or the mirror-receive area by its offset in units of
1 KiB, in the in-progress area by its 4 KiB line, or elsewhere. -/
inductive HbmArea where
  | own (off : Nat) | mirror (off : Nat) | inProgress (line : Nat) | other
  deriving DecidableEq, Repr

/-- What a read-out met (R233, R235, R237): an HBM word with so many 4-bit symbols in error, and so many on the retry; a stripe-cache line
whose octets read as given, and as given when read once more; or a tag entry with a parity error. -/
inductive ScrubFound where
  | word (bad again : Nat) | line (first second : Bytes) | tagParity
  deriving DecidableEq, Repr

/-- A word or line that was read out and checked: its 2 MiB page, its row within the page, the area it lies in, what was found. -/
structure ScrubWord where
  page : Nat
  row : Nat
  area : HbmArea
  found : ScrubFound
  deriving DecidableEq, Repr

/-- An OPEN record (R311): its index, the fields of its body, and its tag as received. -/
structure CarOpen where
  index : Nat
  srcNsid : Nat := 0
  full : Bool
  base : Nat
  end_ : Nat
  baseDigest : Bytes
  tag : Bytes := []
  deriving DecidableEq, Repr

/-- An EPOCH record (R311). -/
structure CarEpoch where
  index : Nat
  epoch : Nat
  count : Nat
  tag : Bytes := []
  deriving DecidableEq, Repr

/-- A BLOCK record (R311): its entry (logical block, kind, owner, content identity), whether it is a reference, the slot's descriptor, the
octets of the slot where it carries one, and its tag. -/
structure CarBlock where
  index : Nat
  lba : Nat
  kind : Nat
  owner : WriteId
  content : Bytes
  reference : Bool := false
  desc : Desc := {}
  image : Bytes := []
  tag : Bytes := []
  deriving DecidableEq, Repr

/-- What an EPOCH_END or IMAGE_END record carries beside its digests: its index, its Cairn, its tag. -/
structure CarEnd where
  index : Nat
  cairn : Nat
  tag : Bytes := []
  deriving DecidableEq, Repr

/-- A CLOSE record (R311): its index, the count of records, the Cairn, its tag. -/
structure CarClose where
  index : Nat
  count : Nat
  cairn : Nat
  tag : Bytes := []
  deriving DecidableEq, Repr

/-- An engine that hangs (R392), or a unit whose work failed once or lastingly (R387, R389, R390). -/
inductive EngineId where
  | se (i : Fin 32) | cc (i : Fin 16) | fs (i : Fin 64)
  | codec (lasting : Bool) | hash (lasting : Bool) | aes (lasting : Bool) | parity (lasting : Bool) | deep (lasting : Bool)
  deriving DecidableEq, Repr

/-- An upset of register bits between two sweeps (R432, R436): BAR0 offset of the dword, the bits turned, and whether the second sweep
still finds them so. -/
structure RegUpset where
  off : Nat
  flips : Nat
  lasting : Bool := true
  deriving DecidableEq, Repr

/-- What the hold-up energy lets a drain write (R409, R411): all of it with the seal, or so many octets of slots. -/
inductive DrainFate where
  | complete (ns : Nat) | cut (metadata : Bool) (slots : Nat)
  deriving DecidableEq, Repr

/-- Conditions of a power-state entry that only time shows (R156): how long nothing has been commanded. -/
structure PsQuiet where
  idleUs : Nat
  deriving DecidableEq, Repr

/-- The reference clocks of R473. -/
inductive RefClk where
  | sys | net | peer | lane
  deriving DecidableEq, Repr

/-- What a start finds outside the head: the straps and pins it samples (R441, R466), whether each firmware slot's and image
copy's octets still read as written (R447), the highest claim term each bridge reports for the head's dies (R401), and whether the boot
flash has its JESD216 table and at least 128 MiB (R478). -/
structure BootEnv where
  recoveryN : Bool := true
  headSel : Bool := false
  pwrFailN : Bool := true
  holdupOk : Bool := true
  fenceN : Bool := true
  fastEnough : Bool := true
  flashOk : Bool := true
  bridgeTerm : Nat := 0
  deriving DecidableEq, Repr

end Sys2Proof
end

