-- ==== Sys2Proof/Syntax.lean ====
section
/-! DEFINITION. The commands of the device: one constructor per row of the table of operations and events, in the table's order. Each
docstring gives the row's rule and what the row stands for. -/
namespace Sys2Proof

/-- One command: a register access, a packet, a job, a bridge's response, a timer, a pin. -/
inductive Instr where
  /-- A dword or qword write to a BAR0 register that has no row of its own takes effect in order, within 100 ns, subject to access codes, reserved encodings and locks. (R423) -/
  | regWrite (a : RegAccess)
  /-- A write of an unsupported shape is discarded, and a read of an unsupported shape returns zeros; either records an event. (R423) -/
  | malformedAccess (write : Bool) (off len : Nat)
  /-- A low-word write to a 64-bit register is held until the high-word write, or a high-word write applies with the held or present low word. (R429) -/
  | regWrite64Half (off val : Nat)
  /-- A write to the bit-alias window sets, clears or actions one SYS bit atomically; writes to SC, RO and RH bits are discarded. (R430) -/
  | bitAliasWrite (off val : Nat)
  /-- A write to an SC register clears each masked bit whose set number lies at or before the written sequence number. (R426) -/
  | scWriteBack (off val : Nat)
  /-- A write to SYS_MODE_REQ starts each requested mode change independently. (R52) -/
  | sysModeReqWrite (val : Nat)
  /-- A reshape_cancel pulse stops the copy of every pool not yet in switch-over at its next stripe boundary and discards the new-layout stripes. (R46) -/
  | reshapeCancel
  /-- A submit pulse checks for a lock or busy state, then copies the image and starts its validation. (R70) -/
  | simSubmit (region : Bytes)
  /-- Validation of a submitted image ends, either failing with a code or staging the image once the peer's digest agrees. (R61) -/
  | imageValidationDone
  /-- The staged image finishes being written to the inactive boot-flash copy, or fails with 0x0047. (R70) -/
  | stagedCopyWritten (ok : Bool)
  /-- An activate pulse either waits for the activation point of a staged-live image or arms a staged-for-reset image. (R71) -/
  | simActivate (stateWordOk : Bool)
  /-- Each 10 s that an activation spends waiting in state 4 records an event. (R73) -/
  | activationWaitEvent
  /-- A discard pulse discards the staged image, or disarms a copy armed for reset. (R78) -/
  | simDiscard
  /-- An apply pulse adds the signed amount to the channel's slot counter within 100 ns. (R83) -/
  | slotAdjApply (ch : Fin 8) (amount : Nat)
  /-- A clear pulse zeroes both histograms of the channel. (R93) -/
  | histClear (ch : Fin 8)
  /-- An apply pulse sets the TIME seconds at the next PPS_IN edge or TIME second, and is ignored under PTP. (R94) -/
  | secSetApply
  /-- A to_error pulse moves the selected queue pair to Error. (R104) -/
  | qpToError
  /-- A revoke pulse revokes the selected window. (R112) -/
  | winRevoke
  /-- A reopen pulse returns a revoked window to open-unbound, keeping its horizon and limit. (R112) -/
  | winReopen
  /-- A zeroize pulse raises the software alarm. (R215) -/
  | cipZeroize
  /-- A share_load pulse starts fetching the 64-byte share from host memory, or is ignored if a load is already under way. (R202) -/
  | shareLoad
  /-- The fetched share is checked, then accepted or refused with a reason in CIP_SHARE_RES, and the internal copy is overwritten. (R203) -/
  | shareLoadDone (data : Bytes) (fault : Bool)
  /-- A write of the stripe cache enable bit either starts a write-back toward disabled, or enables an invalidated cache. (R231) -/
  | scEnableWrite (enable : Bool)
  /-- An invalidate pulse on a disabled cache sets every tag entry invalid within 12 µs. (R231) -/
  | scInvalidate
  /-- A writeback pulse writes back every dirty line present and leaves it clean. (R231) -/
  | scWriteback
  /-- The last dirty line is written, and the cache moves from writing back to disabled. (R231) -/
  | scWritebackComplete
  /-- A release pulse sends TRANSFER_REQ to give all pools to the peer, unless a transfer is refused. (R262) -/
  | arbRelease
  /-- A handback pulse sends TRANSFER_REQ to take back the pools the head owns in normal service. (R262) -/
  | arbHandback
  /-- A retrain pulse starts training of the flash lane. (R320) -/
  | laneRetrain (lane : Fin 64)
  /-- A retain pulse retains the selected Cairn, or is refused for the limit or for availability. (R307) -/
  | snpRetain
  /-- A release pulse schedules the release of a retained Cairn at the namespace's next close, unless a Caravan holds it. (R308) -/
  | snpRelease
  /-- A skip_lost pulse makes a stopped Caravan ship its lost blocks as records with the slot omitted. (R314) -/
  | skipLost
  /-- A restart pulse takes a refused or abandoned target out of state 5, so the next Caravan opens with a new number. (R314) -/
  | caravanRestart
  /-- A full pulse makes the next Caravan full. (R313) -/
  | caravanMakeFull
  /-- A warm_reset pulse resets the head, first running a release when it owns pools under Mirror. (R402) -/
  | warmResetPulse
  /-- An l3_req pulse enters L3 when its conditions hold, and is otherwise refused with a reason in RST_L3_RES. (R406) -/
  | l3Req
  /-- A commit pulse makes the next sweep take the CRC of every touched block as its reference. (R435) -/
  | cfgCommit
  /-- An accept_all pulse takes the next sweep's CRC as the reference of every block. (R437) -/
  | cfgAcceptAll
  /-- A reapply pulse makes CC0 rewrite every image-set register and update the references, or is refused while an activation waits or switches. (R437) -/
  | cfgReapply
  /-- A chunk pulse writes one chunk of a firmware or structural image into the inactive slot or copy, unless refused under R444. (R443) -/
  | fwuChunk (data : Bytes)
  /-- When the last byte has been written, the firmware slot is verified and marked valid. (R443) -/
  | fwuWriteDone (ok : Bool)
  /-- A commit pulse arms the valid slot and the staged image, then starts a warm reset into a trial. (R445) -/
  | fwuCommit
  /-- An abort pulse discards a slot that is not yet armed. (R456) -/
  | fwuAbort
  /-- In recovery, this pulse programs the blank owner key hash fuse field once from the source bytes. (R449) -/
  | programOwner (source : Bytes)
  /-- In recovery, this pulse programs the blank K_fuse field once from the source bytes. (R449) -/
  | programKfuse (source : Bytes)
  /-- A flush pulse appends the buffered event records to the event area. (R452) -/
  | evrFlush
  /-- A clear pulse written with the key starts erasing the event area; without the key it records an event. (R453) -/
  | evrClear (key : Nat)
  /-- The erase of the event area ends, and the clear itself becomes the first record. (R453) -/
  | evrClearDone
  /-- A write of the read index starts fetching the named event record into the read window. (R457) -/
  | evrRdIdxWrite (index : Nat)
  /-- The named record is in the read window, and ready and valid are set within 200 µs. (R457) -/
  | evrRecordFetched
  /-- A write of a counter selection zeroes the counter and starts counting the new source. (R454) -/
  | cntSelWrite (counter : Fin 256) (val : Nat)
  /-- A clear_all pulse zeroes every event counter. (R458) -/
  | cntClearAll
  /-- A clear pulse empties the trace buffer. (R459) -/
  | trcClear
  /-- Advancing a RED ring's submission tail makes the device fetch job descriptors in order while the completion queue has room. (R186) -/
  | redSqTailWrite (ring : Fin 4) (tail : Nat) (fetched : List Bool)
  /-- Advancing a RED ring's completion head frees completion room, so a held fetch resumes. (R186) -/
  | redCqHeadWrite (ring : Fin 4) (head : Nat) (fetched : List Bool)
  /-- Clearing a ring's enable stops its running jobs with STOPPED, and setting it again restarts fetching at sq_head. (R199) -/
  | redRingEnableWrite (ring : Fin 4) (val : Nat)
  /-- Advancing a CIP ring's submission tail makes the device fetch cipher job descriptors. (R186) -/
  | cipSqTailWrite (ring : Fin 2) (tail : Nat) (fetched : List Bool)
  /-- Advancing a CIP ring's completion head frees completion room for further fetches. (R186) -/
  | cipCqHeadWrite (ring : Fin 2) (head : Nat) (fetched : List Bool)
  /-- Clearing or setting a CIP ring's enable stops or restarts its jobs, as for RED rings. (R214) -/
  | cipRingEnableWrite (ring : Fin 2) (val : Nat)
  /-- A compress job codes its input into DEFLATE blocks on its context and posts a completion. (R190) -/
  | jobCompress (j : JobArgs)
  /-- A decompress job decodes its input stream on its context and posts a completion. (R190) -/
  | jobDecompress (j : JobArgs)
  /-- A flush job writes the output the stream still owes and frees the context. (R194) -/
  | jobFlush (j : JobArgs)
  /-- A save job writes a 33,856-byte context image and frees the context. (R197) -/
  | jobSaveContext (j : JobArgs)
  /-- A restore job reads a context image and binds the context, or ends with CTX_INVALID. (R197) -/
  | jobRestoreContext (j : JobArgs)
  /-- An encrypt job encrypts its data on a cipher context in the chosen mode. (R212) -/
  | cipEncrypt (j : CipherArgs)
  /-- A decrypt job decrypts its data, and on a GCM final job checks the tag, ending with AUTH_FAIL on a mismatch. (R212) -/
  | cipDecrypt (j : CipherArgs)
  /-- A load key job binds a context with a clear, wrapped or label-derived key. (R213) -/
  | cipLoadKey (j : CipherArgs)
  /-- A save job writes the cipher context image, wrapped where required, and frees the context. (R213) -/
  | cipSaveContext (j : CipherArgs)
  /-- A restore job reads a cipher context image and binds the context, or ends with CTX_INVALID. (R213) -/
  | cipRestoreContext (j : CipherArgs)
  /-- A HELLO datagram on the management port returns the identity, firmware version, status, serial and life figure. (R450) -/
  | mgmtHello (h : MgmtHdr)
  /-- A REG_READ datagram returns 1 to 256 register dwords, when register access is enabled or in recovery. (R450) -/
  | mgmtRegRead (h : MgmtHdr)
  /-- A REG_WRITE datagram writes register dwords, when register access is enabled or in recovery. (R450) -/
  | mgmtRegWrite (h : MgmtHdr) (payload : Bytes)
  /-- A BUF_WRITE datagram writes the image buffer or the firmware buffer, or loads the share. (R450) -/
  | mgmtBufWrite (h : MgmtHdr) (payload : Bytes)
  /-- A received SEND packet is processed in PSN order on its queue pair, for example as an NVMe capsule. (R120) -/
  | send (p : Pkt) (pos : MsgPos) (imm : Option Nat) (payload : Bytes)
  /-- A received RDMA WRITE packet is placed at its offset in the ingest buffers and recorded in the packet bitmap. (R120) -/
  | rdmaWrite (p : Pkt) (pos : MsgPos) (reth : Option Reth) (payload : Bytes)
  /-- A received WRITE with immediate ends a frame message; its immediate is held until completion and then matched to a strobe. (R89) -/
  | rdmaWriteWithImmediate (p : Pkt) (pos : MsgPos) (reth : Option Reth) (imm : Nat) (payload : Bytes)
  /-- An RDMA READ request on a window's rkey returns visible data within [H − L, H), or causes a remote access error. (R111) -/
  | rdmaReadRequest (p : Pkt) (reth : Reth)
  /-- A READ response to the device's own READ delivers host data for an NVMe command; a fault ends the command with Data Transfer Error. (R34) -/
  | rdmaReadResponse (p : Pkt) (payload : Bytes) (last : Bool) (error : Bool)
  /-- An ACK or NAK received for the device's own sends advances or retransmits its requester state. (R131) -/
  | acknowledge (p : Pkt) (syndrome msn : Nat)
  /-- A received CNP halves the pace of the transmitting queue pair under the credit-pacing loop. (R130) -/
  | cnp (p : Pkt)
  /-- A 0xC0 spray WRITE packet is placed by its header within the reorder window of 4,096 packets. (R125) -/
  | sprayWriteNotLast (p : Pkt) (h : SprayHdr) (payload : Bytes)
  /-- A 0xC1 spray WRITE packet ends a sprayed message and is placed by its header. (R125) -/
  | sprayWriteLast (p : Pkt) (h : SprayHdr) (payload : Bytes)
  /-- A 0xC2 spray WRITE packet ends a sprayed message and carries an immediate. (R125) -/
  | sprayWriteLastImmediate (p : Pkt) (h : SprayHdr) (imm : Nat) (payload : Bytes)
  /-- A request outside R99 gets NAK 0x61 with Error on RC, or is discarded and its message abandoned on UC. (R100) -/
  | unsupportedOpcode (p : Pkt) (transport : Transport) (opcode : Nat)
  /-- A received PFC frame pauses or resumes transmission of a priority in pfc_mask, and is otherwise ignored and counted. (R130) -/
  | pfcFrame (port : SubPort) (prio : Fin 8) (pause : Bool)
  /-- A TCP segment opening a connection to a data address is answered with RST. (R100) -/
  | tcpSegment (port : SubPort) (opens toData : Bool)
  /-- A CM REQ is accepted or refused with REJ, binding windows or admitting a Caravan or NVMe connection. (R102) -/
  | cmReq (r : CmReq)
  /-- A REP received for the device's own REQ moves the queue pair to RTR. (R103) -/
  | cmRep (qpn : Nat) (peerQpn psn : Nat) (priv : Bytes)
  /-- An RTU moves the queue pair to RTS. (R103) -/
  | cmRtu (qpn : Nat)
  /-- A DREQ from the sender moves the queue pair through a flush to Reset and unbinds its windows. (R103) -/
  | cmDreq (qpn : Nat)
  /-- A REJ received for a Caravan REQ refuses or abandons the Caravan according to its code. (R314) -/
  | cmRej (qpn code : Nat)
  /-- A sub-port link goes down; protected queue pairs continue on a single path, and unprotected connections fail. (R128) -/
  | netLinkDown (port : SubPort)
  /-- A sub-port link comes up, and duplicate sending resumes within 1 ms. (R128) -/
  | netLinkUp (port : SubPort)
  /-- A queue-pair context fetch from HBM ends, and the packets held in the miss buffer are processed. (R106) -/
  | contextFetchDone (qpn : Nat) (fault : Bool)
  /-- 10 ms after Error or disconnect, the queue pair returns to Reset, and windows with auto_reopen reopen. (R103) -/
  | qpResetTimeout (qpn : Nat)
  /-- A UC message with no packet for 5 ms is abandoned. (R129) -/
  | ucMessageTimeout (qpn : Nat)
  /-- Every 16 µs while a gap persists on a sprayed queue pair, a SACK report is sent. (R127) -/
  | sackGapTimer (qpn : Nat)
  /-- Every credit_refresh_us, a credit message is sent for each bound window. (R117) -/
  | creditRefresh
  /-- After 7 attempts as requester without success, the queue pair enters Error with cause 4. (R131) -/
  | requesterRetriesExhausted (qpn : Nat)
  /-- After each 55 µs without a congestion mark, an auto pace rises by 1/64 of its upper bound. (R397) -/
  | paceRise (qpn : Nat)
  /-- An accepted FRAME edge is stamped, numbered, decrements the slot counter and becomes a pending strobe. (R79) -/
  | strobe (ch : Fin 8) (stamp width : Nat)
  /-- late_limit_us passes after a strobe with no completion, and the frame is recorded MISSING. (R90) -/
  | strobeLateLimit (ch : Fin 8) (num : Nat)
  /-- late_limit_us passes after a completion with no strobe, and the frame is recorded UNSTROBED. (R90) -/
  | completionLateLimit (ch : Fin 8) (num : Nat)
  /-- Each 10 µs window measures the IPCLK frequency and closes the ipclk gate when it is outside ±2 %. (R85) -/
  | ipclkMeasurement (khz : Nat)
  /-- IPCLK gives no edge for two configured periods, and READY is driven low. (R85) -/
  | ipclkStopped
  /-- After 1,024 consecutive IPCLK cycles in tolerance, the ipclk gate opens. (R85) -/
  | ipclkInTolerance
  /-- At start_ns + k × period_ns, an enabled TRIG output issues pulse k, or counts it as skipped. (R96) -/
  | trigPulse (trig : Fin 4)
  /-- A PPS_IN rising edge disciplines TIME, applies a pending seconds value and counts toward lock. (R94) -/
  | ppsInEdge (offset : Int)
  /-- A PTP Sync message disciplines TIME under the delay request-response mechanism. (R94) -/
  | ptpSync (m : PtpSync)
  /-- No Sync message arrives in three announced intervals, and the reference is lost. (R95) -/
  | ptpSyncTimeout
  /-- PPS_IN shows no edge for 1.5 s, and the reference is lost. (R95) -/
  | ppsInTimeout
  /-- REF10M_IN stops, or stays outside ±50 ppm for 1 ms, and the reference is lost. (R95) -/
  | ref10mLost
  /-- holdover_s passes after a loss of reference, and TIME turns unlocked. (R95) -/
  | holdoverExpiry
  /-- A Flush completes at the acknowledgement point under Mirror, or once data is programmed and verified without it. (R146) -/
  | nvmeFlush (h : NvHdr)
  /-- A Write reserves budget, fetches data, takes a host-stream sequence number and completes under R16 or R17. (R143) -/
  | nvmeWrite (h : NvHdr) (slba nlb : Nat) (fua : Bool) (data : NvData)
  /-- A Read returns the newest visible data from staging, the cache or flash. (R22) -/
  | nvmeRead (h : NvHdr) (slba nlb : Nat) (fua : Bool) (buf : NvBuf)
  /-- A Compare reads the blocks and completes with Compare Failure on a miscompare. (R140) -/
  | nvmeCompare (h : NvHdr) (slba nlb : Nat) (data : NvData)
  /-- Write Zeroes makes each block a zero-block descriptor, deallocating it with DEAC. (R147) -/
  | nvmeWriteZeroes (h : NvHdr) (slba nlb : Nat) (deac fua : Bool)
  /-- Dataset Management deallocates its ranges and skips ranges of length 0. (R148) -/
  | nvmeDatasetManagement (h : NvHdr) (nr : Nat) (ad : Bool) (ranges : List DsmRange) (fault : Option DmaFault)
  /-- Verify reads and checks every block without transferring data. (R140) -/
  | nvmeVerify (h : NvHdr) (slba nlb : Nat)
  /-- Place Cairn places a Cairn on the namespace at the current stream positions, optionally retained and optionally waiting for the close. (R162) -/
  | placeCairn (h : NvHdr) (retain waitClose : Bool)
  /-- Delete I/O Submission Queue removes a queue of the local controller. (R139) -/
  | deleteIoSubmissionQueue (h : NvHdr) (qid : Nat)
  /-- Delete I/O Completion Queue removes a queue of the local controller. (R139) -/
  | deleteIoCompletionQueue (h : NvHdr) (qid : Nat)
  /-- Create I/O Submission Queue creates a contiguous queue on the local controller. (R139) -/
  | createIoSubmissionQueue (h : NvHdr) (qid size : Nat) (contig : Bool) (cqid base : Nat)
  /-- Create I/O Completion Queue creates a contiguous queue on the local controller. (R139) -/
  | createIoCompletionQueue (h : NvHdr) (qid size : Nat) (contig ien : Bool) (vector base : Nat)
  /-- Get Log Page returns one of the supported pages, or Invalid Log Page. (R153) -/
  | getLogPage (h : NvHdr) (lid : Nat) (rae : Bool) (numd offset : Nat) (buf : NvBuf)
  /-- Identify returns the controller or namespace structure with the values of R142. (R142) -/
  | identify (h : NvHdr) (cns : Nat) (buf : NvBuf)
  /-- Abort catches the named command if it has not passed its point of no return. (R150) -/
  | abort (h : NvHdr) (sqid target : Nat)
  /-- Set Features sets, and optionally saves, a supported feature. (R151) -/
  | setFeatures (h : NvHdr) (fid : Nat) (save : Bool) (dw11 : Nat) (dw12 : Nat) (data : NvData)
  /-- Get Features returns the current, default or saved value of a feature. (R151) -/
  | getFeatures (h : NvHdr) (fid sel dw11 : Nat) (buf : NvBuf)
  /-- An Asynchronous Event Request is held, up to 8, until an enabled event is posted. (R154) -/
  | asynchronousEventRequest (h : NvHdr)
  /-- Keep Alive restarts a fabrics controller's keep-alive timer. (R151) -/
  | keepAlive (h : NvHdr)
  /-- The keep-alive timer expires, and the controller's association ends. (R151) -/
  | keepAliveTimeout (ctrl : Nat)
  /-- Read Epoch Digest returns the 64-byte digest structure of a closed Cairn, or Cairn Not Available. (R163) -/
  | readEpochDigest (h : NvHdr) (cairn : Nat) (latest : Bool) (buf : NvBuf)
  /-- Frame Index Query returns frame index records of an active channel from flash and the HBM ring. (R164) -/
  | frameIndexQuery (h : NvHdr) (channel : Fin 8) (byTime : Bool) (kindMask startSeq startNs count : Nat) (buf : NvBuf)
  /-- Connect creates an admin or I/O queue, or completes with Connect Invalid Parameters. (R137) -/
  | fabricsConnect (c : ConnectArgs)
  /-- Property Get reads a controller property of a fabrics controller. (R138) -/
  | propertyGet (h : NvHdr) (off : Nat) (eight : Bool)
  /-- Property Set writes a controller property of a fabrics controller. (R138) -/
  | propertySet (h : NvHdr) (off : Nat) (eight : Bool) (val : Nat)
  /-- An unsupported admin, I/O or fabrics opcode completes with Invalid Command Opcode. (R139) -/
  | invalidCommandOpcode (h : NvHdr) (admin : Bool) (opcode : Nat)
  /-- CC.EN cleared to 0 resets the local controller and drops its unsaved features. (R152) -/
  | controllerReset
  /-- A fingerprint lookup without an answer within defer_us stores the block as a deferred holder. (R177) -/
  | lookupDefer (lookup : Nat)
  /-- A fingerprint lookup answers, and the holder becomes a reference or stores its slot with a pending entry. (R179) -/
  | fingerprintLookupDone (lookup : Nat) (level : Fin 3)
  /-- An enabled TAMPER input held active for 100 ns raises an alarm and zeroizes. (R215) -/
  | tamperAlarm (input : Fin 4)
  /-- VDD_CORE or the AON 0.8 V rail outside its monitor window for 200 ns zeroizes. (R215) -/
  | railAlarm (core : Bool)
  /-- The AON crystal stops; the AON domain runs on from the oscillator, and the device zeroizes. (R215) -/
  | crystalStop
  /-- The patrol scrubber reads HBM words, writes back corrected words and retires failing rows. (R238) -/
  | patrolScrub (w : ScrubWord)
  /-- A Pengenko heartbeat reports term, generation, owned pools, flags and check value, and may start resynchronization. (R245) -/
  | heartbeat (h : PeerHdr) (b : Heartbeat)
  /-- A received NAK makes the sender replay from the NAKed lseq. (R247) -/
  | pengenkoNak (h : PeerHdr) (lseq : Nat)
  /-- The peer's confirmation of mirror cseq values lets the waiting writes be acknowledged. (R220) -/
  | mirrorConfirmation (h : PeerHdr) (upTo : Nat)
  /-- The peer's image digest arrives, and the image is staged if it matches, or refused with 0x0046 (R70); with the octets of the peer's
  active image where a head that rejoins is sent them (R74). -/
  | imageDigest (h : PeerHdr) (generation : Nat) (digest : Bytes) (ok : PeerImage)
  /-- A self-test echo packet is returned unchanged. (R245) -/
  | selfTestEcho (h : PeerHdr) (payload : Bytes)
  /-- A mirrored slot is written at the owner's offset in the mirror-receive area and then confirmed. (R220) -/
  | mirrorSlot (h : PeerHdr) (s : MirrorSlot)
  /-- The peer's journal open record is stored in the HBM journal copy. (R276) -/
  | journalOpen (h : PeerHdr) (r : OpenRec)
  /-- The peer's journal close releases the mirror copies of the stripe's slots. (R220) -/
  | journalClose (h : PeerHdr) (pool seq : Nat)
  /-- The peer's map delta is stored, to be applied at takeover. (R249) -/
  | mapDelta (h : PeerHdr) (d : MapDelta)
  /-- A mirrored capture queue-pair context is stored. (R249) -/
  | qpContextState (h : PeerHdr) (q : QpMirror)
  /-- Mirrored window state with its horizon and limit is stored. (R249) -/
  | windowState (h : PeerHdr) (w : WinMirror)
  /-- Mirrored open-epoch positions and digest chain are stored. (R249) -/
  | cairnState (h : PeerHdr) (c : CairnMirror)
  /-- Mirrored pending de-duplication holders are stored. (R185) -/
  | pendingHolders (h : PeerHdr) (l : List HolderMirror)
  /-- The mirrored list of retained Cairns is stored. (R249) -/
  | retainedCairnList (h : PeerHdr) (l : List (Nat × Nat))
  /-- Mirrored Caravan progress at a boundary is stored. (R249) -/
  | caravanProgress (h : PeerHdr) (c : CaravanMirror)
  /-- The mirrored reshape position is stored. (R249) -/
  | reshapePosition (h : PeerHdr) (pool : Nat) (position : ReshapeMark)
  /-- The mirrored frame number and strobe time of a channel's last matched frame are stored. (R87) -/
  | channelLastMatched (h : PeerHdr) (ch : Fin 8) (num strobeNs : Nat)
  /-- The peer's firmware update state is kept for the update interlock. (R444) -/
  | fwuState (h : PeerHdr) (f : FwuPeer)
  /-- No valid Pengenko packet arrives for 10 µs; the peer is silent and a link reset and VERDICT_REQ follow. (R248) -/
  | peerSilent
  /-- At least every 2 µs, a heartbeat is sent to the peer. (R248) -/
  | heartbeatTimer
  /-- A removed link lane is retrained every 1 s and rejoins on success; training carries the head number. (R244, R466) -/
  | pengenkoLaneRetrain (lane : Fin 24) (ok sameHead : Bool)
  /-- ARB_FENCE_N falls, and hardware squelches transmitters, drives READY low and reports every ANA group Inaccessible within 5 µs. (R256) -/
  | arbFenceFall
  /-- ARB_FENCE_N rises, and the head performs a takeover reset and rejoins owning no pool. (R256) -/
  | arbFenceRise
  /-- A VERDICT naming this head with a higher term while unfenced is accepted and ACKed, and the peer is lost. (R254) -/
  | verdict (m : ArbMsg)
  /-- A die not confirming its claim by step 5 of takeover is failed, and its module too if the module answers no claim. (R260) -/
  | claimTimeout
  /-- Gratuitous ARP or unsolicited Neighbor Advertisements for adopted addresses are sent three times, 1 ms apart. (R259) -/
  | addressAnnounce
  /-- An accepted TRANSFER_GRANT sets the term and starts a transfer of pools between the heads. (R263) -/
  | transferGrant (m : ArbMsg)
  /-- Once admitted commands complete, the giving head stops capture, sends final state and withdraws its addresses, and the taking head claims and adopts the pools. (R263) -/
  | transferCommandsDrained
  /-- Every 10 × arb_hb_us, a STATUS message is sent to the arbiter. (R252) -/
  | arbStatusTimer
  /-- Every 10 µs while the peer is silent without a verdict, a VERDICT_REQ is sent. (R252) -/
  | verdictReqTimer
  /-- Under policy 1, verdict_wait_ms passes with no verdict and the peer unheard, and the peer is lost. (R255) -/
  | verdictWaitExpiry
  /-- Every 1 s, each standby lane's training, loopback and bridge status are checked. (R264) -/
  | selfTestPathCheck (failed : List Nat)
  /-- In rotation, a standby die's option-area page is read through the standby port and checked, and the die marked faulty if it fails twice. (R264) -/
  | selfTestDieCheck (lane : Fin 64) (die : Fin 64) (idle : Bool)
  /-- fill_us after its first slot, an assembling stripe is closed with zero padding. (R270) -/
  | stripeFillTimeout (pool seq : Nat)
  /-- A stripe's parity completes, the journal open is sent and the member programs are issued. (R274) -/
  | parityComplete (pool seq : Nat)
  /-- 500 µs after its first record, a journal page is written in two copies. (R277) -/
  | journalPageTimer (pool : Nat)
  /-- timer_cairn_ms passes, and a timer Cairn is placed in a permitted namespace. (R297) -/
  | timerCairn (stream : Nat)
  /-- Once its epoch is acknowledged, looked up and mirrored, a Cairn closes: overlaps are resolved, ownership finalized, entries built and the digest extended. (R299) -/
  | cairnClose (nsid : Nat) (stateWordOk : Bool)
  /-- With Replicate in effect, a Caravan opens for a target whenever the source has a closed Cairn above the target's last_cairn. (R313) -/
  | caravanOpens (target : Nat)
  /-- At the target, an OPEN record starts a chained or full Caravan landing. (R311) -/
  | caravanOpenRecord (qpn : Nat) (r : CarOpen)
  /-- At the target, an EPOCH record starts an epoch of n entries. (R311) -/
  | epochRecord (qpn : Nat) (r : CarEpoch)
  /-- At the target, a BLOCK record's tag and CRC are checked and its slot stored or referenced. (R312) -/
  | blockRecord (qpn : Nat) (r : CarBlock)
  /-- At the target, an EPOCH_END record's digest is checked against the recomputed D_k and confirmed. (R312) -/
  | epochEndRecord (qpn : Nat) (index : CarEnd) (digest : Bytes)
  /-- At the target, an IMAGE_END record's image digest is checked and confirmed. (R312) -/
  | imageEndRecord (qpn : Nat) (index : CarEnd) (imageDigest chainDigest : Bytes)
  /-- At the target, a confirmed CLOSE record makes the Caravan visible by closing Cairns b + 1 to e. (R312) -/
  | closeRecord (qpn : Nat) (index : CarClose)
  /-- At the source, a confirmation SEND advances the confirmed index, and on CLOSE releases b and keeps e. (R312) -/
  | caravanConfirmation (target index : Nat) (refused : Option Nat)
  /-- 1 s after a connection is lost, and then every 10 s, the source reconnects and resumes at resume_at. (R314) -/
  | caravanReconnectTimer (target : Nat)
  /-- A normal Vrelen frame is accepted in fseq order, its transactions and credits taken, and a nak sent on a gap. (R322) -/
  | vrelenFrame (f : FrameFlit)
  /-- A received filler frame may be discarded to absorb clock difference. (R319) -/
  | fillerFrame (lane : Fin 64)
  /-- At least once in every 2,048 frames, a filler frame is sent. (R319) -/
  | fillerFrameDue (lane : Fin 64)
  /-- A retrain request frame from the bridge starts lane training. (R320) -/
  | retrainRequest (lane : Fin 64)
  /-- 4 µs without ack progress replays from the oldest unacknowledged frame, and a second replay of the same fseq retrains the lane. (R322) -/
  | frameAckTimeout (lane : Fin 64)
  /-- A training state passes its time limit, and the lane falls back to ×2 or goes down. (R320) -/
  | laneTrainingLimit (lane : Fin 64) (onePair : Bool)
  /-- Matching config flits complete training to Active, or keep the lane down on a mismatch. (R321) -/
  | configFlit (c : ConfigFlit)
  /-- Every 1 s while a lane is down, training is tried again. (R320) -/
  | laneDownRetry (lane : Fin 64)
  /-- A READ response delivers codewords for decoding, climbing the retry ladder on failure. (R341) -/
  | readResponse (r : Resp) (d : Decode)
  /-- A PROGRAM response starts margin-read verify, or on FAIL makes the plane's block grown-bad. (R334) -/
  | programResponse (r : Resp)
  /-- An ERASE response frees the block, or on FAIL makes it grown-bad. (R335) -/
  | eraseResponse (r : Resp)
  /-- A SUSPENDED response lets queued reads and one program be served before RESUME. (R338) -/
  | suspendResponse (r : Resp)
  /-- A RESUME response restarts the suspended erase. (R338) -/
  | resumeResponse (r : Resp)
  /-- A STATUS response is taken during timeout handling or recovery. (R351) -/
  | statusResponse (r : Resp)
  /-- A RESET_DIE response ends timeout handling or clears a suspended erase at recovery. (R351) -/
  | resetDieResponse (r : Resp)
  /-- A SET_THRESH response confirms the load of a threshold slot. (R341) -/
  | setThreshResponse (r : Resp)
  /-- A SET_TRIM response confirms the band trims. (R352) -/
  | setTrimResponse (r : Resp)
  /-- A CLAIM response confirms ownership of dies under a term, or refuses it with CLAIM_LOW. (R243) -/
  | claimResponse (r : Resp)
  /-- A BRIDGE_STATUS response reports terms, claims, channel states and temperatures. (R326) -/
  | bridgeStatusResponse (r : Resp) (b : BridgeStatus)
  /-- A LOOPBACK response returns the bytes sent for a path check. (R326) -/
  | loopbackResponse (r : Resp) (same : Bool)
  /-- A command with no response within its maximum time plus 1 ms starts STATUS and then RESET_DIE. (R351) -/
  | bridgeCommandTimeout (lane : Fin 64) (tag : Nat)
  /-- Every 100 ms, BRIDGE_STATUS is read for channel temperatures. (R352) -/
  | bridgeStatusPoll
  /-- An erase outstanding past 10 × tBERS_max is starved and reported to the allocator. (R339) -/
  | starvedErase (lane : Fin 64) (die : Fin 64)
  /-- Every thr_sample_s, each block group is sampled at ±1 step and its tracked offsets move one step. (R342) -/
  | thresholdSample (lane : Fin 64) (die : Fin 64) (group level : Nat) (reads : ThrSample)
  /-- Each time a mode's time without progress passes a further 1 s, an event is raised. (R47) -/
  | stallEvent (mode : Fin 8) (seconds : Nat)
  /-- timeout_ms without service records an event, interrupts CC0 and sets stage 1. (R391) -/
  | watchdogStage1
  /-- A further timeout_ms without service performs a watchdog reset, or is held during a drain or wind-down. (R391) -/
  | watchdogStage2
  /-- An engine that completes no queued work within its limit gets one single-engine reset, or is taken out of service. (R392) -/
  | engineHang (e : EngineId)
  /-- Every 200 µs, the CRCs of all class-C registers are computed and compared with the references. (R432) -/
  | cfgSweep (upset : Option RegUpset)
  /-- The AON rails become valid, and the whole device starts from an empty state. (R401) -/
  | powerOnReset (b : BootEnv)
  /-- RESET_N held low for at least 1 µs resets the device as power-on does, except the thermal latch and the event buffer. (R401) -/
  | pinReset (b : BootEnv)
  /-- A warm reset winds down the cache and lanes, restarts from boot flash and resumes or gives up its pools. (R401) -/
  | warmReset (b : BootEnv)
  /-- A PCIe function-level reset resets the local controller, the RED and CIP rings, and trace. (R401) -/
  | functionLevelReset
  /-- PWR_FAIL_N held low for 200 ns starts the Wadi drain within 1 µs; a shorter pulse is counted as a glitch. (R407) -/
  | pwrFailNFall (lowNs : Nat) (intact : DrainFate)
  /-- PWR_FAIL_N rises again while a drain runs or the head is parked. (R412) -/
  | pwrFailNRise
  /-- After PWR_FAIL_N and HOLDUP_OK have been high for 100 ms, the parked head performs a warm reset and recovers. (R412) -/
  | parkRelease
  /-- HOLDUP_OK low limits B_eff to holdup_low_mib and refuses firmware updates. (R413) -/
  | holdupOkFall
  /-- HOLDUP_OK high lifts the holdup_low limit. (R413) -/
  | holdupOkRise
  /-- When the conditions hold, the head enters the lowest permitted non-operational state, L1 or L2. (R156) -/
  | powerStateEntry (p : PsQuiet)
  /-- PCIe link activity from the host ends L3, and the head starts as after a warm reset. (R405) -/
  | l3Exit
  /-- Every 1 ms, D0–D7 are sampled, which updates bands and applies the thermal thresholds. (R415) -/
  | dieTempSample (t : List Int) (hotUs : Nat)
  /-- Every 10 ms, T0–T15 are sampled for high, critical and fault conditions. (R415) -/
  | remoteTempSample (t : List (Option Int))
  /-- After 1 s below the release temperatures, the thermal drain ends. (R417) -/
  | thermalDrainEnd
  /-- A main rail leaves its range without warning, resetting the head at once with no drain. (R471) -/
  | mainRailLoss (b : BootEnv)
  /-- A lost reference clock is found within 1 µs, and its PLLs move to the on-package oscillator. (R473) -/
  | refclkLoss (c : RefClk)
  /-- After the board clock has been in tolerance for 1 s, the PLLs return to it. (R473) -/
  | refclkReturn (c : RefClk)
  /-- A PCIe link fault makes the local controller and the RED and CIP rings unavailable. (R390) -/
  | pcieLinkDown
  /-- 60 s after regs_ready with no watchdog reset, the trial slot becomes active. (R445) -/
  | trialPassed
  /-- A failure to reach regs_ready within 2 s, or a watchdog reset, ends the trial and boots the old slot. (R445) -/
  | trialFailed
  /-- 10 s after the oldest waiting event record, the buffer is flushed. (R452) -/
  | eventFlushTimer
  /-- A TAMPER input changes level, updating tamper_active, and a return to the inactive level lifts the tamper refusal of share loads. (R203) -/
  | tamperInputChange (input : Fin 4) (level : Bool)
  /-- The host retrains the PCIe link, and the local controller and the RED and CIP rings become available again. (R390) -/
  | pcieLinkTrained
  /-- A PTP Announce message names the master and the Sync interval, and a change of master restarts lock. (R95) -/
  | ptpAnnounce (master : PtpMaster) (intervalNs : Nat)
  /-- Under free-run, at the next TIME second a pending TMB_SEC_SET apply takes effect and pending clears. (R94) -/
  | timeSecond
  /-- Every hour the life figure is written to the settings area of boot flash. (R378) -/
  | lifeFigureWrite (ok : Bool)
  /-- An arbiter datagram with a bad magic, version or array_id is discarded and counted in msgs_bad. (R252) -/
  | arbiterDatagramBad
  /-- An NVMe-MI Basic Management Command on SMBus at address 0x6A is answered with composite temperature and status. (R478) -/
  | basicManagementCommand (code : Nat)
  /-- As requester, a queue pair whose request gets no acknowledgement within its timeout retransmits it, counting an attempt toward the seven. (R131) -/
  | retransmissionTimeout (qpn : Nat)
  /-- An entry to L1, L2 or L3 finishes after its entry latency; entering clears and the head rests in the new state. (R405) -/
  | powerStateEntered
  /-- Every 1 µs the control summary page is refreshed as one snapshot, with snap_seq odd during the write. (R439) -/
  | controlSummarySnapshot
  deriving DecidableEq, Repr

end Sys2Proof
end

