-- ==== Sys2Proof/Decode.lean ====
section
/-! DEFINITION. The table's words. Its rows are commands and events of a block and have no bits, so no word spells one. -/
namespace Sys2Proof

/-- The command that a word spells by the table's bits: the table gives no row any. [DEDUCED: log 7] -/
def decodeTableWord (_nbits _w : Nat) : Option Instr := none

end Sys2Proof
end

