-- ==== Sys2Proof/Machine/Bits.lean ====
section
/-! DEFINITION. Bit fields, byte order and signed fields (R5, R6): the helpers every other file uses to take numbers out of
octets and put them back. -/
namespace Sys2Proof.Machine

/-- Bits `msb:lsb` of a number (R6: both ends belong to the field). -/
def bits (n msb lsb : Nat) : Nat := (n >>> lsb) % 2 ^ (msb + 1 - lsb)

/-- One bit of a number, as 0 or 1. -/
def bit (n i : Nat) : Nat := (n >>> i) % 2

/-- Whether bit `i` of a number is 1. -/
def tb (n i : Nat) : Bool := (n >>> i) % 2 == 1

/-- 1 for true, 0 for false. -/
def b2n (b : Bool) : Nat := if b then 1 else 0

/-- Little-endian value of octets (R5). -/
def leNat : Bytes → Nat
  | [] => 0
  | b :: bs => b.toNat + 256 * leNat bs

/-- Big-endian value of octets (R5: network wire formats). -/
def beNat (bs : Bytes) : Nat := bs.foldl (fun a b => a * 256 + b.toNat) 0

/-- `k` octets of a number, least significant first. -/
def leBytes : Nat → Nat → Bytes
  | 0, _ => []
  | k + 1, n => b8 n :: leBytes k (n / 256)

/-- `k` octets of a number, most significant first. -/
def beBytes (k n : Nat) : Bytes := (leBytes k n).reverse

/-- `len` octets from offset `off`, short where the source ends. -/
def slice (bs : Bytes) (off len : Nat) : Bytes := (bs.drop off).take len

/-- `len` octets from offset `off`, zeros after the source's end. -/
def sliceZ (bs : Bytes) (off len : Nat) : Bytes :=
  let t := slice bs off len
  t ++ List.replicate (len - t.length) 0

/-- The little-endian field of `len` octets at offset `off`. -/
def leAt (bs : Bytes) (off len : Nat) : Nat := leNat (slice bs off len)

/-- The big-endian field of `len` octets at offset `off`. -/
def beAt (bs : Bytes) (off len : Nat) : Nat := beNat (slice bs off len)

/-- `len` zero octets. -/
def zeros (len : Nat) : Bytes := List.replicate len 0

/-- Overwrite octets of `bs` from offset `off` with `d` (zeros between the old end and `off`). -/
def overlay (bs : Bytes) (off : Nat) (d : Bytes) : Bytes :=
  let pre := bs.take off
  pre ++ zeros (off - pre.length) ++ d ++ bs.drop (off + d.length)

/-- Octet-wise exclusive or (as long as the shorter). -/
def xorBytes (a b : Bytes) : Bytes := List.zipWith (· ^^^ ·) a b

/-- Round up to a multiple of `k`. -/
def roundUp (n k : Nat) : Nat := (n + k - 1) / k * k

/-- Ceiling division. -/
def ceilDiv (n k : Nat) : Nat := (n + k - 1) / k

/-- The signed value of a `w`-bit two's-complement field. -/
def signedOf (w n : Nat) : Int :=
  if n % 2 ^ w < 2 ^ (w - 1) then (n % 2 ^ w : Nat) else (n % 2 ^ w : Nat) - (2 ^ w : Nat)

/-- The `w`-bit two's-complement field of a signed value. -/
def fieldOfInt (w : Nat) (i : Int) : Nat := (i % (2 ^ w : Nat)).toNat

/-- Octets grouped by `k` (the last group may be short); `fuel` bounds the groups. -/
def chunksFuel (k : Nat) : Nat → Bytes → List Bytes
  | 0, _ => []
  | f + 1, bs => match bs with
    | [] => []
    | b :: t => (b :: t).take k :: chunksFuel k f ((b :: t).drop k)

/-- Octets grouped by `k`. -/
def chunks (k : Nat) (bs : Bytes) : List Bytes := chunksFuel k bs.length bs

end Sys2Proof.Machine
end

