-- ==== Sys2Proof/Machine/ImageTypes.lean ====
section
/-! DEFINITION. The records of the structural image as typed data (R58, R60). Every record carries its index in the image and the
offset of its payload, which validation reports (R61). Field names follow R60; entries of a counted record are a list. -/
namespace Sys2Proof.Machine

/-- Record OWNER_KEY, type 0x0001 (R60). -/
structure OwnerKeyRec where
  idx : Nat := 0
  off : Nat := 0
  keyX : Nat := 0
  keyY : Nat := 0
  deriving DecidableEq, Repr

/-- Record INITIAL_MODE, type 0x0002 (R60). -/
structure InitialModeRec where
  idx : Nat := 0
  off : Nat := 0
  modeReq : Nat := 0
  deriving DecidableEq, Repr

/-- Record FLOORS, type 0x0003 (R60). -/
structure FloorsRec where
  idx : Nat := 0
  off : Nat := 0
  rbldFloorPct : Nat := 0
  spareRoPermille : Nat := 0
  deriving DecidableEq, Repr

/-- One entry of LANE_MAP (R60). -/
structure LaneMapEntry where
  lane : Nat := 0
  module : Nat := 0
  modulePort : Nat := 0
  laneFlags : Nat := 0
  deriving DecidableEq, Repr

/-- Record LANE_MAP, type 0x0010 (R60). -/
structure LaneMapRec where
  idx : Nat := 0
  off : Nat := 0
  head : Nat := 0
  entries : List LaneMapEntry := []
  deriving DecidableEq, Repr

/-- Record POOL, type 0x0011 (R60). -/
structure PoolRec where
  idx : Nat := 0
  off : Nat := 0
  poolId : Nat := 0
  density : Nat := 0
  dataMembers : Nat := 0
  parityMembers : Nat := 0
  pageKib : Nat := 0
  ownerHead : Nat := 0
  oasisPct : Nat := 0
  suspendPolicy : Nat := 0
  dieCount : Nat := 0
  members : List Nat := []
  deriving DecidableEq, Repr

/-- Record TARGET_GEOMETRY, type 0x0012 (R60). -/
structure TargetGeometryRec where
  idx : Nat := 0
  off : Nat := 0
  poolId : Nat := 0
  dataMembers : Nat := 0
  parityMembers : Nat := 0
  deriving DecidableEq, Repr

/-- Record NAMESPACE, type 0x0020 (R60). -/
structure NamespaceRec where
  idx : Nat := 0
  off : Nat := 0
  nsid : Nat := 0
  poolId : Nat := 0
  nsFlags : Nat := 0
  keyLabel : Nat := 0
  sizeBlocks : Nat := 0
  deriving DecidableEq, Repr

/-- Record STREAM, type 0x0021 (R60). -/
structure StreamRec where
  idx : Nat := 0
  off : Nat := 0
  streamId : Nat := 0
  nsid : Nat := 0
  stFlags : Nat := 0
  stageGraph : Nat := 0
  cairnMaxBytes : Nat := 0
  timerCairnMs : Nat := 0
  deriving DecidableEq, Repr

/-- Record WINDOW, type 0x0022 (R60). -/
structure WindowRec where
  idx : Nat := 0
  off : Nat := 0
  windowId : Nat := 0
  nsid : Nat := 0
  streamId : Nat := 0
  channel : Nat := 0
  winFlags : Nat := 0
  startLba : Nat := 0
  length : Nat := 0
  rkey : Nat := 0
  deriving DecidableEq, Repr

/-- Record INSTR_CHANNEL, type 0x0023 (R60). -/
structure InstrChannelRec where
  idx : Nat := 0
  off : Nat := 0
  head : Nat := 0
  channel : Nat := 0
  chFlags : Nat := 0
  slots : Nat := 0
  windowId : Nat := 0
  frameBytes : Nat := 0
  lateLimitUs : Nat := 0
  deriving DecidableEq, Repr

/-- One entry of STAGE_GRAPH (R60). -/
structure StageGraphEntry where
  op : Nat := 0
  unitClass : Nat := 0
  param : Nat := 0
  deriving DecidableEq, Repr

/-- Record STAGE_GRAPH, type 0x0030 (R60). -/
structure StageGraphRec where
  idx : Nat := 0
  off : Nat := 0
  graphId : Nat := 0
  seMask : Nat := 0
  entries : List StageGraphEntry := []
  deriving DecidableEq, Repr

/-- One entry of UNIT_ASSIGN (R60). -/
structure UnitAssignEntry where
  kind : Nat := 0
  cls : Nat := 0
  units : Nat := 0
  deriving DecidableEq, Repr

/-- Record UNIT_ASSIGN, type 0x0031 (R60). -/
structure UnitAssignRec where
  idx : Nat := 0
  off : Nat := 0
  head : Nat := 0
  entries : List UnitAssignEntry := []
  deriving DecidableEq, Repr

/-- One entry of QOS (R60). -/
structure QosEntry where
  kind : Nat := 0
  id : Nat := 0
  share : Nat := 0
  floorMbs : Nat := 0
  deriving DecidableEq, Repr

/-- Record QOS, type 0x0040 (R60). -/
structure QosRec where
  idx : Nat := 0
  off : Nat := 0
  entries : List QosEntry := []
  deriving DecidableEq, Repr

/-- One entry of LOOP_BOUNDS (R60). -/
structure LoopBoundsEntry where
  loop : Nat := 0
  setting : Nat := 0
  lower : Int := 0
  upper : Int := 0
  pinned : Int := 0
  deriving DecidableEq, Repr

/-- Record LOOP_BOUNDS, type 0x0041 (R60). -/
structure LoopBoundsRec where
  idx : Nat := 0
  off : Nat := 0
  entries : List LoopBoundsEntry := []
  deriving DecidableEq, Repr

/-- Record TUNABLES, type 0x0042 (R60). -/
structure TunablesRec where
  idx : Nat := 0
  off : Nat := 0
  dirtyBudgetMib : Nat := 0
  holdupMs : Nat := 0
  ersSuspMax : Nat := 0
  wlSpread : Nat := 0
  deriving DecidableEq, Repr

/-- Record STAGING, type 0x0043 (R60). -/
structure StagingRec where
  idx : Nat := 0
  off : Nat := 0
  ownMibHead0 : Nat := 0
  ownMibHead1 : Nat := 0
  deriving DecidableEq, Repr

/-- One entry of PORT_BREAKOUT (R60). -/
structure PortBreakoutEntry where
  port : Nat := 0
  split : Nat := 0
  pfcMask : Nat := 0
  portFlags : Nat := 0
  deriving DecidableEq, Repr

/-- Record PORT_BREAKOUT, type 0x0050 (R60). -/
structure PortBreakoutRec where
  idx : Nat := 0
  off : Nat := 0
  head : Nat := 0
  entries : List PortBreakoutEntry := []
  deriving DecidableEq, Repr

/-- One entry of NET_ADDR (R60). -/
structure NetAddrEntry where
  port : Nat := 0
  subport : Nat := 0
  family : Nat := 0
  prefixLen : Nat := 0
  address : Bytes := []
  vlan : Nat := 0
  deriving DecidableEq, Repr

/-- Record NET_ADDR, type 0x0051 (R60). -/
structure NetAddrRec where
  idx : Nat := 0
  off : Nat := 0
  head : Nat := 0
  entries : List NetAddrEntry := []
  deriving DecidableEq, Repr

/-- Record PEER_LINK, type 0x0060 (R60). -/
structure PeerLinkRec where
  idx : Nat := 0
  off : Nat := 0
  serdesMask : Nat := 0
  minLanes : Nat := 0
  arbHbUs : Nat := 0
  deriving DecidableEq, Repr

/-- Record TIME_SOURCE, type 0x0061 (R60). -/
structure TimeSourceRec where
  idx : Nat := 0
  off : Nat := 0
  head : Nat := 0
  source : Nat := 0
  ptpDomain : Nat := 0
  ptpPort : Nat := 0
  holdoverS : Nat := 0
  ipclkKhz : Nat := 0
  deriving DecidableEq, Repr

/-- Record TRIG_SCHEDULE, type 0x0062 (R60). -/
structure TrigScheduleRec where
  idx : Nat := 0
  off : Nat := 0
  head : Nat := 0
  trig : Nat := 0
  trigFlags : Nat := 0
  widthNs : Nat := 0
  startNs : Nat := 0
  periodNs : Nat := 0
  deriving DecidableEq, Repr

/-- One entry of TEMP_CHANNELS (R60). -/
structure TempChannelsEntry where
  channel : Nat := 0
  sensor : Nat := 0
  param : Nat := 0
  deriving DecidableEq, Repr

/-- Record TEMP_CHANNELS, type 0x0063 (R60). -/
structure TempChannelsRec where
  idx : Nat := 0
  off : Nat := 0
  head : Nat := 0
  entries : List TempChannelsEntry := []
  deriving DecidableEq, Repr

/-- Record KEY_LABEL, type 0x0070 (R60). -/
structure KeyLabelRec where
  idx : Nat := 0
  off : Nat := 0
  labelId : Nat := 0
  keyBits : Nat := 0
  label : Bytes := []
  deriving DecidableEq, Repr

/-- Record REPL_TARGET, type 0x0071 (R60). -/
structure ReplTargetRec where
  idx : Nat := 0
  off : Nat := 0
  targetId : Nat := 0
  tgtFlags : Nat := 0
  deviceId : Nat := 0
  srcNsid : Nat := 0
  dstNsid : Nat := 0
  keyLabel : Nat := 0
  address : Bytes := []
  deriving DecidableEq, Repr

/-- Record LOCK, type 0x00F0 (R60). -/
structure LockRec where
  idx : Nat := 0
  off : Nat := 0
  lockFlags : Nat := 0
  deriving DecidableEq, Repr

/-- A structural image as records, in image order within each type (R58), with the header fields the device uses and its octets. -/
structure Image where
  bytes : Bytes := []
  generation : Nat := 0
  arrayId : Nat := 0
  fwMajorMin : Nat := 0
  fwMajorMax : Nat := 0
  ownerKey : List OwnerKeyRec := []
  initialMode : List InitialModeRec := []
  floors : List FloorsRec := []
  laneMap : List LaneMapRec := []
  pool : List PoolRec := []
  target : List TargetGeometryRec := []
  ns : List NamespaceRec := []
  stream : List StreamRec := []
  window : List WindowRec := []
  channel : List InstrChannelRec := []
  graph : List StageGraphRec := []
  unitAssign : List UnitAssignRec := []
  qos : List QosRec := []
  loopBounds : List LoopBoundsRec := []
  tunables : List TunablesRec := []
  staging : List StagingRec := []
  portBreakout : List PortBreakoutRec := []
  netAddr : List NetAddrRec := []
  peerLink : List PeerLinkRec := []
  timeSource : List TimeSourceRec := []
  trig : List TrigScheduleRec := []
  tempChannels : List TempChannelsRec := []
  keyLabel : List KeyLabelRec := []
  replTarget : List ReplTargetRec := []
  lock : List LockRec := []
  deriving DecidableEq, Repr

end Sys2Proof.Machine
end

