-- ==== Sys2Proof/Machine/Tab.lean ====
section
/-! DEFINITION. Sparse tables: lists of (key, value) with keys strictly rising, so that equal tables are equal lists. Every
keyed collection of the state (queue pairs, windows, namespaces, map entries, …) is one of these. -/
namespace Sys2Proof.Machine

/-- A table: entries in strictly rising order of key. -/
abbrev Tab (α : Type) := List (Nat × α)

/-- The entry of a key. -/
def Tab.find? {α : Type} (k : Nat) : Tab α → Option α
  | [] => none
  | (k', v) :: t => if k' = k then some v else Tab.find? k t

/-- The entry of a key, or a value for an unlisted key. -/
def Tab.getD {α : Type} (t : Tab α) (k : Nat) (dflt : α) : α := (Tab.find? k t).getD dflt

/-- Put an entry in its place, replacing the key's old one. -/
def Tab.put {α : Type} (k : Nat) (v : α) : Tab α → Tab α
  | [] => [(k, v)]
  | (k', v') :: t =>
    if k < k' then (k, v) :: (k', v') :: t
    else if k = k' then (k, v) :: t
    else (k', v') :: Tab.put k v t

/-- Take a key's entry out. -/
def Tab.del {α : Type} (k : Nat) (t : Tab α) : Tab α := t.filter (fun e => e.1 != k)

/-- Change a key's entry, where it has one. -/
def Tab.upd {α : Type} (k : Nat) (f : α → α) (t : Tab α) : Tab α :=
  t.map (fun e => if e.1 = k then (e.1, f e.2) else e)

/-- Change a key's entry, starting from a default where it has none. -/
def Tab.updD {α : Type} (k : Nat) (dflt : α) (f : α → α) (t : Tab α) : Tab α :=
  Tab.put k (f ((Tab.find? k t).getD dflt)) t

/-- Change every entry. -/
def Tab.mapV {α β : Type} (f : α → β) (t : Tab α) : Tab β := t.map (fun e => (e.1, f e.2))

/-- Whether a key is listed. -/
def Tab.has {α : Type} (k : Nat) (t : Tab α) : Bool := (Tab.find? k t).isSome

/-- The keys. -/
def Tab.keys {α : Type} (t : Tab α) : List Nat := t.map (·.1)

/-- The values. -/
def Tab.vals {α : Type} (t : Tab α) : List α := t.map (·.2)

/-- The canonical form: keys strictly rising. -/
def Tab.wf {α : Type} : Tab α → Bool
  | [] => true
  | [_] => true
  | (k, _) :: (k', v') :: t => decide (k < k') && Tab.wf ((k', v') :: t)

/-- The least number from `i` on, within `fuel` tries, that no key of the table takes. -/
def Tab.freeKey {α : Type} (t : Tab α) : Nat → Nat → Nat
  | 0, i => i
  | f + 1, i => if Tab.has i t then Tab.freeKey t f (i + 1) else i

end Sys2Proof.Machine
end

