-- ==== Sys2Proof/Machine/StateCapture.lean ====
section
/-! DEFINITION. State of the instrument port and TIME (R79 to R98), of queue pairs and windows (R99 to R134) and of the NVMe
controllers (R135 to R167). -/
namespace Sys2Proof.Machine

/-! ### Instrument port and TIME -/

/-- A strobe of a channel: number, stamp, and what its record will carry (R81, R82, R91). -/
structure Strobe where
  num : Nat
  stamp : Nat
  overrun : Bool := false
  deriving DecidableEq, Repr

/-- A completion that waits for its strobe (R89): number, frame size, time. -/
structure Completion where
  num : Nat
  size : Nat
  time : Nat
  write : Nat
  deriving DecidableEq, Repr

/-- A frame index record (R91). -/
structure FrameRec where
  kind : Nat
  num : Nat
  strobeNs : Nat := 0
  completeNs : Nat := 0
  size : Nat := 0
  window : Nat := 0
  overrun : Bool := false
  sizeDiff : Bool := false
  stepped : Bool := false
  quality : Nat := 0
  seq : Nat := 0
  deriving DecidableEq, Repr

/-- Role of a channel on this head (R87). -/
inductive Role where
  | disabled | active | standby
  deriving DecidableEq, Repr

/-- What a channel recorded of a frame number (R90). -/
inductive Outcome where
  | arrived | late | missing
  deriving DecidableEq, Repr

/-- A frame a channel has recorded: how, its strobe's stamp, and whether it was an overrun, which later records of it carry too (R82, R91). -/
structure FrameSeen where
  outcome : Outcome
  stamp : Nat
  overrun : Bool
  deriving DecidableEq, Repr

/-- One instrument channel (R79 to R93). `fresh`: no strobe yet since it entered the active role, so FNUM_BASE is next (R81). `ring` holds the HBM ring's records oldest first, `copied` how many of its oldest are on
flash already, `flash` the flash area oldest first; `outcomes` remembers what was recorded of a frame number (R90); `toAck` the
ARRIVED frames, with the write whose acknowledgement returns their slot (R83); `since` the octets completed to the window since
the last immediate (R89); `owed` a GAP record owed with its lowest number and count, where the count is known (R88, R92); `prevStrobe`
the previous strobe's stamp, on the present TIME count; `sayLast` that the last matched frame has not been mirrored yet (R87). -/
structure Chan where
  role : Role := .disabled
  slots : Int := 0
  fnext : Nat := 0
  fresh : Bool := false
  prevStrobe : Option Int := none
  pending : List Strobe := []
  waiting : List Completion := []
  standbyRing : List Strobe := []
  ring : List FrameRec := []
  copied : Nat := 0
  flash : List FrameRec := []
  indexSeq : Nat := 0
  outcomes : Tab FrameSeen := []
  owed : Option (Nat × Option Nat) := none
  mirroredLast : Option (Nat × Nat) := none
  sayLast : Bool := false
  stepped : Bool := false
  toAck : List (Nat × Nat) := []
  deriving DecidableEq, Repr

/-- One trigger output's schedule in force (R96): its record's fields, the next pulse's index, and the end of a pulse in progress. -/
structure Trig where
  enabled : Bool := false
  activeLow : Bool := false
  width : Nat := 0
  start : Nat := 0
  period : Nat := 0
  nextK : Nat := 0
  pulseEnd : Option Nat := none
  deriving DecidableEq, Repr

/-- The TIME domain beside its registers (R94, R95): the count; consecutive good edges or Sync intervals; the seconds value an
apply took; whether the reference came back during holdover; the PTP master and its Sync interval; the slew still to do. -/
structure TimeDom where
  running : Bool := false
  now : Nat := 0
  good : Nat := 0
  secLatch : Option Nat := none
  back : Bool := false
  master : Option Nat := none
  syncNs : Nat := 0
  slewLeft : Int := 0
  trigs : Tab Trig := []
  deriving DecidableEq, Repr

/-- The instrument port: channels by number, and TIME. -/
structure IptState where
  chans : Tab Chan := []
  time : TimeDom := {}
  deriving DecidableEq, Repr

/-! ### Network, queue pairs, windows -/

/-- Queue-pair states (R103). -/
inductive QpState where
  | reset | init | rtr | rts | error
  deriving DecidableEq, Repr

/-- What a queue pair serves: a capture sender, an NVMe queue, a Caravan sent or a Caravan received. -/
inductive QpUse where
  | capture | nvme | caravanOut | caravanIn
  deriving DecidableEq, Repr

/-- A message being received (R120, R125): first PSN, window, offset, length, packets in, payload by offset, last PSN where known, and when
its last packet came (R129). -/
structure InMsg where
  first : Nat
  last : Option Nat
  win : Option Nat
  va : Nat
  len : Nat
  got : List Nat
  parts : List (Nat × Bytes)
  imm : Option Nat
  isSend : Bool
  lastAt : Nat := 0
  deriving DecidableEq, Repr

/-- A message that was not admitted (R115): its PSNs, and those of its packets that have come. -/
structure RefusedMsg where
  first : Nat
  last : Nat
  seen : List Nat
  deriving DecidableEq, Repr

/-- A request the device sends on a queue pair (R131): PSN, attempts made, what it serves, and of a READ the data come so far; `orphan`
once the command it serves has been aborted (R150), so that its data go nowhere. -/
structure OutReq where
  psn : Nat
  attempts : Nat
  isRead : Bool
  ctrl : Nat
  sq : Nat
  cid : Nat
  payload : Bytes
  got : Bytes := []
  finished : Bool := false
  failed : Bool := false
  orphan : Bool := false
  deriving DecidableEq, Repr

/-- A queue pair (R103 to R107, R120 to R131). `msgBase` is the first PSN of the oldest message not complete, `refused` the
messages not admitted (R115), `owedNak` the syndrome the next packet meets after a context fault, `ahead` the PSNs received above the
expected one, `gaveUp` the ranges of PSNs, from `msgBase` on, of messages abandoned under spray (R129). -/
structure Qp where
  state : QpState := .reset
  use : QpUse := .capture
  uc : Bool := false
  spray : Bool := false
  prot : Bool := false
  singlePath : Bool := false
  errCause : Nat := 0
  epsn : Nat := 0
  msn : Nat := 0
  mtu : Nat := 4096
  peerAddr : Bytes := []
  peerQpn : Nat := 0
  paths : List SubPort := []
  windows : List Nat := []
  msgs : List InMsg := []
  msgBase : Nat := 0
  refused : List RefusedMsg := []
  owedNak : Option Nat := none
  ahead : List Nat := []
  gaveUp : List (Nat × Nat) := []
  gapNaked : Bool := false
  tracker : Bool := false
  dupAckAt : Option Nat := none
  sackAt : Option Nat := none
  cnpAt : Option Nat := none
  cutAt : Option Nat := none
  cached : Bool := false
  lastUse : Nat := 0
  fetching : Bool := false
  held : List Instr := []
  prevEnd : Tab Nat := []
  sinceImm : Tab Nat := []
  readsOut : Nat := 0
  reqs : List OutReq := []
  sendPsn : Nat := 0
  pace : Nat := 0
  flushing : Bool := false
  deriving DecidableEq, Repr

/-- A message complete on a window's binding and not yet acknowledged (R113): its padded end, its write, its immediate, its first PSN and
the MSN before it (R132). -/
structure DoneMsg where
  stop : Nat
  write : Nat
  imm : Option Nat := none
  first : Nat := 0
  msn : Nat := 0
  deriving DecidableEq, Repr

/-- Window states (R108). -/
inductive WinState where
  | absent | openUnbound | bound | revoked
  deriving DecidableEq, Repr

/-- A capture window (R108 to R118). `advAt` is when the limit last advanced; `mirAt` lists the window states sent to the peer by
link sequence, `mirrored` what the peer holds, `shown` what the sender has been told, `creditAt` when, `heldTold` that it was told the window is held, and `owes` whether an
advance or a gate that closed is still to be told; `byErr` marks a window revoked by Error of its queue pair. `done` lists the messages complete on this binding and not yet acknowledged. -/
structure Win where
  state : WinState := .absent
  horizon : Nat := 0
  limit : Nat := 0
  qpn : Nat := 0
  cseq : Nat := 0
  adopted : Bool := false
  lastImm : Nat := 0
  bindBase : Nat := 0
  span : Nat := 0
  reduced : Bool := false
  byErr : Bool := false
  pace : Nat := 0
  advAt : Option Nat := none
  mirAt : List (Nat × Nat × Nat) := []
  mirroredH : Nat := 0
  mirroredL : Nat := 0
  shownH : Nat := 0
  shownL : Nat := 0
  creditAt : Option Nat := none
  owes : Bool := false
  heldTold : Bool := false
  done : List DoneMsg := []
  deriving DecidableEq, Repr

/-- The network and RDMA state: links up, queue pairs, windows, QPNs out of use until a time (R103), priorities paused each way,
and the miss buffer's octets per port (R107). -/
structure NetState where
  up : List SubPort := []
  qps : Tab Qp := []
  wins : Tab Win := []
  quarantine : Tab Nat := []
  missUse : Tab Nat := []
  sentXoff : List (Nat × Nat) := []
  gotXoff : List (Nat × Nat) := []
  useClock : Nat := 0
  deriving DecidableEq, Repr

/-! ### Writes on their way to acknowledgement -/

/-- Who waits for a write: an RDMA message to a window, an NVMe command, a Caravan record. -/
inductive WriteOwner where
  | message (qpn win paddedEnd : Nat) (imm : Option Nat)
  | command (ctrl sq cid : Nat)
  | record (nsid index : Nat)
  deriving DecidableEq, Repr

/-- A block of an open epoch (R299, R301): its write, its kind and content identity as R301 gives them, where its version
lies, the index entry it holds (R179), whether it deferred, and whether it stands alone after a collision (R183). -/
structure EpochBlock where
  wid : WriteId
  lba : Nat
  kind : Nat
  content : Bytes
  loc : Loc
  entry : Option Nat := none
  deferred : Bool := false
  alone : Bool := false
  deriving DecidableEq, Repr

/-- A write with its sequence assigned (R121, R144): who waits for it, namespace, stream and sequence, first block, number of blocks,
the staged slots it rests on, the versions it makes visible (an NVMe write, until its completion is posted), how far it has come, and
whether all of it goes to the peer as it is taken (R249). -/
structure WriteRec where
  owner : WriteOwner
  nsid : Nat
  stream : Nat
  seq : Nat
  lba : Nat
  blocks : Nat
  slots : List Nat := []
  vers : List EpochBlock := []
  fua : Bool := false
  visible : Bool := false
  acked : Bool := false
  mirrored : Bool := false
  deriving DecidableEq, Repr

/-! ### NVMe -/

/-- Controller kinds (R135). -/
inductive CtrlKind where
  | fabrics | discovery | local_
  deriving DecidableEq, Repr

/-- A queue of a controller (R136); of a local completion queue whether it interrupts, and its MSI-X vector (R166). -/
structure NvQueue where
  qpn : Nat := 0
  size : Nat := 0
  isCq : Bool := false
  cq : Nat := 0
  base : Nat := 0
  ien : Bool := false
  vector : Nat := 0
  deriving DecidableEq, Repr

/-- A command outstanding at a controller, with what Abort asks about it (R150), and its first block, or the first in which it fails (R153). -/
structure NvCmd where
  sq : Nat
  cid : Nat
  nsid : Nat
  opcode : Nat
  admin : Bool
  lba : Nat := 0
  deriving DecidableEq, Repr

/-- An entry of a controller's error log (R153). -/
structure NvError where
  sq : Nat
  cid : Nat
  status : Nat
  nsid : Nat
  lba : Nat
  deriving DecidableEq, Repr

/-- Where a completion queue of the local controller stands: the entry its doorbell says is consumed up to, and the next to be posted
(R166, R383). -/
structure CqPos where
  head : Nat := 0
  tail : Nat := 0
  deriving DecidableEq, Repr

/-- One NVMe controller (R135 to R158). `warned` holds the SMART critical warnings raised on it, `cqs` how its completion queues stand by
queue identifier. -/
structure Ctrl where
  kind : CtrlKind := .fabrics
  enabled : Bool := false
  ready : Bool := false
  queues : Tab NvQueue := []
  cmds : List NvCmd := []
  features : Tab Nat := []
  grantedSq : Nat := 0
  grantedCq : Nat := 0
  kato : Nat := 0
  aers : List (Nat × Nat) := []
  aerPending : List (Nat × Nat × Nat) := []
  changedNs : List Nat := []
  anaCount : Nat := 0
  errors : List NvError := []
  errorCount : Nat := 0
  cqs : Tab CqPos := []
  abortsOut : Nat := 0
  cc : Nat := 0
  csts : Nat := 0
  aqa : Nat := 0
  asq : Nat := 0
  acq : Nat := 0
  intms : Nat := 0
  warned : Nat := 0
  deriving DecidableEq, Repr

/-- ANA states the device reports (R158). -/
inductive Ana where
  | optimized | inaccessible | change
  deriving DecidableEq, Repr

/-- Whom a read serves: an NVMe Read, Compare or Verify, or an RDMA READ of a window. -/
inductive ReadFor where
  | read (h : NvHdr) (buf : NvBuf)
  | compare (h : NvHdr) (data : Bytes)
  | verify (h : NvHdr)
  | rdma (qpn psn off len : Nat)
  deriving DecidableEq, Repr

/-- A read under way (R22, R341): namespace, first block, number of blocks, blocks in hand by index, whether one is unrecovered and the
lowest that is, or whether one could not be decrypted because the keys went before it reached that stage (R149). -/
structure ReadRec where
  for_ : ReadFor
  nsid : Nat
  slba : Nat
  blocks : Nat
  got : Tab Bytes := []
  failed : Bool := false
  badAt : Option Nat := none
  noKeys : Bool := false
  deriving DecidableEq, Repr

/-- Block `i` of a read cannot be had. -/
def ReadRec.lose (x : ReadRec) (i : Nat) : ReadRec := { x with failed := true, badAt := some (min i (x.badAt.getD i)) }

/-- A Write or Compare that waits: for budget (R223), for admission (R268, R369), for its data over RDMA READ; `counted` once its wait
for budget has been counted. `stamp` marks a Set Features of the Timestamp, whose 8 octets are fetched in the same way. -/
structure NvWait where
  hdr : NvHdr
  slba : Nat
  blocks : Nat
  fua : Bool
  data : NvData
  compare : Bool := false
  stamp : Bool := false
  fetching : Bool := false
  counted : Bool := false
  deriving DecidableEq, Repr

/-- Octets that a wait has reserved in the budget: a write's, once its fetch has begun (R221). -/
def NvWait.reserves (w : NvWait) : Nat := if w.fetching && !w.compare && !w.stamp then 4096 * w.blocks else 0

/-- The NVMe side of the head (R135 to R167). `dma` is the error status of the last DMA with host memory that ended in a fault (R28),
`unfetched` the commands that lie in the local controller's submission queues for want of room for their completions (R383), in the order
they were submitted, `pciClass` the PCI class code of the local controller (R138). -/
structure NvState where
  ctrls : Tab Ctrl := []
  anaShown : Tab Nat := []
  reads : Tab ReadRec := []
  nextRead : Nat := 0
  waits : List NvWait := []
  flushes : List (NvHdr × List Nat) := []
  placeWaits : List (NvHdr × Nat) := []
  held : Option Nat := none
  entering : Option Nat := none
  dma : Option DmaFault := none
  unfetched : List (NvHdr × Instr) := []
  pciClass : Nat := 0x018000
  deriving DecidableEq, Repr

end Sys2Proof.Machine
end

