-- ==== Sys2Proof/Machine/StateStore.lean ====
section
/-! DEFINITION. State of reduction, cipher, staging, the two heads, stripes, Cairns, flash and translation (R168 to R380). -/
namespace Sys2Proof.Machine

/-! ### Staged slots (R219, R220, R360) -/

/-- A staged slot: its own-area offset in 1 KiB units, whose it is, its coded form and its content; `mseq` is the mirror cseq it was
sent under; `stripe` the stripe (pool, number in `Pool.stripes`) it was placed in; `ghost` that a reset lost it from HBM while its stripe was being
programmed, so that only the replay of that stripe can save it (R279); `of_` is that of `MirrorSlot`. -/
structure Staged where
  off : Nat
  nsid : Nat
  lba : Nat
  wid : WriteId
  desc : Desc
  image : Bytes
  plain : Bytes
  fp : Option Bytes := none
  write : Nat := 0
  mseq : Option Nat := none
  peerOk : Bool := false
  adopted : Bool := false
  stripe : Option (Nat × Nat) := none
  ghost : Bool := false
  of_ : Nat := 0
  deriving DecidableEq, Repr

/-- A block in an ingest buffer (R19), from its write's sequence number until the write meets its acknowledgement condition: it waits for
its lookup, or for keys (R149, R209), then to be stored alone after a collision (R183) or as a block that deferred (R177); `staged` once
its version no longer lies here alone, with the staged slot it was coded into. -/
structure Ingest where
  nsid : Nat
  lba : Nat
  wid : WriteId
  write : Nat
  plain : Bytes
  fp : Option Bytes := none
  alone : Bool := false
  waitKeys : Bool := false
  deferred : Bool := false
  staged : Bool := false
  slot : Option Nat := none
  deriving DecidableEq, Repr

/-- State of the stripe cache (R231). -/
inductive ScState where
  | disabled | writingBack | invalidated | enabled
  deriving DecidableEq, Repr

/-- A way of the stripe cache: the line's address bits a, dirty or clean, how recently used, pinned as a parity line (R228, R229), its
octets and the line check value its tag entry holds (R233). -/
structure ScWay where
  a : Nat
  dirty : Bool
  used : Nat
  parity : Bool := false
  data : Bytes := []
  check : Nat := 0
  deriving DecidableEq, Repr

/-- Staging and the stripe cache (R218 to R240). `slots` by slot number; `mirror` holds the peer's slots by offset, `mirrorBad` the
offsets of those that cannot be read while their owner is lost (R32); `reserved` the
octets reserved by NVMe writes; `judged`: the first training of the lanes after a start is over; `drainOf` the dies a drain had at the
last judgement (R410); `runs` the run counts of R230 by requester as (last line, count); `fails` the times of lasting
failures by line's set and way; `retiredPages` is kept in boot flash. -/
structure StgState where
  slots : Tab Staged := []
  nextSlot : Nat := 0
  mirror : Tab MirrorSlot := []
  mirrorBad : List Nat := []
  reserved : Nat := 0
  budgetReached : Bool := false
  judged : Bool := false
  drainOf : List Nat := []
  sc : ScState := .disabled
  lines : Tab (List ScWay) := []
  waysOut : Tab Nat := []
  fails : Tab (List Nat) := []
  clock : Nat := 0
  runs : Tab (Nat × Nat) := []
  ingest : Tab Ingest := []
  nextIngest : Nat := 0
  writes : Tab WriteRec := []
  nextWrite : Nat := 0
  rowErrs : Tab (Nat × Nat) := []
  deriving DecidableEq, Repr

/-! ### Reduction and jobs (R168 to R199) -/

/-- A fingerprint index entry (R178), with what the coding of its slot depended on (R172, R182): whether the compress stage ran, the domain
effort, codec version, key label, image generation and firmware major version. -/
structure IndexEntry where
  fp : Bytes
  nsid : Nat
  isSealed : Bool
  pending : Bool
  collided : Bool := false
  owner : WriteId
  refs : Nat := 0
  loc : Loc
  effort : Nat := 0
  codecVer : Nat := 0
  keyLabel : Nat := 0
  compressed : Bool := false
  generation : Nat := 0
  fwMajor : Nat := 0
  deriving DecidableEq, Repr

/-- A lookup under way for a block (R177); `deferred` once its holder has stored its own slot. Lookups share the numbers of the
ingest buffers whose blocks they are for. -/
structure Lookup where
  nsid : Nat
  fp : Bytes
  wid : WriteId := {}
  deferred : Bool := false
  deriving DecidableEq, Repr

/-- Where an inflating stream stands between two elements (RFC 1951): 0 wrapper header, 1 block header, 2 stored octets, 3 codes, 4
trailer, 5 ended; bits used of the next input octet; last block; stored octets left; code lengths of the block; a match partly copied. -/
structure InfState where
  phase : Nat := 0
  bitOff : Nat := 0
  last : Bool := false
  stored : Nat := 0
  lit : List Nat := []
  dist : List Nat := []
  copyLen : Nat := 0
  copyDist : Nat := 0
  deriving DecidableEq, Repr

/-- A stream context of the job service (R189, R197): kind 0 empty, 1 compression, 2 decompression, 3 error; the ring it is bound to;
wrapper format, effort, uncompressed octets so far with their running CRC-32C and wrapper check; output bits not yet written; the last
32 KiB; whether the wrapper header is still to be written. -/
structure JobCtx where
  kind : Nat := 0
  ring : Nat := 0
  format : Nat := 0
  effort : Nat := 0
  total : Nat := 0
  crc : Nat := 0
  wrapCheck : Nat := 0
  pendBits : List Bool := []
  history : Bytes := []
  inf : InfState := {}
  headerOwed : Bool := false
  deriving DecidableEq, Repr

/-- A ring's progress beside its registers (R186): completion index, phase, jobs fetched and not run, and how many of
those a zeroization has ended (R214). -/
structure RingState where
  cqTail : Nat := 0
  phase : Bool := true
  fetched : Nat := 0
  zeroized : Nat := 0
  deriving DecidableEq, Repr

/-- The reduction block; `jobsHeld` keeps, oldest first, the jobs of both services whose descriptors lie in host memory and are not yet
fetched (R186) or that a thermal drain holds back (R417). -/
structure RedState where
  lookups : Tab Lookup := []
  ctxs : Tab JobCtx := []
  rings : Tab RingState := []
  jobsHeld : List Instr := []
  deriving DecidableEq, Repr

/-! ### Keys and cipher jobs (R201 to R217) -/

/-- A host cipher context (R211 to R213): key and whether it came from a label; mode; the block that is enciphered next (IV, counter or
feedback), the ciphertext of the block under way, and of GCM the hash so far and the lengths. -/
structure CipherCtx where
  bound : Bool := false
  ring : Nat := 0
  mode : Nat := 0
  key : Bytes := []
  fromLabel : Bool := false
  iv : Bytes := []
  part : Bytes := []
  ghash : Nat := 0
  aadLen : Nat := 0
  dataLen : Nat := 0
  started : Bool := false
  deriving DecidableEq, Repr

/-- The cipher engine: root key, share, replication master where loaded, the derived-key cache (label, purpose, key), the load under
way, the recorded check values (R203), the keys of the Caravans under way, by target and by the namespace they land in (R210), contexts
and rings. -/
structure CipState where
  kRoot : Option Bytes := none
  share : Bytes := []
  master : Option Bytes := none
  cache : List (Bytes × Bytes × Bytes) := []
  loading : Bool := false
  recordedKcv : Option Nat := none
  recordedRkcv : Option Nat := none
  carKeys : Tab Bytes := []
  landKeys : Tab Bytes := []
  ctxs : Tab CipherCtx := []
  rings : Tab RingState := []
  deriving DecidableEq, Repr

/-! ### Two heads (R242 to R266) -/

/-- What this head holds of its peer's state (R249): `sealed` are the stripes whose journal records it saw closed, `closedPos` the positions
of each namespace's latest closed Cairn, `base` the last known map delta of each block under it. -/
structure PeerStore where
  journal : Tab OpenRec := []
  sealed : Tab OpenRec := []
  base : Tab (Tab MapDelta) := []
  deltas : List MapDelta := []
  qps : Tab QpMirror := []
  wins : Tab WinMirror := []
  cairns : Tab CairnMirror := []
  holders : List HolderMirror := []
  retained : List (Nat × Nat) := []
  caravans : Tab CaravanMirror := []
  reshape : Tab Nat := []
  switched : List Nat := []
  lastMatched : Tab (Nat × Nat) := []
  closedPos : Tab (Tab Nat) := []
  fwu : FwuPeer := {}
  deriving DecidableEq, Repr

/-- Takeover and transfer phases (R258, R263) as ARB_STAT.phase numbers them. -/
inductive Phase where
  | none | takeover | giving | taking | waiting
  deriving DecidableEq, Repr

/-- The Pengenko link and the arbiter. `lanes` lists serdes up; link and class sequences each way; `acked` the highest link sequence
the peer acknowledged, `confirmed` the highest mirror cseq it confirmed, `mirrorRx` the highest one written here; `naked` that a NAK is
out; `held` packets that wait for slots they name; `synced` that resynchronization has begun on this link, `resyncEnd` its last link
sequence. `claiming` marks a takeover or transfer that has issued its claims, `verdictIn` a VERDICT taken since the peer fell silent;
`announce` lists adopted addresses by port and sub-port with the announcements still due, `addrsOut` that the head's own addresses are
withdrawn. `lastOwned` are the pools that the head owned when it was last in service. `faulty` lists dies (by key) and paths (65,536 + lane) that the self-test marked, `pathBad` paths that failed once. -/
structure HeadState where
  lanes : List Nat := []
  txLseq : Nat := 0
  rxLseq : Nat := 0
  txCseq : Tab Nat := []
  acked : Nat := 0
  confirmed : Nat := 0
  mirrorRx : Nat := 0
  naked : Bool := false
  held : List Instr := []
  heard : Option Nat := none
  silent : Bool := false
  lost : Bool := false
  peerHb : Option Heartbeat := none
  synced : Bool := false
  resync : Bool := false
  resyncEnd : Nat := 0
  store : PeerStore := {}
  term : Nat := 0
  phase : Phase := .none
  phasePools : Nat := 0
  claiming : Bool := false
  phaseStart : Nat := 0
  arbSeq : Nat := 0
  verdictIn : Bool := false
  verdictReason : Nat := 0
  announce : List (Nat × Nat × Bytes × Nat) := []
  addrsOut : Bool := false
  lastOwned : Option Nat := none
  faulty : List Nat := []
  pathBad : List Nat := []
  deriving DecidableEq, Repr

/-! ### Stripes and pools (R267 to R295, R357 to R380) -/

/-- Stripe states (R274); a retired stripe leaves the table. -/
inductive StripeState where
  | assembling | programming | healthy | degraded | lost | abandoned
  deriving DecidableEq, Repr

/-- A stripe: geometry, state, members in order data, P, Q, T (R274, R275), slots, where each slot came from (a staged slot, or the
source of a copy), whether it is closed to more slots, the
places of members being rebuilt, whether its replay (R279) waits for its dies (1) or reads its members (2), whether its programs wait
for room in the in-progress area (R227), and whether it lies in blocks of the erase reserve (R368). -/
structure Stripe where
  seq : Nat
  data : Nat
  parity : Nat
  pageKib : Nat
  layout : Nat := 0
  generation : Nat := 0
  head : Nat := 0
  state : StripeState := .assembling
  members : List MemberAddr := []
  slots : List StripeSlot := []
  srcs : List Loc := []
  closed : Bool := false
  band : Nat := 0
  copy : Bool := false
  rebuilding : List MemberAddr := []
  unplaceable : Bool := false
  replay : Nat := 0
  waits : Bool := false
  reserve : Bool := false
  deriving DecidableEq, Repr

/-- A band (R367): one erased block on each plane of each die chosen; stripes fill it page index by page index. `reserve` where blocks of
it come from the erase reserve (R368). -/
structure Band where
  num : Nat
  dies : List (Nat × Nat)
  blocks : List (List Nat)
  planes : Nat
  pages : Nat
  next : Nat := 0
  copy : Bool := false
  reserve : Bool := false
  deriving DecidableEq, Repr

/-- A slot to copy into a new stripe (R287, R290, R371): where it lies, what it holds, the copy stripe's layout, whether it has been
read, and the stripe it was placed in. -/
structure CopyJob where
  src : Loc
  slot : StripeSlot
  layout : Nat := 0
  read : Bool := false
  fetching : Bool := false
  stripe : Option Nat := none
  deriving DecidableEq, Repr

/-- A journal record (R276). -/
structure JournalRec where
  typ : Nat
  seq : Nat
  member : Option MemberAddr := none
  deriving DecidableEq, Repr

/-- A journal page on flash (R277): the stripes its records name, its packed records, and where its copies lie (module, die, block, page). -/
structure JournalKept where
  seqs : List Nat
  data : Bytes
  copies : List (Nat × Nat × Nat × Nat)
  deriving DecidableEq, Repr

/-- Block information (R366), with the band the block belongs to, its next page, the pe at its last relocations (R375), and whether a loose
block is for journal pages (R367). -/
structure BlockInfo where
  pe : Nat := 0
  state : Nat := 0
  progBand : Nat := 0
  use : Nat := 0
  worstDepth : Nat := 0
  worstBits : Nat := 0
  progHour : Nat := 0
  band : Nat := 0
  nextPage : Nat := 0
  relocs : List Nat := []
  journal : Bool := false
  deriving DecidableEq, Repr

/-- A lost-stripe table entry (R288), with what named its lost blocks: namespace, logical block, and the retained Cairn, or none for the
open map. -/
structure LostStripe where
  pool : Nat
  seq : Nat
  data : Nat
  parity : Nat
  blocks : Nat
  mask : Nat
  time : Nat
  names : List (Nat × Nat × Option Nat) := []
  deriving DecidableEq, Repr

/-- A pool's reshape (R289 to R293). -/
structure Reshape where
  data : Nat
  parity : Nat
  set : List Nat
  position : Nat := 0
  map : Tab Loc := []
  held : Bool := false
  startSeq : Nat := 0
  deriving DecidableEq, Repr

/-- A pool: what its metadata on flash records and what the head keeps of it in service. Blocks are keyed by
(module × 64 + die) × 8192 + block. [DESIGN CHOICE: log 29] -/
structure Pool where
  known : Bool := false
  data : Nat := 0
  parity : Nat := 0
  nextSeq : Nat := 1
  stripes : Tab Stripe := []
  nextIdx : Nat := 0
  journal : List JournalRec := []
  journalAt : Option Nat := none
  journalPages : Nat := 0
  journalKept : List JournalKept := []
  singleCopy : Bool := false
  writesHeld : Bool := false
  band : Option Band := none
  copyBand : Option Band := none
  nextBand : Nat := 1
  copies : Tab CopyJob := []
  nextCopy : Nat := 0
  victims : List Nat := []
  reshape : Option Reshape := none
  blocks : Tab BlockInfo := []
  relocQ : List Nat := []
  wlV : Nat := 25
  wlZone : Nat := 0
  wlActive : Bool := false
  reclaiming : Bool := false
  readOnly : Bool := false
  eol : Bool := false
  spareAtBirth : Nat := 0
  index : Tab IndexEntry := []
  nextEntry : Nat := 0
  kcv : Option Nat := none
  rkcv : Option Nat := none
  bandHours : Tab Nat := []
  tMax : Option Int := none
  hotEntries : Nat := 0
  landHeld : Bool := false
  reshapeHeld : Bool := false
  hostHeld : Bool := false
  dies : Tab (Nat × Nat) := []
  offsets : Tab (Tab Int) := []
  bandProg : Tab Nat := []
  wlOn : Bool := false
  verifies : Nat := 0
  retries : Nat := 0
  deriving DecidableEq, Repr

/-! ### Namespaces, Cairns, Caravans (R296 to R315) -/

/-- An entry of the canonical content image (R301), with the write identity of the version it came from (R181). -/
structure ImageEntry where
  lba : Nat
  kind : Nat
  owner : WriteId
  content : Bytes
  version : WriteId := owner
  deriving DecidableEq, Repr

/-- A Cairn placed and not yet closed, or waiting to be placed: number, position per stream, retained, its kind, the Place Cairn command
behind it with its wait_close, the link sequence its positions went to the peer under, and once placed the Reduce and Seal settings that
the epoch it ends is coded under (R42). `before` holds the positions and the octet counts that a Cairn not yet placed took the place of. -/
structure Placed where
  num : Nat
  pos : Tab Nat
  retain : Bool := false
  timer : Bool := false
  byteCount : Bool := false
  byCommand : Option (NvHdr × Bool) := none
  sentAt : Option Nat := none
  reduce : Bool := false
  sealOn : Bool := false
  before : Tab Nat × Tab (List (Nat × Nat)) := ([], [])
  deriving DecidableEq, Repr

/-- A closed Cairn's record (R163). -/
structure CairnRec where
  digest : Bytes
  generation : Nat
  closeNs : Nat
  flags : Nat
  fwMajor : Nat
  pos : Tab Nat
  deriving DecidableEq, Repr

/-- A Caravan landing in a namespace (R311, R312): the entries of the epoch under way with where their content lies, the epochs whose
end has come, the index the epoch began at, failures in a row, record indexes after which a confirmation is due, CLOSE received. -/
structure Landing where
  qpn : Nat
  srcDevice : Nat
  caravan : Nat
  sealedRecs : Bool
  full : Bool := false
  base : Nat := 0
  end_ : Nat := 0
  open_ : Bool := false
  nextIndex : Nat := 0
  confirmed : Nat := 0
  epoch : Nat := 0
  expected : Nat := 0
  entries : List (ImageEntry × Loc) := []
  digest : Bytes := []
  closedEpochs : List (Nat × Bytes × List (ImageEntry × Loc)) := []
  epochStart : Nat := 0
  failed : Nat := 0
  omitted : Bool := false
  due : List Nat := []
  closing : Bool := false
  deriving DecidableEq, Repr

/-- A map page as it lies on flash (R358): its form, its octets, and where a metadata slot holds it. -/
structure MapPage where
  extent : Bool
  octets : Bytes
  at_ : Nat
  deriving DecidableEq, Repr

/-- A namespace's content and Cairns. `map` names each block's newest visible version (R22, R360); `epoch` lists the versions of writes
not yet under a closed Cairn, in the order they became visible. `pos` are the positions of the last Cairn placed or waiting, `heads` the
highest sequences assigned, `log` the octets of each write of a byte-count stream since its position (R297); `closedMap` is the content
at the latest closed Cairn, `epochOf` and `epochMaps` the entries and places of epochs that a Caravan may still carry. `under` are the map's own
entries of blocks whose newest version is still staged, `pages` the region table with the map pages as last written back, and `retPages`
those that retained Cairns keep (R358, R360, R362). `foreign` marks
a namespace that the other head has written: a block not listed holds what that head put there. [DESIGN CHOICE: log 29] -/
structure Ns where
  map : Tab Loc := []
  image : Tab ImageEntry := []
  closed : Nat := 0
  placedNum : Nat := 0
  placed : List Placed := []
  waiting : List Placed := []
  pos : Tab Nat := []
  heads : Tab Nat := []
  log : Tab (List (Nat × Nat)) := []
  epoch : List EpochBlock := []
  digest : Bytes := List.replicate 32 0
  cairns : Tab CairnRec := []
  retained : List Nat := []
  releasing : List Nat := []
  closedMap : Tab Loc := []
  retMaps : Tab (Tab Loc) := []
  retImages : Tab (Tab ImageEntry) := []
  epochOf : Tab (List ImageEntry) := []
  epochMaps : Tab (Tab Loc) := []
  outside : Bool := false
  foreign : Bool := false
  codeReduce : Bool := false
  codeSeal : Bool := false
  landing : Option Landing := none
  lastLanded : Nat := 0
  epochGen : Nat := 0
  under : Tab Loc := []
  pages : Tab MapPage := []
  retPages : Tab (Tab MapPage) := []
  deriving DecidableEq, Repr

/-- Source state of a replication target (R313, R314) as SNP_CAR_STAT numbers it. -/
inductive CarState where
  | idle | connecting | shipping | waiting | stopped | refused
  deriving DecidableEq, Repr

/-- A replication target at the source (R313, R314): the Caravan under way, the highest confirmed index and the next to send. -/
structure Caravan where
  state : CarState := .idle
  num : Nat := 0
  base : Nat := 0
  end_ : Nat := 0
  full : Bool := false
  err : Nat := 0
  confirmed : Nat := 0
  sent : Nat := 0
  total : Nat := 0
  qpn : Nat := 0
  lastCairn : Nat := 0
  makeFull : Bool := false
  skipLost : Bool := false
  attempts : Nat := 0
  removed : Bool := false
  srcDevice : Nat := 0
  tgt : Option ReplTargetRec := none
  sealOn : Bool := false
  deriving DecidableEq, Repr

/-- Cairns and replication of the head. -/
structure SnpState where
  nss : Tab Ns := []
  cars : Tab Caravan := []
  nextCaravan : Nat := 1
  deriving DecidableEq, Repr

/-! ### Lanes, modules, dies (R316 to R356) -/

/-- What a bridge command is for, so that its response continues the right work: a read of a fetch, a program or verify of a stripe
member, of a rebuilt member or of a journal copy, an erase of a block, or the others by name. -/
inductive CmdUse where
  | fetch (id member : Nat)
  | program (pool stripe member : Nat)
  | rebuilt (pool stripe member : Nat)
  | replay (pool stripe member : Nat)
  | journal (pool module : Nat)
  | option (stage : Nat)
  | erase (pool : Nat)
  | claim
  | selfTest
  | status (tag : Nat)
  | resetDie (tag : Option Nat)
  | recover
  | admin
  deriving DecidableEq, Repr

/-- Whom a fetch of a slot or of a stripe serves: a read, a copy, a rebuild. -/
inductive FetchFor where
  | read (id index : Nat)
  | copy (pool job : Nat)
  | rebuild
  deriving DecidableEq, Repr

/-- A fetch of one member's slot, directly or around it (R23, R24, R280), or of the members a rebuild needs (R282): members still to
answer, members tried in vain, the slot asked for, and whether it waits for a program on its stripe to end (R23). -/
structure Fetch where
  pool : Nat
  stripe : Nat
  member : Nat
  for_ : FetchFor
  direct : Bool
  need : List Nat
  bad : List Nat := []
  slot : Option StripeSlot := none
  waiting : Bool := false
  deriving DecidableEq, Repr

/-- Opcodes of a bridge (R326). -/
inductive BOp where
  | read | program | erase | suspend | resume | status | resetDie | setThresh | setTrim | claim | bridgeStatus | loopback
  deriving DecidableEq, Repr

/-- A command queued at a sequencer or outstanding at a bridge (R325): tag, die, place, purpose; how far a read has climbed (R341)
with the ladder entry that left the fewest unsatisfied checks; whether a verify or a timed-out command is in its second try; whether it was
issued again after a malformed response (R354); whether a
read is a margin read (R343); the range of page data that a read asks for, in KiB (0 for the whole page); the blocks of the further planes
of a multi-plane program with what they serve, in plane order, the data of all planes in `data` (R334). -/
structure BCmd where
  tag : Nat := 0
  op : BOp
  die : Nat
  block : Nat := 0
  page : Nat := 0
  use : CmdUse
  depth : Nat := 0
  again : Bool := false
  bestDepth : Nat := 1
  bestUnsat : Option Nat := none
  margin : Bool := false
  tried : Bool := false
  reissued : Bool := false
  data : Bytes := []
  col : Nat := 0
  kib : Nat := 0
  mates : List (Nat × CmdUse) := []
  deriving DecidableEq, Repr

/-- A die behind a lane (R332 to R352): presence, claim and failure; its record; band, the duty the thermal limit
allows (R395) and channel temperature; commands queued; the
erase suspended, and how often it was; since when the erase runs; whether a program was issued in this suspension; tracked offsets by
group and level (R342), and the offsets last loaded into each threshold slot (R341); how many pairs of die record pages are written (R348);
whether its STATUS was asked for since the start (R353). -/
structure DieState where
  present : Bool := false
  claimed : Bool := false
  failed : Bool := false
  record : Option DieRec := none
  band : Nat := 2
  dutyCap : Nat := 100
  temp : Option Int := none
  queue : List BCmd := []
  susp : Option BCmd := none
  suspCount : Nat := 0
  runSince : Nat := 0
  progInSusp : Bool := false
  starved : Bool := false
  offsets : Tab Int := []
  thr : Tab Bytes := []
  pairs : Nat := 0
  asked : Bool := false
  deriving DecidableEq, Repr

/-- Training states of a lane (R320) after FLX_Ln_STAT.state. -/
inductive LaneState where
  | down | training | active4 | active2 | disabled | forcedDown
  deriving DecidableEq, Repr

/-- A lane and the module behind it (R316 to R324): frame sequence sent and expected, frames not acknowledged, those replayed once, a
gap already reported, command and data credits held, commands that wait for one, the bridge's credit counts last seen, commands at the
bridge, and the module's records.
`up`: it reached Active and has not gone down since (R323). `winding`: since when its sequencer, being reset, lets the commands at the
bridge end before the lane trains again (R353). -/
structure Lane where
  state : LaneState := .down
  up : Bool := false
  module : Nat := 0
  modulePort : Nat := 0
  txFseq : Nat := 0
  rxFseq : Nat := 0
  unacked : List Nat := []
  replayed : List Nat := []
  naked : Bool := false
  cmdCredits : Nat := 0
  dataCredits : Nat := 0
  held : List BCmd := []
  cmdCum : Nat := 0
  dataCum : Nat := 0
  cmds : List BCmd := []
  nextTag : Nat := 0
  moduleRec : Option ModuleRec := none
  dies : Tab DieState := []
  half : Bool := false
  malformed : Bool := false
  winding : Option Nat := none
  noTemp : List Nat := []
  deriving DecidableEq, Repr

/-- The flash side of the head: lanes by number, pools by number, the lost-stripe table, fetches under way, the dies that held a suspended
erase at the last stop (R353), life figure. -/
structure FlashState where
  lanes : Tab Lane := []
  pools : Tab Pool := []
  lost : List LostStripe := []
  fetches : Tab Fetch := []
  nextFetch : Nat := 0
  suspended : List Nat := []
  lifeKnown : Bool := false
  deriving DecidableEq, Repr

end Sys2Proof.Machine
end

