-- ==== Sys2Proof/Machine/StateCore.lean ====
section
/-! DEFINITION. State of the head as a whole: fuses and boot flash (R440), events, counters and trace (R451 to R459), the structural
image (R65 to R78), configuration CRC and interrupts (R426 to R437), power, heat and pins (R401 to R420), and what the device has
sent. -/
namespace Sys2Proof.Machine

/-! ### Fuses and boot flash -/

/-- One-time fuses (R201, R438, R442, R449). [DESIGN CHOICE: log 5] -/
structure Fuses where
  stepping : Nat := 0x10
  serial : Nat := 1
  ownerHash : Option Bytes := none
  kFuse : Option Bytes := none
  minSecurity : Nat := 0
  deriving DecidableEq, Repr

/-- States of a firmware slot in the directory (R456). -/
inductive SlotState where
  | empty | invalid | valid | active | armed
  deriving DecidableEq, Repr

/-- A firmware slot (R440 to R443). -/
structure FwSlot where
  state : SlotState := .empty
  bytes : Bytes := []
  deriving DecidableEq, Repr

/-- State words of an image copy (R66); `cleared` is one that an armed copy lost. -/
inductive CopyState where
  | empty | cleared | staged | armed | active
  deriving DecidableEq, Repr

/-- A structural image copy in boot flash. -/
structure ImgCopy where
  state : CopyState := .empty
  bytes : Bytes := []
  deriving DecidableEq, Repr

/-- What an event records. The manual names events by what they record; their cause numbers and severities are the catalogue's
(R451). [DESIGN CHOICE: log 16] -/
inductive EvKind where
  | reservedEncoding | lockedWrite | badAccess | badAliasWrite | modeHeld | reshapeIdle | nothingStaged | imageRefused | imageDiscarded
  | imageStaged | activated | anchorUnknown | activationWaits | armedCopyCleared | copyInvalid | simCtlEncoding | discardIdle
  | timerCairnIgnored | cfgDrift | reapplyRefused | strobeOverrun | ipclkBad | timeStepped | timeRefLost | timeUnlocked
  | ptpMasterChanged | packetBad | unknownQp | remoteAccess | horizonRefused | psnGap | beyondWindow | duplicatePacket | missFull
  | ucAbandoned | singlePath | netLinkDown | qpError | contextFault | unsupported | windowRevoked | pfcIgnored | controllerReset
  | abortMissed | lookupCollision | unitRetired | unitsBelowFloor | ringFetchError | zeroized | tamper | railAlarm | shareLoaded
  | shareRefused | keysDiffer | budgetReached | overBudget | scDegraded | scWayOut | lineRepaired | slotLost | hbmRowRetired
  | hbmPageRetired | hbmNoSpare | mirrorResent | peerSilent | peerLost | peerBack | linkReset | linkLaneDropped | headNumberClash
  | fenced | unfenced | addressUnplaced | verdictIgnored | takeoverBegan | takeoverDone | transferBegan | transferDone | transferRefused
  | claimTimedOut | dieFaulty | arbiterMessageBad | selfTestPathFailed | stripeLost | stripeAbandoned | lostUnlisted | journalLost | journalSingleCopy
  | writesHeld | rebuildClamp | rebuildUnplaceable | switchedOver | caravanStopped | caravanRefused | caravanRestarted | digestMismatch
  | laneDown | laneHalf | moduleMismatch | moduleDeclaresBad | optionFull | channelTempMissing | dieFailed | grownBad | eraseIncomplete
  | starvedErase | thresholdBound | bridgeTimeout | deepDecoderOut | claimRefused | poolReadOnly | poolEndOfLife | poolSpaceLow | stall
  | watchdogStage1 | watchdogReset | engineReset | engineRetired | loopOverride | bootFallback | recoveryEntered | flashWriteLost
  | fwuRefused | fwuAccepted | trialFailed | trialPassed | settingReset | areaCleared | clearWithoutKey | drainCutShort | drainDiscarded
  | drainUnprotected | drainLimited | l3Refused | overMax | remoteHigh | remoteFault | thermalDrain | thermalLatch | mainRailLost
  | refclkLost | pcieDown | readUnrecovered | tagMismatch | hbmLasting | masterZero | readLasting | verifyLasting | frameLasting
  | packetLasting
  deriving DecidableEq, Repr

/-- An event record (R451): block, what it records, what about, sequence, power cycles, operating seconds, TIME, and whether it was
recorded in ROM or during a Wadi drain. -/
structure EvRec where
  block : Nat
  kind : EvKind
  info : List Nat
  seq : Nat
  head : Bool
  cycles : Nat
  opSeconds : Nat
  timeNs : Nat
  inRom : Bool
  inDrain : Bool
  deriving DecidableEq, Repr

/-- Settings and life data of boot flash (R440), each as last written. -/
structure Settings where
  features : Tab Nat := []
  mgmtAccess : Bool := false
  retiredPages : List Nat := []
  life : Nat := 0
  powerCycles : Nat := 0
  opSeconds : Nat := 0
  format : Nat := 0
  deriving DecidableEq, Repr

/-- Boot flash (R440): firmware slots, image copies, settings, and the event area oldest first. [DESIGN CHOICE: log 5] -/
structure BootFlash where
  fw0 : FwSlot := {}
  fw1 : FwSlot := {}
  copy0 : ImgCopy := {}
  copy1 : ImgCopy := {}
  settings : Settings := {}
  area : List EvRec := []
  areaDropped : Nat := 0
  deriving DecidableEq, Repr

/-! ### Events, counters, trace -/

/-- The event recorder (R452, R453, R457): the AON buffer oldest first, the next sequence number, a clear under way,
a flush that waits for it, the read window. -/
structure EvrState where
  buffer : List EvRec := []
  nextSeq : Nat := 0
  clearing : Bool := false
  flushing : Bool := false
  ready : Bool := false
  window : Option EvRec := none
  deriving DecidableEq, Repr

/-- The 256 event counters (R454): selections (source in bits 10:0, instance in 23:16) and values. -/
structure CntState where
  sel : List Nat := List.replicate 256 0xFF0000
  val : List Nat := List.replicate 256 0
  deriving DecidableEq, Repr

/-- A trace packet (R455). -/
structure TrcPacket where
  timeNs : Nat
  kind : Nat
  block : Nat
  inst : Nat
  data : Nat
  deriving DecidableEq, Repr

/-- The trace buffer (R455, R459); `owed` are the packets dropped since the last one sent; `offered`, the model's own, counts the packets
offered and picks the free values of `Config.traceBusy`. [DESIGN CHOICE: log 126] -/
structure TrcState where
  held : List TrcPacket := []
  stopped : Bool := false
  lost : Nat := 0
  owed : Nat := 0
  offered : Nat := 0
  deriving DecidableEq, Repr

/-- SYS_INT_STAT (R426): sequence number and, for each set bit, its set number. -/
structure IntState where
  seq : Nat := 0
  set : Tab Nat := []
  deriving DecidableEq, Repr

/-- The local controller's MSI-X vectors (R166, PCIe through R8): the dwords of the table that differ from their reset value, which is 1 (masked)
for a vector's control dword and 0 for the others, and the pending-bit array. -/
structure MsixState where
  table : Tab Nat := []
  pending : List Nat := []
  deriving DecidableEq, Repr

/-! ### Structural image -/

/-- The image side of the head (R65 to R78). `sub` is a submission under validation with the octets supplied, where the management
port supplied it; `own` a validated one that waits for the peer's digest; `staged` the staged image, `live` where no load-only record
changes, `onFlash` once its copy is written, `waiting` after an activate pulse, `armed` once its copy is armed for reset; `peer` the
peer's last digest; `inForce` images that some namespace's epoch is still coded under; `full`
the loaded image and the one before it, while elements that it adds wait for the peer (R74); the management port's buffers; `offered` the
peer's active image as it has come over the link, newer than this head's (R74). -/
structure SimState where
  active : Option Image := none
  activeCopy : Nat := 0
  sub : Option (Bytes × Option Nat) := none
  own : Option Image := none
  staged : Option Image := none
  live : Bool := false
  onFlash : Bool := false
  waiting : Bool := false
  armed : Bool := false
  peer : Option (Nat × Bytes × Bool) := none
  inForce : List Image := []
  full : Option (Image × Image) := none
  mgmtImage : Bytes := []
  mgmtHigh : Nat := 0
  mgmtFw : Bytes := []
  offered : Option Bytes := none
  deriving DecidableEq, Repr

/-- Firmware update under way (R443): the chunk being written (whether of the structural image, its octets), the octets of the image
copy received so far, and whether a structural image came whole; `slot` the firmware slot being written. -/
structure FwuState where
  chunk : Option (Bool × Bytes) := none
  slot : Option Nat := none
  imgBytes : Bytes := []
  imgDone : Bool := false
  deriving DecidableEq, Repr

/-- What the mode word keeps beside its registers (R38, R44, R46, R52): the cause each held mode was held for, whether Capture is
still leaving, whether a Replicate exit waits for Caravan boundaries, the modes without progress and for how many seconds. -/
structure ModeState where
  held : Tab Nat := []
  idle : Tab Nat := []
  deriving DecidableEq, Repr

/-! ### Configuration CRC, management port -/

/-- The configuration CRC (R432 to R437): references by block number, when each touched block was first touched (AON ns), pulses
that the next sweep serves, blocks written during it, blocks in drift. -/
structure CfgState where
  refs : List Nat := List.replicate 23 0
  touchedAt : Tab Nat := []
  commit : Bool := false
  acceptAll : Bool := false
  deriving DecidableEq, Repr

/-- A reply of the management port (R450). -/
structure MgmtReply where
  typ : Nat
  seq : Nat
  status : Nat
  payload : Bytes
  deriving DecidableEq, Repr

/-! ### Power, heat, pins -/

/-- What the head is doing as a whole: held in reset, in ROM recovery, latched in ROM, in service, parked after a drain, in L3. -/
inductive Run where
  | off | rom | latched | up | parked | l3
  deriving DecidableEq, Repr

/-- What the hold-up drain left on flash (R409, R411): whether it sealed and whether its metadata is whole, the slot numbers it wrote,
whether Mirror was in effect, the pools of a takeover it interrupted, its events, duration and octets, and the pending index entries
written with the journal (R185). -/
structure DrainRec where
  entries : List Bytes := []
  sealedOk : Bool
  metadata : Bool
  slots : List Nat
  mirror : Bool
  takeover : Option Nat
  events : List EvRec
  durationNs : Nat
  octets : Nat
  deriving DecidableEq, Repr

/-- Power and heat (R391 to R420, R471 to R473): the AON timebase, a restart that is owed once a release or a share load ends (cause as
RST_STAT.last_reset) and whether it is a stage 2 that a wind-down held (R393), the drain on flash, drain and thermal conditions, how much of
the floors the units of each kind still serve (R173, R389), whether Tj has been sampled since power-on, the refresh limits
held on the two stacks (R395), lost clocks, the PCIe link, and when each engine was last reset. -/
structure PowState where
  run : Run := .off
  aon : Nat := 0
  resetOwed : Option Nat := none
  stage2Held : Bool := false
  drain : Option DrainRec := none
  drainGate : Bool := false
  thermDrain : Bool := false
  served : Tab Nat := []
  latch : Bool := false
  tjSeen : Bool := false
  refresh : List Nat := [0, 0]
  clocksLost : List Nat := []
  pcieUp : Bool := true
  engineResets : Tab Nat := []
  fsOut : List Nat := []
  deriving DecidableEq, Repr

/-- Input pins as last seen, and output pins the device drives beside READY and TRIG (R467). -/
structure Pins where
  headSel : Bool := false
  pwrFailN : Bool := true
  holdupOk : Bool := true
  fenceN : Bool := true
  recoveryN : Bool := true
  tamper : List Bool := [true, true, true, true]
  ready : List Bool := List.replicate 8 false
  arbHb : Bool := false
  thermShdnLow : Bool := false
  deriving DecidableEq, Repr

/-! ### What the device sends -/

/-- A Pengenko packet sent (R245). -/
inductive PeerOut where
  | heartbeat (h : Heartbeat)
  | nak (lseq : Nat)
  | confirm (upTo : Nat)
  | digest (generation : Nat) (d : Bytes) (ok : Bool)
  | echo (number : Nat) (payload : Bytes)
  | slot (s : MirrorSlot)
  | journalOpen (r : OpenRec)
  | journalClose (pool seq : Nat)
  | delta (d : MapDelta)
  | qp (q : QpMirror)
  | window (w : WinMirror)
  | cairn (c : CairnMirror)
  | holders (l : List HolderMirror)
  | retained (l : List (Nat × Nat))
  | caravan (c : CaravanMirror)
  | reshape (pool : Nat) (mark : ReshapeMark)
  | lastMatched (ch num strobeNs : Nat)
  | fwu (f : FwuPeer)
  | image (generation : Nat) (octets : Bytes)
  | replay (lseq : Nat)
  | linkReset
  deriving DecidableEq, Repr

/-- What leaves the device, in the order it leaves. [DESIGN CHOICE: log 3] -/
inductive Output where
  | ack (qpn psn msn : Nat)
  | nak (qpn psn syndrome : Nat)
  | sack (qpn destQp : Nat) (payload : Bytes)
  | credit (qpn destQp : Nat) (payload : Bytes)
  | cnp (qpn : Nat)
  | readData (qpn psn : Nat) (data : Bytes)
  | readReq (qpn addr rkey len : Nat)
  | send (qpn psn : Nat) (data : Bytes)
  | resend (qpn psn : Nat)
  | cmRej (peer : Bytes) (reason : Nat) (code : Nat)
  | cmRep (qpn : Nat) (priv : Bytes)
  | cmRtu (qpn : Nat)
  | cmReq (qpn : Nat) (peer : Bytes) (priv : Bytes)
  | cmDreq (qpn : Nat)
  | cmDrep (qpn : Nat)
  | pfc (port prio : Nat) (xoff : Bool)
  | tcpRst (port : SubPort)
  | announce (port sub : Nat) (addr : Bytes)
  | peer (lseq cseq : Nat) (p : PeerOut) (octets : Option Bytes)
  | arb (m : ArbMsg) (octets : Bytes)
  | bridge (lane tag : Nat) (op : BOp) (die block page : Nat) (desc data : Bytes)
  | laneAck (lane fseq : Nat) (nak : Bool)
  | laneReplay (lane fseq : Nat)
  | laneFiller (lane : Nat)
  | laneTrain (lane : Nat) (flit : Bytes)
  | completion (ctrl sq cid status dw0 dw1 : Nat)
  | hostData (ctrl sq cid : Nat) (buf : NvBuf) (data : Bytes)
  | msix (vector : Nat)
  | jobDone (cipher : Bool) (ring addr : Nat) (entry : Bytes)
  | jobData (cipher : Bool) (ring tag addr : Nat) (data : Bytes)
  | mgmt (dst : Nat) (r : MgmtReply)
  | smbus (data : Bytes)
  | trig (i startNs widthNs : Nat) (high : Bool)
  | confirmRecord (qpn caravan index : Nat) (refused : Option Nat)
  | trace (p : TrcPacket)
  | flushCompletion (qpn cid : Nat)
  deriving DecidableEq, Repr

/-- A packet that waits because the link partner pauses its priority (R130): where it goes out, its priority, its payload octets. -/
structure TxHeld where
  port : SubPort
  prio : Nat
  payload : Nat
  packet : Output
  deriving DecidableEq, Repr

end Sys2Proof.Machine
end

