-- ==== Sys2Proof/Config.lean ====
section
/-! DEFINITION. What the manual leaves open: constants without a body, so that nothing can be proved of a value it does not state.
Each has an entry in the assumption log. -/
namespace Sys2Proof.Config
open Sys2Proof.Machine

/-- A value the manual leaves open, one per use: the state's counter `Dev.free` numbers the uses. [DESIGN CHOICE: log 4] -/
opaque freeNat : Nat → Nat
/-- The cause number (bits 9:0 of the code) the catalogue gives an event (R451). [DESIGN CHOICE: log 16] -/
opaque eventCause : EvKind → BitVec 10
/-- The severity the catalogue gives an event (R451). [DESIGN CHOICE: log 16] -/
opaque eventSeverity : EvKind → Fin 5
/-- The four arguments the catalogue defines for an event, of what it is about (R451). [DESIGN CHOICE: log 16] -/
opaque eventArgs : EvKind → List Nat → List (BitVec 64)
/-- The name the catalogue gives a code (R451), 48 octets. [DESIGN CHOICE: log 16] -/
opaque catalogueName : Nat → List (BitVec 8)
/-- Whether the catalogue defines a code, and its severity (R451). [DESIGN CHOICE: log 16] -/
opaque catalogueEntry : Nat → Option (Fin 5)
/-- The data word of a trace packet of a kind (R455: by kind). [DESIGN CHOICE: log 17] -/
opaque traceData : Nat → List Nat → BitVec 32
/-- Whether the n-th trace packet finds the port or the buffer busy (R455). [DESIGN CHOICE: log 126] -/
opaque traceBusy : Nat → Bool
/-- The public key of the Mulukel firmware signature, whose hash ROM holds (R442). [DESIGN CHOICE: log 18] -/
opaque firmwareKey : Nat × Nat
/-- Major version that code in ROM runs under where no firmware has booted (R61 step 8 in recovery). [DESIGN CHOICE: log 18] -/
opaque romMajor : Nat
/-- The codec version of a firmware major version (R172). [DESIGN CHOICE: log 18] -/
opaque codecVersion : Nat → BitVec 8
/-- Whether a firmware major version knows a codec version other than its own (R175). [DESIGN CHOICE: log 18] -/
opaque codecKnown : Nat → Nat → Bool
/-- The DEFLATE blocks a codec unit chooses for an input, by codec version and effort (R170 to R172, R190): any coding the format
allows. [DESIGN CHOICE: log 18] -/
opaque deflate : Nat → Nat → List (BitVec 8) → List (BitVec 8)
/-- The DEFLATE block a codec unit chooses for a piece of a stream (R190): of codec version, effort, the stream's last 32 KiB, the piece,
and whether it is the stream's last; bits in the order they leave. [DESIGN CHOICE: log 18] -/
opaque deflateBits : Nat → Nat → List (BitVec 8) → List (BitVec 8) → Bool → List Bool
/-- The 160 parity octets that the device's own LDPC code gives a codeword's data and footer octets (R331). [DESIGN CHOICE: log 124] -/
opaque ldpcParity : List (BitVec 8) → List (BitVec 8)
/-- Whether a setting's own format version differs between two formats of the settings area (R446): by old format, new format and
setting. [DESIGN CHOICE: log 19] -/
opaque settingChanged : Nat → Nat → Nat → Bool
/-- What the zlib and gzip formats leave to a compressor in their headers (FLEVEL; MTIME, XFL and OS). [DESIGN CHOICE: log 20] -/
opaque wrapperInfo : Nat → Nat

/-- PCI vendor and IEEE identifiers that Identify carries (the manual gives none). [PRESUMED: log 21] -/
opaque vendorIds : Nat

/-- Octets a port counts for a packet that carries so much payload (R133 does not say which headers rx_bytes and tx_bytes take in). [DESIGN CHOICE: log 22] -/
opaque frameOctets : Nat → Nat

/-- The priority at which a queue pair's packets leave (the manual gives the priority of received packets alone, R101). [DESIGN CHOICE: log 118] -/
opaque txPriority : Nat → Fin 8

end Sys2Proof.Config
end

