-- ==== Sys2Proof/Machine/Hash.lean ====
section
/-! DEFINITION. The hash and check functions the spec names: CRC-32C (R24, R57, R173), SHA-256 (R176) and SHA-384 (R57). -/
namespace Sys2Proof.Machine

/-- One bit step of the reflected CRC-32C (polynomial 0x1EDC_6F41, reflected 0x82F6_3B78). -/
def crcBit (c : Nat) : Nat := if c % 2 = 1 then (c / 2) ^^^ 0x82F63B78 else c / 2

/-- One octet through the CRC register. -/
def crcByte (c : Nat) (b : Byte) : Nat :=
  crcBit (crcBit (crcBit (crcBit (crcBit (crcBit (crcBit (crcBit (c ^^^ b.toNat))))))))

/-- CRC-32C continued from a register value. -/
def crcRun (c : Nat) (bs : Bytes) : Nat := bs.foldl crcByte c

/-- CRC-32C of octets: initial value and final exclusive or of all ones; of no octets it is 0 (R14). -/
def crc32c (bs : Bytes) : Nat := crcRun 0xFFFFFFFF bs ^^^ 0xFFFFFFFF

/-- Round constants of SHA-256. -/
def sha256K : List Nat :=
  [0x428a2f98, 0x71374491, 0xb5c0fbcf, 0xe9b5dba5, 0x3956c25b, 0x59f111f1, 0x923f82a4, 0xab1c5ed5] ++
  [0xd807aa98, 0x12835b01, 0x243185be, 0x550c7dc3, 0x72be5d74, 0x80deb1fe, 0x9bdc06a7, 0xc19bf174] ++
  [0xe49b69c1, 0xefbe4786, 0x0fc19dc6, 0x240ca1cc, 0x2de92c6f, 0x4a7484aa, 0x5cb0a9dc, 0x76f988da] ++
  [0x983e5152, 0xa831c66d, 0xb00327c8, 0xbf597fc7, 0xc6e00bf3, 0xd5a79147, 0x06ca6351, 0x14292967] ++
  [0x27b70a85, 0x2e1b2138, 0x4d2c6dfc, 0x53380d13, 0x650a7354, 0x766a0abb, 0x81c2c92e, 0x92722c85] ++
  [0xa2bfe8a1, 0xa81a664b, 0xc24b8b70, 0xc76c51a3, 0xd192e819, 0xd6990624, 0xf40e3585, 0x106aa070] ++
  [0x19a4c116, 0x1e376c08, 0x2748774c, 0x34b0bcb5, 0x391c0cb3, 0x4ed8aa4a, 0x5b9cca4f, 0x682e6ff3] ++
  [0x748f82ee, 0x78a5636f, 0x84c87814, 0x8cc70208, 0x90befffa, 0xa4506ceb, 0xbef9a3f7, 0xc67178f2]

/-- Round constants of SHA-384. -/
def sha512K : List Nat :=
  [0x428a2f98d728ae22, 0x7137449123ef65cd, 0xb5c0fbcfec4d3b2f, 0xe9b5dba58189dbbc] ++
  [0x3956c25bf348b538, 0x59f111f1b605d019, 0x923f82a4af194f9b, 0xab1c5ed5da6d8118] ++
  [0xd807aa98a3030242, 0x12835b0145706fbe, 0x243185be4ee4b28c, 0x550c7dc3d5ffb4e2] ++
  [0x72be5d74f27b896f, 0x80deb1fe3b1696b1, 0x9bdc06a725c71235, 0xc19bf174cf692694] ++
  [0xe49b69c19ef14ad2, 0xefbe4786384f25e3, 0x0fc19dc68b8cd5b5, 0x240ca1cc77ac9c65] ++
  [0x2de92c6f592b0275, 0x4a7484aa6ea6e483, 0x5cb0a9dcbd41fbd4, 0x76f988da831153b5] ++
  [0x983e5152ee66dfab, 0xa831c66d2db43210, 0xb00327c898fb213f, 0xbf597fc7beef0ee4] ++
  [0xc6e00bf33da88fc2, 0xd5a79147930aa725, 0x06ca6351e003826f, 0x142929670a0e6e70] ++
  [0x27b70a8546d22ffc, 0x2e1b21385c26c926, 0x4d2c6dfc5ac42aed, 0x53380d139d95b3df] ++
  [0x650a73548baf63de, 0x766a0abb3c77b2a8, 0x81c2c92e47edaee6, 0x92722c851482353b] ++
  [0xa2bfe8a14cf10364, 0xa81a664bbc423001, 0xc24b8b70d0f89791, 0xc76c51a30654be30] ++
  [0xd192e819d6ef5218, 0xd69906245565a910, 0xf40e35855771202a, 0x106aa07032bbd1b8] ++
  [0x19a4c116b8d2d0c8, 0x1e376c085141ab53, 0x2748774cdf8eeb99, 0x34b0bcb5e19b48a8] ++
  [0x391c0cb3c5c95a63, 0x4ed8aa4ae3418acb, 0x5b9cca4f7763e373, 0x682e6ff3d6b2b8a3] ++
  [0x748f82ee5defb2fc, 0x78a5636f43172f60, 0x84c87814a1f0ab72, 0x8cc702081a6439ec] ++
  [0x90befffa23631e28, 0xa4506cebde82bde9, 0xbef9a3f7b2c67915, 0xc67178f2e372532b] ++
  [0xca273eceea26619c, 0xd186b8c721c0c207, 0xeada7dd6cde0eb1e, 0xf57d4f7fee6ed178] ++
  [0x06f067aa72176fba, 0x0a637dc5a2c898a6, 0x113f9804bef90dae, 0x1b710b35131c471b] ++
  [0x28db77f523047d84, 0x32caab7b40c72493, 0x3c9ebe0a15c9bebc, 0x431d67c49c100d4c] ++
  [0x4cc5d4becb3e42b6, 0x597f299cfc657e2a, 0x5fcb6fab3ad6faec, 0x6c44198c4a475817]

/-- Initial value of SHA-256. -/
def sha256H : List Nat :=
  [0x6a09e667, 0xbb67ae85, 0x3c6ef372, 0xa54ff53a, 0x510e527f, 0x9b05688c, 0x1f83d9ab, 0x5be0cd19]

/-- Initial value of SHA-384. -/
def sha384H : List Nat :=
  [0xcbbb9d5dc1059ed8, 0x629a292a367cd507, 0x9159015a3070dd17, 0x152fecd8f70e5939] ++
  [0x67332667ffc00b31, 0x8eb44a8768581511, 0xdb0c2e0d64f98fa7, 0x47b5481dbefa4fa4]

/-- What tells SHA-256 and SHA-384 apart: word width, block octets, rotations, rounds. -/
structure ShaKind where
  w : Nat
  blockBytes : Nat
  lenBytes : Nat
  s0 : Nat × Nat × Nat
  s1 : Nat × Nat × Nat
  b0 : Nat × Nat × Nat
  b1 : Nat × Nat × Nat
  k : List Nat
  h : List Nat

/-- SHA-256. -/
def sha256Kind : ShaKind :=
  { w := 32, blockBytes := 64, lenBytes := 8, s0 := (7, 18, 3), s1 := (17, 19, 10), b0 := (2, 13, 22), b1 := (6, 11, 25),
    k := sha256K, h := sha256H }

/-- SHA-384 (the SHA-512 rounds with its own initial value). -/
def sha384Kind : ShaKind :=
  { w := 64, blockBytes := 128, lenBytes := 16, s0 := (1, 8, 7), s1 := (19, 61, 6), b0 := (28, 34, 39), b1 := (14, 18, 41),
    k := sha512K, h := sha384H }

/-- Rotate a `w`-bit number right. -/
def rotr (w n k : Nat) : Nat := ((n >>> k) ||| (n <<< (w - k))) % 2 ^ w

/-- The small sigma functions: two rotations and a shift. -/
def shaSmall (w : Nat) (p : Nat × Nat × Nat) (x : Nat) : Nat := rotr w x p.1 ^^^ rotr w x p.2.1 ^^^ (x >>> p.2.2)

/-- The big sigma functions: three rotations. -/
def shaBig (w : Nat) (p : Nat × Nat × Nat) (x : Nat) : Nat := rotr w x p.1 ^^^ rotr w x p.2.1 ^^^ rotr w x p.2.2

/-- Extend the message schedule (newest word first) by `n` words. -/
def shaSchedule (q : ShaKind) : Nat → List Nat → List Nat
  | 0, ws => ws
  | n + 1, ws =>
    let x := (shaSmall q.w q.s1 (ws.getD 1 0) + ws.getD 6 0 + shaSmall q.w q.s0 (ws.getD 14 0) + ws.getD 15 0) % 2 ^ q.w
    shaSchedule q n (x :: ws)

/-- The eight working variables. -/
structure ShaVars where
  a : Nat
  b : Nat
  c : Nat
  d : Nat
  e : Nat
  f : Nat
  g : Nat
  h : Nat

/-- One round on a (schedule word, constant) pair. -/
def shaRound (q : ShaKind) (v : ShaVars) (wk : Nat × Nat) : ShaVars :=
  let m := 2 ^ q.w
  let ch := (v.e &&& v.f) ^^^ ((m - 1 - v.e) &&& v.g)
  let t1 := (v.h + shaBig q.w q.b1 v.e + ch + wk.2 + wk.1) % m
  let maj := (v.a &&& v.b) ^^^ (v.a &&& v.c) ^^^ (v.b &&& v.c)
  let t2 := (shaBig q.w q.b0 v.a + maj) % m
  { a := (t1 + t2) % m, b := v.a, c := v.b, d := v.c, e := (v.d + t1) % m, f := v.e, g := v.f, h := v.g }

/-- One block into the chaining value. -/
def shaBlock (q : ShaKind) (h : List Nat) (blk : Bytes) : List Nat :=
  let w0 := (chunks (q.w / 8) blk).map beNat
  let ws := (shaSchedule q (q.k.length - 16) w0.reverse).reverse
  let v0 : ShaVars := ⟨h.getD 0 0, h.getD 1 0, h.getD 2 0, h.getD 3 0, h.getD 4 0, h.getD 5 0, h.getD 6 0, h.getD 7 0⟩
  let v := (ws.zip q.k).foldl (shaRound q) v0
  List.zipWith (fun x y => (x + y) % 2 ^ q.w) h [v.a, v.b, v.c, v.d, v.e, v.f, v.g, v.h]

/-- The padded message. -/
def shaPad (q : ShaKind) (bs : Bytes) : Bytes :=
  let n := bs.length + 1 + q.lenBytes
  bs ++ [b8 0x80] ++ zeros (roundUp n q.blockBytes - n) ++ beBytes q.lenBytes (8 * bs.length)

/-- The chaining value after all blocks, as octets. -/
def shaAll (q : ShaKind) (bs : Bytes) : Bytes :=
  (((chunks q.blockBytes (shaPad q bs)).foldl (shaBlock q) q.h).map (beBytes (q.w / 8))).flatten

/-- SHA-256: 32 octets. -/
def sha256 (bs : Bytes) : Bytes := shaAll sha256Kind bs

/-- SHA-384: 48 octets. -/
def sha384 (bs : Bytes) : Bytes := (shaAll sha384Kind bs).take 48

end Sys2Proof.Machine
end

