-- ==== Sys2Proof/Machine/Ecdsa.lean ====
section
/-! DEFINITION. Verification of an ECDSA signature on curve P-384 (FIPS 186-5), as R57 and steps 5 and 6 of R61 use it. -/
namespace Sys2Proof.Machine

/-- The field prime of P-384. -/
def p384p : Nat := 2 ^ 384 - 2 ^ 128 - 2 ^ 96 + 2 ^ 32 - 1
/-- The group order of P-384. -/
def p384n : Nat := 0xffffffffffffffffffffffffffffffffffffffffffffffffc7634d81f4372ddf581a0db248b0a77aecec196accc52973
/-- The curve's constant term. -/
def p384b : Nat := 0xb3312fa7e23ee7e4988e056be3f82d19181d9c6efe8141120314088f5013875ac656398d8a2ed19d2a85c8edd3ec2aef
/-- The base point's x. -/
def p384gx : Nat := 0xaa87ca22be8b05378eb1c71ef320ad746e1d3b628ba79b9859f741e082542a385502f25dbf55296c3a545e3872760ab7
/-- The base point's y. -/
def p384gy : Nat := 0x3617de4a96262c6f5d9e98bf9292dc29f8f41dbd289a147ce9da3113b5f0b8c00a60b1ce1d7e819d7a431d7c90ea0e5f

/-- Square-and-multiply, the exponent's bits from the `fuel`-th down. -/
def powMod (m b e : Nat) : Nat → Nat
  | 0 => 1 % m
  | f + 1 =>
    let r := powMod m b e f
    r * r % m * (if tb e (e.log2 - f) then b else 1) % m

/-- `b ^ e mod m` for a non-zero exponent. -/
def modPow (m b e : Nat) : Nat := powMod m b e (e.log2 + 1)

/-- Subtraction modulo `m` of residues. -/
def subMod (m a b : Nat) : Nat := (a + m - b % m) % m

/-- A point: none is the point at infinity. -/
abbrev EcPoint := Option (Nat × Nat)

/-- Whether coordinates below the prime lie on the curve. -/
def ecOnCurve (x y : Nat) : Bool :=
  decide (x < p384p) && decide (y < p384p) &&
    (y * y % p384p == (subMod p384p (x * x % p384p * x) (3 * x) + p384b) % p384p)

/-- The chord or tangent sum with a given slope. -/
def ecWithSlope (l x1 y1 x2 : Nat) : EcPoint :=
  let x := subMod p384p (subMod p384p (l * l) x1) x2
  some (x, subMod p384p (l * subMod p384p x1 x) y1)

/-- Point addition. -/
def ecAdd : EcPoint → EcPoint → EcPoint
  | none, q => q
  | p, none => p
  | some (x1, y1), some (x2, y2) =>
    if x1 = x2 then
      if (y1 + y2) % p384p = 0 then none
      else ecWithSlope (subMod p384p (3 * x1 * x1) 3 * modPow p384p (2 * y1) (p384p - 2) % p384p) x1 y1 x2
    else ecWithSlope (subMod p384p y2 y1 * modPow p384p (subMod p384p x2 x1) (p384p - 2) % p384p) x1 y1 x2

/-- Double-and-add over the scalar's bits from the `fuel`-th down. -/
def ecMulFuel (k : Nat) (q : EcPoint) : Nat → EcPoint
  | 0 => none
  | f + 1 =>
    let r := ecMulFuel k q f
    let d := ecAdd r r
    if tb k (383 - f) then ecAdd d q else d

/-- Scalar multiplication. -/
def ecMul (k : Nat) (q : EcPoint) : EcPoint := ecMulFuel k q 384

/-- Whether (r, s) is a signature of a 48-octet digest under public point (x, y); r and s from 1 to n − 1 (R61 step 6). -/
def ecdsaVerify (x y r s : Nat) (digest : Bytes) : Bool :=
  decide (1 ≤ r) && decide (r < p384n) && decide (1 ≤ s) && decide (s < p384n) &&
    (let w := modPow p384n s (p384n - 2)
     let u1 := beNat digest * w % p384n
     let u2 := r * w % p384n
     match ecAdd (ecMul u1 (some (p384gx, p384gy))) (ecMul u2 (some (x, y))) with
     | none => false
     | some (px, _) => px % p384n == r)

end Sys2Proof.Machine
end

