-- ==== Sys2Proof/Machine/ImageLayout.lean ====
section
/-! DEFINITION. The record layouts of the structural image (R58 to R60) as data, and the reading of records from octets. -/
namespace Sys2Proof.Machine

/-- One field of a layout: offset, size, the bits that must be 0 (R61 step 14) and the closed ranges its value lies in (step 15;
an empty list means any value). -/
structure ImgField where
  off : Nat
  size : Nat
  rsv : Nat := 0
  ranges : List (Nat × Nat) := []
  mult : Nat := 1
  deriving DecidableEq, Repr

/-- The layout of one record type: fixed size, entry stride, where its count stands, its fields, its entry's fields, its key's
fields, how many records an image may hold, and whether it is load-only (R58). -/
structure ImgLayout where
  typ : Nat
  size : Nat
  stride : Nat := 0
  countAt : Nat × Nat := (0, 0)
  fields : List ImgField := []
  entry : List ImgField := []
  key : List (Nat × Nat) := []
  atMost : Nat := 1
  loadOnly : Bool := false
  deriving DecidableEq, Repr

/-- Layout of OWNER_KEY (R60). -/
def layOwnerKey : ImgLayout :=
  { typ := 0x0001, size := 96, atMost := 1, loadOnly := true,
    fields := [⟨0, 48, 0x0, [], 1⟩, ⟨48, 48, 0x0, [], 1⟩] }

/-- Layout of INITIAL_MODE (R60). -/
def layInitialMode : ImgLayout :=
  { typ := 0x0002, size := 4, atMost := 1, loadOnly := true,
    fields := [⟨0, 1, 0x50, [], 1⟩, ⟨1, 3, 0xffffff, [], 1⟩] }

/-- Layout of FLOORS (R60). -/
def layFloors : ImgLayout :=
  { typ := 0x0003, size := 4, atMost := 1, loadOnly := false,
    fields := [⟨0, 1, 0x0, [(5, 50)], 1⟩, ⟨1, 1, 0xff, [], 1⟩, ⟨2, 2, 0x0, [(5, 200)], 1⟩] }

/-- Layout of LANE_MAP (R60). -/
def layLaneMap : ImgLayout :=
  { typ := 0x0010, size := 4, atMost := 2, loadOnly := true, stride := 4, countAt := (1, 1), key := [(0, 1)],
    fields := [⟨0, 1, 0x0, [(0, 1)], 1⟩, ⟨1, 1, 0x0, [(0, 64)], 1⟩, ⟨2, 2, 0xffff, [], 1⟩],
    entry := [⟨0, 1, 0x0, [(0, 63)], 1⟩, ⟨1, 1, 0x0, [(0, 63)], 1⟩, ⟨2, 1, 0x0, [(0, 1)], 1⟩, ⟨3, 1, 0xfe, [], 1⟩] }

/-- Layout of POOL (R60). -/
def layPool : ImgLayout :=
  { typ := 0x0011, size := 12, atMost := 16, loadOnly := true, stride := 2, countAt := (8, 2), key := [(0, 1)],
    fields := [⟨0, 1, 0x0, [(0, 15)], 1⟩, ⟨1, 1, 0x0, [(1, 4)], 1⟩, ⟨2, 1, 0x0, [(4, 32)], 1⟩, ⟨3, 1, 0x0, [(1, 3)], 1⟩, ⟨4, 1, 0x0, [(16, 16), (32, 32)], 1⟩, ⟨5, 1, 0x0, [(0, 1)], 1⟩, ⟨6, 1, 0x0, [(2, 20)], 1⟩, ⟨7, 1, 0x0, [(0, 1)], 1⟩, ⟨8, 2, 0x0, [(0, 4096)], 1⟩, ⟨10, 2, 0xffff, [], 1⟩],
    entry := [⟨0, 2, 0x0, (List.range 64).map (fun d => (256 * d, 256 * d + 63)), 1⟩] }

/-- Layout of TARGET_GEOMETRY (R60). -/
def layTargetGeometry : ImgLayout :=
  { typ := 0x0012, size := 4, atMost := 16, loadOnly := false, key := [(0, 1)],
    fields := [⟨0, 1, 0x0, [(0, 15)], 1⟩, ⟨1, 1, 0x0, [(4, 32)], 1⟩, ⟨2, 1, 0x0, [(1, 3)], 1⟩, ⟨3, 1, 0xff, [], 1⟩] }

/-- Layout of NAMESPACE (R60). -/
def layNamespace : ImgLayout :=
  { typ := 0x0020, size := 16, atMost := 4096, loadOnly := false, key := [(0, 2)],
    fields := [⟨0, 2, 0x0, [(1, 4096)], 1⟩, ⟨2, 1, 0x0, [(0, 15)], 1⟩, ⟨3, 1, 0xf0, [], 1⟩, ⟨4, 2, 0x0, [(0, 256)], 1⟩, ⟨6, 2, 0xffff, [], 1⟩, ⟨8, 8, 0x0, [], 1⟩] }

/-- Layout of STREAM (R60). A number outside a reference field's own range, here an nsid above 4,096, fails step 15; one in range that names
nothing fails step 16. [DESIGN CHOICE: log 114] -/
def layStream : ImgLayout :=
  { typ := 0x0021, size := 20, atMost := 16384, loadOnly := false, key := [(0, 2)],
    fields := [⟨0, 2, 0x0, [], 1⟩, ⟨2, 2, 0x0, [(1, 4096)], 1⟩, ⟨4, 1, 0xfe, [], 1⟩, ⟨5, 1, 0x0, [(0, 63), (255, 255)], 1⟩, ⟨6, 2, 0xffff, [], 1⟩, ⟨8, 8, 0x0, [(0, 0x10000000000)], 4096⟩, ⟨16, 4, 0x0, [(0, 3600000)], 1⟩] }

/-- Layout of WINDOW (R60). -/
def layWindow : ImgLayout :=
  { typ := 0x0022, size := 32, atMost := 16384, loadOnly := false, key := [(0, 2)],
    fields := [⟨0, 2, 0x0, [(0, 16383)], 1⟩, ⟨2, 2, 0x0, [(1, 4096)], 1⟩, ⟨4, 2, 0x0, [], 1⟩, ⟨6, 1, 0x0, [(0, 7), (255, 255)], 1⟩, ⟨7, 1, 0xfc, [], 1⟩, ⟨8, 8, 0x0, [], 1⟩, ⟨16, 8, 0x0, [], 4096⟩, ⟨24, 4, 0x0, [], 1⟩, ⟨28, 4, 0xffffffff, [], 1⟩] }

/-- Layout of INSTR_CHANNEL (R60). -/
def layInstrChannel : ImgLayout :=
  { typ := 0x0023, size := 16, atMost := 16, loadOnly := false, key := [(0, 1), (1, 1)],
    fields := [⟨0, 1, 0x0, [(0, 1)], 1⟩, ⟨1, 1, 0x0, [(0, 7)], 1⟩, ⟨2, 1, 0xfc, [], 1⟩, ⟨3, 1, 0xff, [], 1⟩, ⟨4, 2, 0x0, [], 1⟩, ⟨6, 2, 0x0, [(0, 16383)], 1⟩, ⟨8, 4, 0x0, [(1, 4294967295)], 1⟩, ⟨12, 4, 0x0, [(1, 10000000)], 1⟩] }

/-- Layout of STAGE_GRAPH (R60). -/
def layStageGraph : ImgLayout :=
  { typ := 0x0030, size := 8, atMost := 64, loadOnly := false, stride := 4, countAt := (1, 1), key := [(0, 1)],
    fields := [⟨0, 1, 0x0, [(0, 63)], 1⟩, ⟨1, 1, 0x0, [(0, 3)], 1⟩, ⟨2, 2, 0xffff, [], 1⟩, ⟨4, 4, 0x0, [], 1⟩],
    entry := [⟨0, 1, 0x0, [(1, 3)], 1⟩, ⟨1, 1, 0x0, [(0, 15)], 1⟩, ⟨2, 2, 0x0, [(0, 3)], 1⟩] }

/-- Layout of UNIT_ASSIGN (R60). -/
def layUnitAssign : ImgLayout :=
  { typ := 0x0031, size := 4, atMost := 2, loadOnly := true, stride := 4, countAt := (1, 1), key := [(0, 1)],
    fields := [⟨0, 1, 0x0, [(0, 1)], 1⟩, ⟨1, 1, 0x0, [(0, 64)], 1⟩, ⟨2, 2, 0xffff, [], 1⟩],
    entry := [⟨0, 1, 0x0, [(1, 4)], 1⟩, ⟨1, 1, 0x0, [(1, 15)], 1⟩, ⟨2, 1, 0x0, [(1, 255)], 1⟩, ⟨3, 1, 0xff, [], 1⟩] }

/-- Layout of QOS (R60). -/
def layQos : ImgLayout :=
  { typ := 0x0040, size := 4, atMost := 1, loadOnly := false, stride := 12, countAt := (0, 2),
    fields := [⟨0, 2, 0x0, [(0, 20480)], 1⟩, ⟨2, 2, 0xffff, [], 1⟩],
    entry := [⟨0, 1, 0x0, [(0, 1)], 1⟩, ⟨1, 1, 0xff, [], 1⟩, ⟨2, 2, 0x0, [], 1⟩, ⟨4, 2, 0x0, [(1, 1000)], 1⟩, ⟨6, 2, 0xffff, [], 1⟩, ⟨8, 4, 0x0, [], 1⟩] }

/-- Layout of LOOP_BOUNDS (R60). -/
def layLoopBounds : ImgLayout :=
  { typ := 0x0041, size := 4, atMost := 1, loadOnly := false, stride := 16, countAt := (0, 2),
    fields := [⟨0, 2, 0x0, [(0, 5)], 1⟩, ⟨2, 2, 0xffff, [], 1⟩],
    entry := [⟨0, 1, 0x0, [(1, 5)], 1⟩, ⟨1, 1, 0x0, [(0, 1)], 1⟩, ⟨2, 2, 0xffff, [], 1⟩, ⟨4, 4, 0x0, [], 1⟩, ⟨8, 4, 0x0, [], 1⟩, ⟨12, 4, 0x0, [], 1⟩] }

/-- Layout of TUNABLES (R60). -/
def layTunables : ImgLayout :=
  { typ := 0x0042, size := 12, atMost := 1, loadOnly := false,
    fields := [⟨0, 4, 0x0, [(1, 12288)], 1⟩, ⟨4, 2, 0x0, [(9, 1000)], 1⟩, ⟨6, 2, 0x0, [(0, 255)], 1⟩, ⟨8, 2, 0x0, [(10, 2000)], 1⟩, ⟨10, 2, 0xffff, [], 1⟩] }

/-- Layout of STAGING (R60). -/
def layStaging : ImgLayout :=
  { typ := 0x0043, size := 8, atMost := 1, loadOnly := true,
    fields := [⟨0, 4, 0x0, [(1024, 12288)], 1⟩, ⟨4, 4, 0x0, [(1024, 12288)], 1⟩] }

/-- Layout of PORT_BREAKOUT (R60). -/
def layPortBreakout : ImgLayout :=
  { typ := 0x0050, size := 4, atMost := 2, loadOnly := true, stride := 4, countAt := (1, 1), key := [(0, 1)],
    fields := [⟨0, 1, 0x0, [(0, 1)], 1⟩, ⟨1, 1, 0x0, [(0, 6)], 1⟩, ⟨2, 2, 0xffff, [], 1⟩],
    entry := [⟨0, 1, 0x0, [(0, 5)], 1⟩, ⟨1, 1, 0x0, [(0, 3)], 1⟩, ⟨2, 1, 0x0, [], 1⟩, ⟨3, 1, 0xfe, [], 1⟩] }

/-- Layout of NET_ADDR (R60). -/
def layNetAddr : ImgLayout :=
  { typ := 0x0051, size := 4, atMost := 2, loadOnly := false, stride := 24, countAt := (1, 1), key := [(0, 1)],
    fields := [⟨0, 1, 0x0, [(0, 1)], 1⟩, ⟨1, 1, 0x0, [(0, 96)], 1⟩, ⟨2, 2, 0xffff, [], 1⟩],
    entry := [⟨0, 1, 0x0, [(0, 5)], 1⟩, ⟨1, 1, 0x0, [(0, 7)], 1⟩, ⟨2, 1, 0x0, [(4, 4), (6, 6)], 1⟩, ⟨3, 1, 0x0, [(1, 128)], 1⟩, ⟨4, 16, 0x0, [], 1⟩, ⟨20, 2, 0x0, [(0, 4094)], 1⟩, ⟨22, 2, 0xffff, [], 1⟩] }

/-- Layout of PEER_LINK (R60). -/
def layPeerLink : ImgLayout :=
  { typ := 0x0060, size := 8, atMost := 1, loadOnly := true,
    fields := [⟨0, 4, 0xff000000, [], 1⟩, ⟨4, 1, 0x0, [(1, 24)], 1⟩, ⟨5, 1, 0xff, [], 1⟩, ⟨6, 2, 0x0, [(10, 1000)], 1⟩] }

/-- Layout of TIME_SOURCE (R60). -/
def layTimeSource : ImgLayout :=
  { typ := 0x0061, size := 16, atMost := 2, loadOnly := true, key := [(0, 1)],
    fields := [⟨0, 1, 0x0, [(0, 1)], 1⟩, ⟨1, 1, 0x0, [(0, 2)], 1⟩, ⟨2, 1, 0x0, [(0, 127)], 1⟩, ⟨3, 1, 0x0, [], 1⟩, ⟨4, 4, 0x0, [], 1⟩, ⟨8, 4, 0x0, [(10000, 250000)], 1⟩, ⟨12, 4, 0xffffffff, [], 1⟩] }

/-- Layout of TRIG_SCHEDULE (R60). -/
def layTrigSchedule : ImgLayout :=
  { typ := 0x0062, size := 24, atMost := 8, loadOnly := false, key := [(0, 1), (1, 1)],
    fields := [⟨0, 1, 0x0, [(0, 1)], 1⟩, ⟨1, 1, 0x0, [(0, 3)], 1⟩, ⟨2, 1, 0xfc, [], 1⟩, ⟨3, 1, 0xff, [], 1⟩, ⟨4, 4, 0x0, [(1, 1000000000)], 1⟩, ⟨8, 8, 0x0, [], 1⟩, ⟨16, 8, 0x0, [], 1⟩] }

/-- Layout of TEMP_CHANNELS (R60). -/
def layTempChannels : ImgLayout :=
  { typ := 0x0063, size := 4, atMost := 2, loadOnly := true, stride := 8, countAt := (1, 1), key := [(0, 1)],
    fields := [⟨0, 1, 0x0, [(0, 1)], 1⟩, ⟨1, 1, 0x0, [(0, 16)], 1⟩, ⟨2, 2, 0xffff, [], 1⟩],
    entry := [⟨0, 1, 0x0, [(0, 15)], 1⟩, ⟨1, 1, 0x0, [(1, 2)], 1⟩, ⟨2, 2, 0xffff, [], 1⟩, ⟨4, 4, 0x0, [], 1⟩] }

/-- Layout of KEY_LABEL (R60). -/
def layKeyLabel : ImgLayout :=
  { typ := 0x0070, size := 4, atMost := 256, loadOnly := false, stride := 1, countAt := (3, 1), key := [(0, 2)],
    fields := [⟨0, 2, 0x0, [(1, 256)], 1⟩, ⟨2, 1, 0x0, [(0, 1)], 1⟩, ⟨3, 1, 0x0, [(1, 32)], 1⟩],
    entry := [⟨0, 1, 0x0, [], 1⟩] }

/-- Layout of REPL_TARGET (R60). -/
def layReplTarget : ImgLayout :=
  { typ := 0x0071, size := 32, atMost := 64, loadOnly := false, key := [(0, 1)],
    fields := [⟨0, 1, 0x0, [(0, 63)], 1⟩, ⟨1, 1, 0xfe, [], 1⟩, ⟨2, 2, 0x0, [(0, 8191)], 1⟩, ⟨4, 2, 0x0, [(1, 4096)], 1⟩, ⟨6, 2, 0x0, [(1, 4096)], 1⟩, ⟨8, 2, 0x0, [(0, 256)], 1⟩, ⟨10, 2, 0xffff, [], 1⟩, ⟨12, 16, 0x0, [], 1⟩, ⟨28, 4, 0xffffffff, [], 1⟩] }

/-- Layout of LOCK (R60). -/
def layLock : ImgLayout :=
  { typ := 0x00f0, size := 4, atMost := 1, loadOnly := true,
    fields := [⟨0, 1, 0xfc, [], 1⟩, ⟨1, 3, 0xffffff, [], 1⟩] }

/-- Every recognised record type (R58). -/
def imgLayouts : List ImgLayout :=
  [layOwnerKey, layInitialMode, layFloors, layLaneMap, layPool, layTargetGeometry, layNamespace, layStream, layWindow, layInstrChannel, layStageGraph, layUnitAssign, layQos, layLoopBounds] ++
  [layTunables, layStaging, layPortBreakout, layNetAddr, layPeerLink, layTimeSource, layTrigSchedule, layTempChannels, layKeyLabel, layReplTarget, layLock]

/-- The layout of a type, where R58 recognises it. -/
def layoutOf (t : Nat) : Option ImgLayout := imgLayouts.find? (fun l => l.typ == t)

/-- A record as the walk of R56 finds it: index from 1, offset of its type field, type, length, payload. -/
structure RawRec where
  idx : Nat
  at_ : Nat
  typ : Nat
  len : Nat
  data : Bytes
  deriving DecidableEq, Repr

/-- Offset of a record's payload. -/
def RawRec.off (r : RawRec) : Nat := r.at_ + 4

/-- How many entries a counted record gives. -/
def RawRec.count (r : RawRec) (l : ImgLayout) : Nat := if l.stride = 0 then 0 else leAt r.data l.countAt.1 l.countAt.2

/-- The length the layout and count give (R60). -/
def RawRec.wantLen (r : RawRec) (l : ImgLayout) : Nat := l.size + l.stride * r.count l

/-- Octets of entry `i`. -/
def RawRec.ent (r : RawRec) (l : ImgLayout) (i : Nat) : Bytes := slice r.data (l.size + l.stride * i) l.stride

/-- Octets of every entry. -/
def RawRec.ents (r : RawRec) (l : ImgLayout) : List Bytes := (List.range (r.count l)).map (r.ent l)

/-- The record walk of R56 from an offset to the end of the records: the records, or the record and offset at which it fails.
`fuel` bounds the records. -/
def walkRecs (img : Bytes) (stop : Nat) : Nat → Nat → Nat → List RawRec → Except (Nat × Nat) (List RawRec)
  | 0, i, at_, _ => .error (i, at_)
  | f + 1, i, at_, acc =>
    if at_ = stop then .ok acc.reverse
    else if at_ + 4 > stop then .error (i, at_)
    else
      let len := leAt img (at_ + 2) 2
      let nxt := at_ + 4 + roundUp len 4
      if nxt > stop then .error (i, at_ + 2)
      else walkRecs img stop f (i + 1) nxt (⟨i, at_, leAt img at_ 2, len, slice img (at_ + 4) len⟩ :: acc)

/-- Read OWNER_KEY. -/
def readOwnerKey (r : RawRec) : OwnerKeyRec :=
  { idx := r.idx, off := r.off, keyX := leAt r.data 0 48, keyY := leAt r.data 48 48 }

/-- Read INITIAL_MODE. -/
def readInitialMode (r : RawRec) : InitialModeRec :=
  { idx := r.idx, off := r.off, modeReq := leAt r.data 0 1 }

/-- Read FLOORS. -/
def readFloors (r : RawRec) : FloorsRec :=
  { idx := r.idx, off := r.off, rbldFloorPct := leAt r.data 0 1, spareRoPermille := leAt r.data 2 2 }

/-- Read one entry of LANE_MAP. -/
def readLaneMapEntry (d : Bytes) : LaneMapEntry :=
  { lane := leAt d 0 1, module := leAt d 1 1, modulePort := leAt d 2 1, laneFlags := leAt d 3 1 }

/-- Read LANE_MAP. -/
def readLaneMap (r : RawRec) : LaneMapRec :=
  { idx := r.idx, off := r.off, head := leAt r.data 0 1,
    entries := (r.ents layLaneMap).map readLaneMapEntry }

/-- Read POOL. -/
def readPool (r : RawRec) : PoolRec :=
  { idx := r.idx, off := r.off, poolId := leAt r.data 0 1, density := leAt r.data 1 1, dataMembers := leAt r.data 2 1, parityMembers := leAt r.data 3 1, pageKib := leAt r.data 4 1, ownerHead := leAt r.data 5 1, oasisPct := leAt r.data 6 1, suspendPolicy := leAt r.data 7 1, dieCount := leAt r.data 8 2,
    members := (r.ents layPool).map leNat }

/-- Read TARGET_GEOMETRY. -/
def readTargetGeometry (r : RawRec) : TargetGeometryRec :=
  { idx := r.idx, off := r.off, poolId := leAt r.data 0 1, dataMembers := leAt r.data 1 1, parityMembers := leAt r.data 2 1 }

/-- Read NAMESPACE. -/
def readNamespace (r : RawRec) : NamespaceRec :=
  { idx := r.idx, off := r.off, nsid := leAt r.data 0 2, poolId := leAt r.data 2 1, nsFlags := leAt r.data 3 1, keyLabel := leAt r.data 4 2, sizeBlocks := leAt r.data 8 8 }

/-- Read STREAM. -/
def readStream (r : RawRec) : StreamRec :=
  { idx := r.idx, off := r.off, streamId := leAt r.data 0 2, nsid := leAt r.data 2 2, stFlags := leAt r.data 4 1, stageGraph := leAt r.data 5 1, cairnMaxBytes := leAt r.data 8 8, timerCairnMs := leAt r.data 16 4 }

/-- Read WINDOW. -/
def readWindow (r : RawRec) : WindowRec :=
  { idx := r.idx, off := r.off, windowId := leAt r.data 0 2, nsid := leAt r.data 2 2, streamId := leAt r.data 4 2, channel := leAt r.data 6 1, winFlags := leAt r.data 7 1, startLba := leAt r.data 8 8, length := leAt r.data 16 8, rkey := leAt r.data 24 4 }

/-- Read INSTR_CHANNEL. -/
def readInstrChannel (r : RawRec) : InstrChannelRec :=
  { idx := r.idx, off := r.off, head := leAt r.data 0 1, channel := leAt r.data 1 1, chFlags := leAt r.data 2 1, slots := leAt r.data 4 2, windowId := leAt r.data 6 2, frameBytes := leAt r.data 8 4, lateLimitUs := leAt r.data 12 4 }

/-- Read one entry of STAGE_GRAPH. -/
def readStageGraphEntry (d : Bytes) : StageGraphEntry :=
  { op := leAt d 0 1, unitClass := leAt d 1 1, param := leAt d 2 2 }

/-- Read STAGE_GRAPH. -/
def readStageGraph (r : RawRec) : StageGraphRec :=
  { idx := r.idx, off := r.off, graphId := leAt r.data 0 1, seMask := leAt r.data 4 4,
    entries := (r.ents layStageGraph).map readStageGraphEntry }

/-- Read one entry of UNIT_ASSIGN. -/
def readUnitAssignEntry (d : Bytes) : UnitAssignEntry :=
  { kind := leAt d 0 1, cls := leAt d 1 1, units := leAt d 2 1 }

/-- Read UNIT_ASSIGN. -/
def readUnitAssign (r : RawRec) : UnitAssignRec :=
  { idx := r.idx, off := r.off, head := leAt r.data 0 1,
    entries := (r.ents layUnitAssign).map readUnitAssignEntry }

/-- Read one entry of QOS. -/
def readQosEntry (d : Bytes) : QosEntry :=
  { kind := leAt d 0 1, id := leAt d 2 2, share := leAt d 4 2, floorMbs := leAt d 8 4 }

/-- Read QOS. -/
def readQos (r : RawRec) : QosRec :=
  { idx := r.idx, off := r.off,
    entries := (r.ents layQos).map readQosEntry }

/-- Read one entry of LOOP_BOUNDS. -/
def readLoopBoundsEntry (d : Bytes) : LoopBoundsEntry :=
  { loop := leAt d 0 1, setting := leAt d 1 1, lower := signedOf 32 (leAt d 4 4), upper := signedOf 32 (leAt d 8 4), pinned := signedOf 32 (leAt d 12 4) }

/-- Read LOOP_BOUNDS. -/
def readLoopBounds (r : RawRec) : LoopBoundsRec :=
  { idx := r.idx, off := r.off,
    entries := (r.ents layLoopBounds).map readLoopBoundsEntry }

/-- Read TUNABLES. -/
def readTunables (r : RawRec) : TunablesRec :=
  { idx := r.idx, off := r.off, dirtyBudgetMib := leAt r.data 0 4, holdupMs := leAt r.data 4 2, ersSuspMax := leAt r.data 6 2, wlSpread := leAt r.data 8 2 }

/-- Read STAGING. -/
def readStaging (r : RawRec) : StagingRec :=
  { idx := r.idx, off := r.off, ownMibHead0 := leAt r.data 0 4, ownMibHead1 := leAt r.data 4 4 }

/-- Read one entry of PORT_BREAKOUT. -/
def readPortBreakoutEntry (d : Bytes) : PortBreakoutEntry :=
  { port := leAt d 0 1, split := leAt d 1 1, pfcMask := leAt d 2 1, portFlags := leAt d 3 1 }

/-- Read PORT_BREAKOUT. -/
def readPortBreakout (r : RawRec) : PortBreakoutRec :=
  { idx := r.idx, off := r.off, head := leAt r.data 0 1,
    entries := (r.ents layPortBreakout).map readPortBreakoutEntry }

/-- Read one entry of NET_ADDR. -/
def readNetAddrEntry (d : Bytes) : NetAddrEntry :=
  { port := leAt d 0 1, subport := leAt d 1 1, family := leAt d 2 1, prefixLen := leAt d 3 1, address := slice d 4 16, vlan := leAt d 20 2 }

/-- Read NET_ADDR. -/
def readNetAddr (r : RawRec) : NetAddrRec :=
  { idx := r.idx, off := r.off, head := leAt r.data 0 1,
    entries := (r.ents layNetAddr).map readNetAddrEntry }

/-- Read PEER_LINK. -/
def readPeerLink (r : RawRec) : PeerLinkRec :=
  { idx := r.idx, off := r.off, serdesMask := leAt r.data 0 4, minLanes := leAt r.data 4 1, arbHbUs := leAt r.data 6 2 }

/-- Read TIME_SOURCE. -/
def readTimeSource (r : RawRec) : TimeSourceRec :=
  { idx := r.idx, off := r.off, head := leAt r.data 0 1, source := leAt r.data 1 1, ptpDomain := leAt r.data 2 1, ptpPort := leAt r.data 3 1, holdoverS := leAt r.data 4 4, ipclkKhz := leAt r.data 8 4 }

/-- Read TRIG_SCHEDULE. -/
def readTrigSchedule (r : RawRec) : TrigScheduleRec :=
  { idx := r.idx, off := r.off, head := leAt r.data 0 1, trig := leAt r.data 1 1, trigFlags := leAt r.data 2 1, widthNs := leAt r.data 4 4, startNs := leAt r.data 8 8, periodNs := leAt r.data 16 8 }

/-- Read one entry of TEMP_CHANNELS. -/
def readTempChannelsEntry (d : Bytes) : TempChannelsEntry :=
  { channel := leAt d 0 1, sensor := leAt d 1 1, param := leAt d 4 4 }

/-- Read TEMP_CHANNELS. -/
def readTempChannels (r : RawRec) : TempChannelsRec :=
  { idx := r.idx, off := r.off, head := leAt r.data 0 1,
    entries := (r.ents layTempChannels).map readTempChannelsEntry }

/-- Read KEY_LABEL. -/
def readKeyLabel (r : RawRec) : KeyLabelRec :=
  { idx := r.idx, off := r.off, labelId := leAt r.data 0 2, keyBits := leAt r.data 2 1,
    label := r.data.drop 4 }

/-- Read REPL_TARGET. -/
def readReplTarget (r : RawRec) : ReplTargetRec :=
  { idx := r.idx, off := r.off, targetId := leAt r.data 0 1, tgtFlags := leAt r.data 1 1, deviceId := leAt r.data 2 2, srcNsid := leAt r.data 4 2, dstNsid := leAt r.data 6 2, keyLabel := leAt r.data 8 2, address := slice r.data 12 16 }

/-- Read LOCK. -/
def readLock (r : RawRec) : LockRec :=
  { idx := r.idx, off := r.off, lockFlags := leAt r.data 0 1 }

/-- The records of one type, in image order. -/
def recsOf (rs : List RawRec) (t : Nat) : List RawRec := rs.filter (fun r => r.typ == t)

/-- The typed image of walked records. A POOL record with die_count 0 is kept; `Image.pools` leaves it out. -/
def imageOf (img : Bytes) (rs : List RawRec) : Image :=
  { bytes := img, generation := leAt img 16 8, arrayId := leAt img 24 8, fwMajorMin := leAt img 32 2, fwMajorMax := leAt img 34 2,
    ownerKey := (recsOf rs 0x0001).map readOwnerKey,
    initialMode := (recsOf rs 0x0002).map readInitialMode,
    floors := (recsOf rs 0x0003).map readFloors,
    laneMap := (recsOf rs 0x0010).map readLaneMap,
    pool := (recsOf rs 0x0011).map readPool,
    target := (recsOf rs 0x0012).map readTargetGeometry,
    ns := (recsOf rs 0x0020).map readNamespace,
    stream := (recsOf rs 0x0021).map readStream,
    window := (recsOf rs 0x0022).map readWindow,
    channel := (recsOf rs 0x0023).map readInstrChannel,
    graph := (recsOf rs 0x0030).map readStageGraph,
    unitAssign := (recsOf rs 0x0031).map readUnitAssign,
    qos := (recsOf rs 0x0040).map readQos,
    loopBounds := (recsOf rs 0x0041).map readLoopBounds,
    tunables := (recsOf rs 0x0042).map readTunables,
    staging := (recsOf rs 0x0043).map readStaging,
    portBreakout := (recsOf rs 0x0050).map readPortBreakout,
    netAddr := (recsOf rs 0x0051).map readNetAddr,
    peerLink := (recsOf rs 0x0060).map readPeerLink,
    timeSource := (recsOf rs 0x0061).map readTimeSource,
    trig := (recsOf rs 0x0062).map readTrigSchedule,
    tempChannels := (recsOf rs 0x0063).map readTempChannels,
    keyLabel := (recsOf rs 0x0070).map readKeyLabel,
    replTarget := (recsOf rs 0x0071).map readReplTarget,
    lock := (recsOf rs 0x00f0).map readLock }

end Sys2Proof.Machine
end

