-- ==== Sys2Proof/Machine/ImageCheck.lean ====
section
/-! DEFINITION. Validation of a structural image: steps 1 to 25 of R61, with R55 to R60, R62 to R65 and R483. -/
namespace Sys2Proof.Machine

/-- What a failed check reports (R61): code, record index (0 for header or trailer), octet offset of the field. -/
structure ImgErr where
  code : Nat
  record : Nat := 0
  offset : Nat := 0
  deriving DecidableEq, Repr

/-- What validation reads of the device besides the image. Times and sizes come from module declarations (R347); the last
fields are those of the change checks (R65). -/
structure ImgCtx where
  ownerHash : Option Bytes
  fwMajor : Nat
  supplied : Option Nat
  active : Option Image
  runtime : Bool
  /-- Program rate of a die of a module in a density, MB/s, where the module has declared one. -/
  dieMbs : Nat → Nat → Option Nat
  /-- Octets of a die's blocks other than block 0 at a density, where the module has declared them. -/
  dieBytes : Nat → Nat → Nat → Option Nat
  /-- One more than the namespace's highest mapped block, 0 with none. -/
  mappedEnd : Nat → Nat
  retainedIn : Nat → Bool
  reshapeBusy : Nat → Bool
  horizon : Nat → Nat
  /-- Recorded geometry of a pool that a reshape has switched over: it is not the one its active POOL record gives (R292). -/
  recorded : Nat → Option (Nat × Nat)
  /-- Page size in KiB that a module has declared. -/
  pageKib : Nat → Option Nat
  /-- Live slots of a namespace sealed under a label. -/
  sealedNs : Nat → Nat → Bool
  /-- Live slots sealed under a label. -/
  sealedLabel : Nat → Bool

/-- No image is shorter (R61 step 1). -/
def imgMinLen : Nat := 264
/-- No image is longer (R61 step 1). -/
def imgMaxLen : Nat := 4194304

/-- Fail where a condition does not hold. -/
def need (c : Bool) (code record offset : Nat) : Option ImgErr := if c then none else some ⟨code, record, offset⟩

/-- The first failure of a list of checks. -/
def firstErr : List (Option ImgErr) → Option ImgErr
  | [] => none
  | some e :: _ => some e
  | none :: t => firstErr t

/-- The pools an image defines: a POOL record with no die defines none (R61 step 16). -/
def Image.pools (m : Image) : List PoolRec := m.pool.filter (fun p => !p.members.isEmpty)
/-- A pool by number. -/
def Image.pool? (m : Image) (i : Nat) : Option PoolRec := m.pools.find? (fun p => p.poolId == i)
/-- A namespace by number. -/
def Image.ns? (m : Image) (i : Nat) : Option NamespaceRec := m.ns.find? (fun p => p.nsid == i)
/-- A stream by number. -/
def Image.stream? (m : Image) (i : Nat) : Option StreamRec := m.stream.find? (fun p => p.streamId == i)
/-- A window by number. -/
def Image.window? (m : Image) (i : Nat) : Option WindowRec := m.window.find? (fun p => p.windowId == i)
/-- A stage graph by number. -/
def Image.graph? (m : Image) (i : Nat) : Option StageGraphRec := m.graph.find? (fun p => p.graphId == i)
/-- A key label by number. -/
def Image.label? (m : Image) (i : Nat) : Option KeyLabelRec := m.keyLabel.find? (fun p => p.labelId == i)
/-- A replication target by number. -/
def Image.repl? (m : Image) (i : Nat) : Option ReplTargetRec := m.replTarget.find? (fun p => p.targetId == i)
/-- The target geometry of a pool. -/
def Image.target? (m : Image) (i : Nat) : Option TargetGeometryRec := m.target.find? (fun p => p.poolId == i)
/-- The channel record of a head. -/
def Image.chan? (m : Image) (head c : Nat) : Option InstrChannelRec :=
  m.channel.find? (fun r => r.head == head && r.channel == c)
/-- The trigger record of a head. -/
def Image.trig? (m : Image) (head t : Nat) : Option TrigScheduleRec := m.trig.find? (fun r => r.head == head && r.trig == t)
/-- The lane map of a head. -/
def Image.lanes? (m : Image) (head : Nat) : Option LaneMapRec := m.laneMap.find? (fun r => r.head == head)
/-- The time source of a head; absent, free-run with no holdover and IPCLK 100 MHz (R58). -/
def Image.timeSrc (m : Image) (head : Nat) : TimeSourceRec :=
  (m.timeSource.find? (fun r => r.head == head)).getD { source := 2, ipclkKhz := 100000 }
/-- The floors; absent, RBLD_FLOOR 10 % and SPARE_RO 2 % (R58). -/
def Image.floorsD (m : Image) : FloorsRec := m.floors.headD { rbldFloorPct := 10, spareRoPermille := 20 }
/-- The tunables; absent, the values of R58. -/
def Image.tunablesD (m : Image) : TunablesRec :=
  m.tunables.headD { dirtyBudgetMib := 4096, holdupMs := 30, ersSuspMax := 16, wlSpread := 200 }
/-- The staging areas; absent, 8 GiB per head (R58). -/
def Image.stagingD (m : Image) : StagingRec := m.staging.headD { ownMibHead0 := 8192, ownMibHead1 := 8192 }
/-- The peer link; absent, all 24 serdes, 12 minimum, heartbeat 100 µs (R58). -/
def Image.peerLinkD (m : Image) : PeerLinkRec := m.peerLink.headD { serdesMask := 0xFFFFFF, minLanes := 12, arbHbUs := 100 }
/-- The own dirty area of a head in MiB. -/
def Image.ownMib (m : Image) (head : Nat) : Nat :=
  if head = 0 then m.stagingD.ownMibHead0 else m.stagingD.ownMibHead1
/-- The lock flags, where a LOCK record stands (R76). -/
def Image.lockFlags (m : Image) : Option Nat := (m.lock.head?).map (·.lockFlags)
/-- The host stream of a namespace: its lowest-numbered stream that no window names (R144). -/
def Image.hostStream? (m : Image) (nsid : Nat) : Option StreamRec :=
  m.stream.find? (fun s => s.nsid == nsid && !(m.window.any (fun w => w.streamId == s.streamId)))
/-- Module and die of a POOL member: module in the low byte (R60). -/
def memberMod (x : Nat) : Nat := x % 256
/-- Die of a POOL member. -/
def memberDie (x : Nat) : Nat := x / 256

/-- Offset of entry `i` of a counted record whose fixed part has `size` octets. -/
def entOff (off size stride i : Nat) : Nat := off + size + stride * i

/-- The entries of a list with their index. -/
def indexed {α : Type} (l : List α) : List (Nat × α) := (List.range l.length).zip l

/-! ### Steps 1 to 9: container -/

/-- Octet offset of the CRC of an image of given length. -/
def crcOff (len : Nat) : Nat := len - 100

/-- Step 5: OWNER_KEY first, the hash of its payload and its point (R61). Its length is step 10's (R60). -/
def chkOwner (c : ImgCtx) (img : Bytes) : Option ImgErr :=
  let key := slice img 68 96
  let h := sha384 (slice img 68 (leAt img 66 2))
  firstErr [
    need (leAt img 64 2 == 1) 0x0005 1 64,
    need (c.ownerHash == some h) 0x0005 1 68,
    need (slice img 44 8 == h.take 8) 0x0005 0 44,
    need (ecOnCurve (leNat (key.take 48)) (leNat (key.drop 48))) 0x0005 1 68]

/-- Step 6: the signature (R57). -/
def chkSignature (img : Bytes) (len : Nat) : Option ImgErr :=
  let key := slice img 68 96
  let sg := slice img (len - 96) 96
  need (ecdsaVerify (leNat (key.take 48)) (leNat (key.drop 48)) (leNat (sg.take 48)) (leNat (sg.drop 48))
    (sha384 (img.take (len - 96)))) 0x0006 0 (len - 96)

/-- Step 1: the length. -/
def chkLength (c : ImgCtx) (img : Bytes) : Option ImgErr :=
  let len := leAt img 8 4
  firstErr [need (decide (imgMinLen ≤ len) && decide (len ≤ imgMaxLen)) 0x0001 0 8,
    match c.supplied with
    | none => none
    | some n => need (len == n) 0x0001 0 8]

/-- Steps 1 to 9 on the image's octets. -/
def chkContainer (c : ImgCtx) (img : Bytes) : Option ImgErr :=
  let len := leAt img 8 4
  chkLength c img
  <|> need (img.take 4 == [b8 0x4D, b8 0x53, b8 0x49, b8 0x4D]) 0x0002 0 0
  <|> firstErr [need (leAt img 36 2 == 0x9400) 0x0003 0 36, need (leAt img 4 1 == 1) 0x0003 0 4,
        need (leAt img 6 2 == 64) 0x0003 0 6]
  <|> need (crc32c (img.take (crcOff len)) == leAt img (crcOff len) 4) 0x0004 0 (crcOff len)
  <|> chkOwner c img
  <|> chkSignature img len
  <|> firstErr [need (decide (leAt img 32 2 ≤ c.fwMajor)) 0x0007 0 32, need (decide (c.fwMajor ≤ leAt img 34 2)) 0x0007 0 34]
  <|> (if c.runtime then
        match c.active with
        | none => none
        | some a => firstErr [need (decide (a.generation < leAt img 16 8)) 0x0008 0 16,
            need (leAt img 24 8 == a.arrayId) 0x0009 0 24]
      else none)

/-! ### Steps 10 to 15: records -/

/-- Step 10, after the walk: the count and each record's length. [DEDUCED: log 76] -/
def chkLengths (img : Bytes) (rs : List RawRec) : Option ImgErr :=
  need (leAt img 12 4 == rs.length) 0x0010 0 12
  <|> firstErr (rs.map (fun r => match layoutOf r.typ with
    | none => none
    | some l => need (r.len == r.wantLen l) 0x0010 r.idx (r.at_ + 2)))

/-- Step 11. -/
def chkKnown (rs : List RawRec) : Option ImgErr :=
  firstErr (rs.map (fun r => need (decide (0x8000 ≤ r.typ) || (layoutOf r.typ).isSome) 0x0011 r.idx r.at_))

/-- A record's key as one number (R59); none where its type has no key. -/
def recKey (r : RawRec) : Option Nat :=
  match layoutOf r.typ with
  | none => none
  | some l => if l.key.isEmpty then none else some (l.key.foldl (fun a f => a * 65536 + leAt r.data f.1 f.2) 0)

/-- Step 12 on neighbours: types ascend, and keys strictly ascend within a type. A second OWNER_KEY fails here, since only the first record
may be one. [DESIGN CHOICE: log 114] -/
def chkOrder : List RawRec → Option ImgErr
  | [] => none
  | [_] => none
  | a :: b :: t =>
    (if b.typ < a.typ ∨ b.typ = 1 then some ⟨0x0012, b.idx, b.at_⟩
     else if a.typ = b.typ then
       match recKey a, recKey b with
       | some x, some y => need (decide (x < y)) 0x0012 b.idx b.off
       | _, _ => none
     else none) <|> chkOrder (b :: t)

/-- Step 13: no type over its limit (OWNER_KEY's minimum is step 5's). -/
def chkCounts (rs : List RawRec) : Option ImgErr :=
  firstErr (rs.map (fun r => match layoutOf r.typ with
    | none => none
    | some l => need (decide (((recsOf rs r.typ).filter (fun x => decide (x.idx ≤ r.idx))).length ≤ l.atMost)) 0x0013 r.idx r.at_))

/-- The fields of a record with the octets they stand in and the offset of those octets. -/
def recFields (r : RawRec) (l : ImgLayout) : List (ImgField × Bytes × Nat) :=
  l.fields.map (fun f => (f, r.data, r.off)) ++
    ((indexed (r.ents l)).map (fun e => l.entry.map (fun f => (f, e.2, entOff r.off l.size l.stride e.1)))).flatten

/-- The first octet of the padding of a record that is not 0 (R56). -/
def badPad (img : Bytes) (r : RawRec) : Option ImgErr :=
  let a := r.off + r.len
  firstErr ((List.range (roundUp r.len 4 - r.len)).map (fun i => need (leAt img (a + i) 1 == 0) 0x0014 r.idx (a + i)))

/-- Step 14: reserved octets, bits and padding. [DEDUCED: log 76] -/
def chkReserved (img : Bytes) (rs : List RawRec) : Option ImgErr :=
  firstErr [need (leAt img 38 2 == 0) 0x0014 0 38, need (leAt img 60 4 == 0) 0x0014 0 60]
  <|> firstErr (rs.map (fun r => match layoutOf r.typ with
    | none => badPad img r
    | some l =>
      firstErr ((recFields r l).map (fun x => need ((leAt x.2.1 x.1.off x.1.size) &&& x.1.rsv == 0) 0x0014 r.idx (x.2.2 + x.1.off)))
        <|> badPad img r))

/-- Whether a field's value lies in its ranges and is a multiple of its unit. [DEDUCED: log 76] -/
def fieldOk (f : ImgField) (v : Nat) : Bool :=
  (f.rsv != 0 || f.ranges.isEmpty || f.ranges.any (fun p => decide (p.1 ≤ v) && decide (v ≤ p.2))) && v % f.mult == 0

/-- Absolute range of a loop's bounds (R394). -/
def loopAbs : Nat → Int × Int
  | 1 => (-64, 64)
  | 2 => (5, 100)
  | 3 => (1, 2000)
  | 4 => (1, 100000)
  | 5 => (488, 3900)
  | _ => (0, 0)

/-- The device's units of a kind: codec, hash, AES, parity (R60). -/
def unitTotal : Nat → Nat
  | 1 => 48
  | 2 => 24
  | 3 => 24
  | 4 => 8
  | _ => 0

/-- Offsets of the fields that break a rule across fields of one record (R60, R394). -/
def crossBad (r : RawRec) : List Nat :=
  let off := r.off
  if r.typ = 0x0030 then
    let g := readStageGraph r
    (indexed g.entries).filterMap (fun e => if e.2.op ≠ 2 ∧ e.2.param ≠ 0 then some (entOff off 8 4 e.1 + 2) else none)
  else if r.typ = 0x0031 then
    let u := readUnitAssign r
    (indexed u.entries).filterMap (fun e =>
      let tot := (((u.entries.take (e.1 + 1)).filter (fun x => x.kind == e.2.kind)).map (·.units)).sum
      if tot > unitTotal e.2.kind then some (entOff off 4 4 e.1 + 2) else none)
  else if r.typ = 0x0041 then
    ((indexed (readLoopBounds r).entries).map (fun e =>
      let o := entOff off 4 16 e.1
      let a := loopAbs e.2.loop
      let out := fun (v : Int) => decide (v < a.1) || decide (a.2 < v)
      (if out e.2.lower then [o + 4] else []) ++
      (if out e.2.upper || decide (e.2.upper < e.2.lower) then [o + 8] else []) ++
      (if out e.2.pinned || decide (e.2.pinned < e.2.lower) || decide (e.2.upper < e.2.pinned) then [o + 12] else []))).flatten
  else if r.typ = 0x0051 then
    ((indexed (readNetAddr r).entries).map (fun e =>
      let o := entOff off 4 24 e.1
      (if e.2.family = 4 ∧ e.2.prefixLen > 32 then [o + 3] else []) ++
      (if e.2.family = 4 ∧ (e.2.address.drop 4).any (· != 0) then [o + 4] else []))).flatten
  else if r.typ = 0x0062 then
    let t := readTrigSchedule r
    if t.periodNs ≠ 0 ∧ t.periodNs ≤ t.widthNs then [off + 16] else []
  else if r.typ = 0x0070 then []
  else []

/-- The least of a list of offsets. -/
def leastOf : List Nat → Option Nat
  | [] => none
  | x :: t => match leastOf t with
    | none => some x
    | some y => some (min x y)

/-- Step 15 on one record: the lowest offending offset. -/
def chkRangeRec (r : RawRec) : Option ImgErr :=
  match layoutOf r.typ with
  | none => none
  | some l =>
    let g := (recFields r l).filterMap (fun x =>
      if fieldOk x.1 (leAt x.2.1 x.1.off x.1.size) then none else some (x.2.2 + x.1.off))
    (leastOf (g ++ crossBad r)).map (fun o => ⟨0x0020, r.idx, o⟩)

/-- Step 15. -/
def chkRange (img : Bytes) (rs : List RawRec) : Option ImgErr :=
  firstErr [need (decide (1 ≤ leAt img 16 8)) 0x0020 0 16, need (decide (leAt img 32 2 ≤ leAt img 34 2)) 0x0020 0 34]
  <|> firstErr (rs.map chkRangeRec)

/-! ### Steps 16 to 24: meaning -/

/-- The checked heads of step 16: those with a LANE_MAP, or both without any. -/
def Image.checkedHeads (m : Image) : List Nat :=
  if m.laneMap.isEmpty then [0, 1] else m.laneMap.map (·.head)

/-- The entries of a head's UNIT_ASSIGN. -/
def Image.unitEntries (m : Image) (head : Nat) : List UnitAssignEntry :=
  ((m.unitAssign.find? (fun r => r.head == head)).map (·.entries)).getD []

/-- Whether a unit class exists on a head (R61 step 16). -/
def Image.classExists (m : Image) (head c : Nat) : Bool := c == 0 || (m.unitEntries head).any (fun e => e.cls == c)

/-- Units of a kind in a class of a head (R58, R60). -/
def Image.unitsOf (m : Image) (head kind c : Nat) : Nat :=
  let es := (m.unitEntries head).filter (fun e => e.kind == kind)
  if c = 0 then unitTotal kind - (es.map (·.units)).sum else ((es.filter (fun e => e.cls == c)).map (·.units)).sum

/-- The unit kind of a graph op: fingerprint hash, compress codec, encrypt AES. -/
def opKind : Nat → Nat
  | 1 => 2
  | 2 => 1
  | 3 => 3
  | _ => 0

/-- Step 16. The failing references with (record index, offset). -/
def chkRefs (m : Image) : Option ImgErr :=
  let rd := fun (b : Bool) (i o : Nat) => need b 0x0021 i o
  firstErr (m.target.map (fun r => rd (m.pool? r.poolId).isSome r.idx r.off))
  <|> firstErr (m.ns.map (fun r => firstErr [
      rd (m.pool? r.poolId).isSome r.idx (r.off + 2),
      rd (r.keyLabel == 0 || (m.label? r.keyLabel).isSome) r.idx (r.off + 4),
      rd (!tb r.nsFlags 1 || r.keyLabel != 0) r.idx (r.off + 4)]))
  <|> firstErr (m.stream.map (fun r => firstErr [
      rd (m.ns? r.nsid).isSome r.idx (r.off + 2),
      rd (r.stageGraph == 255 || (m.graph? r.stageGraph).isSome) r.idx (r.off + 5)]))
  <|> firstErr (m.window.map (fun r => firstErr [
      rd (m.ns? r.nsid).isSome r.idx (r.off + 2),
      rd ((m.stream? r.streamId).any (fun s => s.nsid == r.nsid)) r.idx (r.off + 4)]))
  <|> firstErr (m.channel.map (fun r => rd (!tb r.chFlags 0 || (m.window? r.windowId).isSome) r.idx (r.off + 6)))
  <|> firstErr ((m.graph.map (fun r => (indexed r.entries).map (fun e =>
      rd (m.checkedHeads.all (fun h => m.classExists h e.2.unitClass)) r.idx (entOff r.off 8 4 e.1 + 1)))).flatten)
  <|> firstErr ((m.qos.map (fun r => (indexed r.entries).map (fun e =>
      rd (if e.2.kind = 0 then (m.window? e.2.id).isSome else (m.ns? e.2.id).isSome) r.idx (entOff r.off 4 12 e.1 + 2)))).flatten)
  <|> firstErr (m.replTarget.map (fun r => firstErr [
      rd (m.ns? r.srcNsid).isSome r.idx (r.off + 4),
      rd (if r.keyLabel = 0 then (m.ns? r.srcNsid).any (fun n => n.keyLabel != 0) else (m.label? r.keyLabel).isSome)
        r.idx (r.off + 8)]))

/-- Step 17. -/
def chkZero (m : Image) : Option ImgErr :=
  firstErr (m.ns.map (fun r => need (r.sizeBlocks != 0) 0x0022 r.idx (r.off + 8)))
  <|> firstErr (m.window.map (fun r => need (r.length != 0) 0x0022 r.idx (r.off + 16)))

/-- Modules that enabled lanes of a head reach, where its LANE_MAP is present. -/
def Image.reached (m : Image) (head : Nat) : Option (List Nat) :=
  (m.lanes? head).map (fun r => (r.entries.filter (fun e => tb e.laneFlags 0)).map (·.module))

/-- Distinct modules of a pool. -/
def PoolRec.modules (p : PoolRec) : List Nat := (p.members.map memberMod).eraseDups

/-- Step 18 on one pool, given the members of the pools before it (R62). [DEDUCED: log 75] -/
def chkPoolGeo (c : ImgCtx) (m : Image) (before : List Nat) (p : PoolRec) : Option ImgErr :=
  let own := (m.reached p.ownerHead).getD []
  let other := m.reached (1 - p.ownerHead)
  firstErr ((indexed p.members).map (fun e =>
    need (!before.contains e.2 && !(p.members.take e.1).contains e.2 && own.contains (memberMod e.2) &&
      (match other with | none => true | some l => l.contains (memberMod e.2))) 0x0030 p.idx (p.off + 12 + 2 * e.1)))
  <|> need (decide (p.dataMembers + p.parityMembers + 1 ≤ p.modules.length)) 0x0030 p.idx (p.off + 2)
  <|> need (p.modules.all (fun x => match c.pageKib x with | none => true | some k => k == p.pageKib)) 0x0030 p.idx (p.off + 4)

/-- Step 18 over pools in order. [DEDUCED: log 75] -/
def chkPools (c : ImgCtx) (m : Image) : List Nat → List PoolRec → Option ImgErr
  | _, [] => none
  | before, p :: t => chkPoolGeo c m before p <|> chkPools c m (before ++ p.members) t

/-- Step 18. [DEDUCED: log 75] -/
def chkGeometry (c : ImgCtx) (m : Image) : Option ImgErr :=
  chkPools c m [] m.pools
  <|> firstErr (m.target.map (fun t => match m.pool? t.poolId with
    | none => none
    | some p => need (decide (t.dataMembers + t.parityMembers + 1 ≤ p.modules.length)) 0x0030 t.idx (t.off + 1)))

/-- A pool that cannot be judged at a start, where its modules have not declared themselves (R62: a module that has declared nothing is
left out until it does). At run time such a module's dies count nothing. [DEDUCED: log 74] -/
def undeclared (c : ImgCtx) (p : PoolRec) : Bool :=
  !c.runtime && p.members.any (fun x => (c.dieBytes (memberMod x) p.density p.pageKib).isNone)

/-- Blocks of 4 KiB a pool holds net of parity and Oasis, times 100 × (D + K) (R61 step 19). -/
def poolCapScaled (c : ImgCtx) (p : PoolRec) : Nat :=
  ((p.members.map (fun x => (c.dieBytes (memberMod x) p.density p.pageKib).getD 0)).sum) * p.dataMembers * (100 - p.oasisPct)

/-- Step 19: running sums of namespace sizes against each pool. -/
def chkCapacity (c : ImgCtx) (m : Image) : Option ImgErr :=
  firstErr ((indexed m.ns).map (fun e => match m.pool? e.2.poolId with
    | none => none
    | some p =>
      let used := (((m.ns.take (e.1 + 1)).filter (fun n => n.poolId == p.poolId)).map (·.sizeBlocks)).sum * 4096
      need (undeclared c p || decide (used * 100 * (p.dataMembers + p.parityMembers) ≤ poolCapScaled c p)) 0x0031 e.2.idx (e.2.off + 8)))

/-- Rate of one unit of a kind, MB/s (R63). -/
def unitRate : Nat → Nat
  | 3 => 32000
  | _ => 16000

/-- The stream a QOS entry's traffic runs on: the window's, or the namespace's host stream. -/
def Image.qosStream? (m : Image) (e : QosEntry) : Option StreamRec :=
  if e.kind = 0 then (m.window? e.id).bind (fun w => m.stream? w.streamId) else m.hostStream? e.id

/-- Whether a QOS entry's stream runs a stage of a unit kind and class. -/
def Image.qosRuns (m : Image) (e : QosEntry) (kind c : Nat) : Bool :=
  ((m.qosStream? e).bind (fun s => m.graph? s.stageGraph)).any (fun g => g.entries.any (fun x => opKind x.op == kind && x.unitClass == c))

/-- Step 20 on one head (R63). -/
def chkUnitsHead (m : Image) (h : Nat) : Option ImgErr :=
  (match m.unitAssign.find? (fun r => r.head == h) with
   | none => none
   | some r => need (decide (1 ≤ m.unitsOf h 4 0)) 0x0032 r.idx
      (entOff r.off 4 4 (((indexed r.entries).filter (fun e => e.2.kind == 4)).getLastD (0, {})).1 + 2))
  <|> firstErr ((m.qos.map (fun q => (indexed q.entries).map (fun e =>
      if e.2.floorMbs = 0 then none else
      need ([1, 2, 3].all (fun k => (List.range 16).all (fun cl =>
        !m.qosRuns e.2 k cl ||
          decide ((((q.entries.take (e.1 + 1)).filter (fun x => m.qosRuns x k cl)).map (·.floorMbs)).sum
            ≤ m.unitsOf h k cl * unitRate k)))) 0x0032 q.idx (entOff q.off 4 12 e.1 + 8)))).flatten)

/-- Step 20. -/
def chkUnits (m : Image) : Option ImgErr := firstErr (m.checkedHeads.map (chkUnitsHead m))

/-- The largest dirty budget a hold-up time carries (R63): ⌊(holdup_ms − 8) × 200 × 10^9 / 2^20 / 1,000⌋. -/
def budgetLimitMib (holdupMs : Nat) : Nat := (holdupMs - 8) * 200 * 10 ^ 9 / 2 ^ 20 / 1000

/-- Step 21 (R63). The offending field is the record's that is present. -/
def chkBudget (m : Image) : Option ImgErr :=
  let t := m.tunablesD
  let st := m.stagingD
  let low := min st.ownMibHead0 st.ownMibHead1
  let stErr := fun (o : Nat) => (⟨0x0033, st.idx, if st.idx = 0 then 0 else st.off + o⟩ : ImgErr)
  (if t.dirtyBudgetMib ≤ low then none
   else if t.idx ≠ 0 then some ⟨0x0033, t.idx, t.off⟩
   else some (stErr (if st.ownMibHead0 ≤ st.ownMibHead1 then 0 else 4)))
  <|> (if st.ownMibHead0 + st.ownMibHead1 ≤ 22528 then none else some (stErr 4))
  <|> (if t.dirtyBudgetMib ≤ budgetLimitMib t.holdupMs then none
       else some ⟨0x0033, t.idx, if t.idx = 0 then 0 else t.off⟩)

/-- The pool a QOS entry's floor counts on. -/
def Image.qosPool? (m : Image) (e : QosEntry) : Option Nat :=
  (if e.kind = 0 then (m.window? e.id).bind (fun w => m.ns? w.nsid) else m.ns? e.id).map (·.poolId)

/-- Step 22 (R63): floors × 100 × (D + K) against dies × rate × (100 − floor) × D. -/
def chkFloors (c : ImgCtx) (m : Image) : Option ImgErr :=
  firstErr ((m.qos.map (fun q => (indexed q.entries).map (fun e =>
    if e.2.floorMbs = 0 then none else
    match (m.qosPool? e.2).bind m.pool? with
    | none => none
    | some p =>
      let rate := (p.members.map (fun x => (c.dieMbs (memberMod x) p.density).getD 0)).sum
      let load := (((q.entries.take (e.1 + 1)).filter (fun x => m.qosPool? x == some p.poolId)).map (·.floorMbs)).sum
      need (undeclared c p || decide (load * 100 * (p.dataMembers + p.parityMembers) ≤ rate * (100 - m.floorsD.rbldFloorPct) * p.dataMembers))
        0x0034 q.idx (entOff q.off 4 12 e.1 + 8)))).flatten)

/-- Step 23 on one graph (R64). -/
def chkGraph (m : Image) (g : StageGraphRec) : Option ImgErr :=
  firstErr ((indexed g.entries).map (fun e =>
    need (e.1 == 0 || decide ((g.entries.getD (e.1 - 1) {}).op < e.2.op)) 0x0035 g.idx (entOff g.off 8 4 e.1)))
  <|> need (g.entries.isEmpty || g.seMask != 0) 0x0035 g.idx (g.off + 4)
  <|> firstErr ((indexed g.entries).map (fun e =>
    need (m.checkedHeads.all (fun h => decide (1 ≤ m.unitsOf h (opKind e.2.op) e.2.unitClass))) 0x0035 g.idx (entOff g.off 8 4 e.1 + 1)))

/-- Whether a stream's graph holds an op. -/
def Image.streamHasOp (m : Image) (s : StreamRec) (op : Nat) : Bool :=
  (m.graph? s.stageGraph).any (fun g => g.entries.any (fun e => e.op == op))

/-- Step 23. -/
def chkGraphs (m : Image) : Option ImgErr :=
  firstErr (m.graph.map (chkGraph m))
  <|> firstErr (m.stream.map (fun s =>
    let f := ((m.ns? s.nsid).map (·.nsFlags)).getD 0
    need ((!tb f 1 || m.streamHasOp s 3) && (!(tb f 0 || tb s.stFlags 0) || m.streamHasOp s 2)) 0x0035 s.idx (s.off + 5)))

/-- Step 24 (R61, R483). -/
def chkWindows (m : Image) : Option ImgErr :=
  firstErr ((indexed m.window).map (fun e =>
    let w := e.2
    let before := m.window.take e.1
    firstErr [
      need ((m.ns? w.nsid).any (fun n => decide (w.startLba * 4096 + w.length ≤ n.sizeBlocks * 4096))) 0x0036 w.idx (w.off + 16),
      need (w.channel == 255 || !before.any (fun v => v.channel == w.channel)) 0x0036 w.idx (w.off + 6),
      need (!before.any (fun v => v.rkey == w.rkey)) 0x0036 w.idx (w.off + 24)]))
  <|> firstErr (m.channel.map (fun r =>
    need (!tb r.chFlags 0 || (m.window? r.windowId).any (fun w => w.channel == r.channel)) 0x0036 r.idx (r.off + 6)))

/-! ### Step 25: change checks (R65) -/

/-- 0x0040: POOL, STAGING and PEER_LINK elements may only be added: one that the active image holds stands in the new one unchanged. -/
def chkShared (a m : Image) : Option ImgErr :=
  firstErr (a.pools.map (fun o => match m.pool.find? (fun p => p.poolId == o.poolId) with
    | none => some ⟨0x0040, 0, 0⟩
    | some p => need ({ p with idx := 0, off := 0 } == { o with idx := 0, off := 0 }) 0x0040 p.idx p.off))
  <|> firstErr (a.staging.map (fun o => match m.staging.head? with
    | none => some ⟨0x0040, 0, 0⟩
    | some x => need ({ x with idx := 0, off := 0 } == { o with idx := 0, off := 0 }) 0x0040 x.idx x.off))
  <|> firstErr (a.peerLink.map (fun o => match m.peerLink.head? with
    | none => some ⟨0x0040, 0, 0⟩
    | some x => need ({ x with idx := 0, off := 0 } == { o with idx := 0, off := 0 }) 0x0040 x.idx x.off))

/-- 0x0041: a namespace is not taken away or cut below what it holds. -/
def chkNsNotEmpty (c : ImgCtx) (a m : Image) : Option ImgErr :=
  firstErr (a.ns.map (fun o => match m.ns? o.nsid with
    | none => need (c.mappedEnd o.nsid == 0 && !c.retainedIn o.nsid) 0x0041 0 0
    | some n => need (decide (c.mappedEnd o.nsid ≤ n.sizeBlocks)) 0x0041 n.idx (n.off + 8)))

/-- 0x0042: the target of a pool whose reshape is past its first stripe stays. -/
def chkReshapeBusy (c : ImgCtx) (a m : Image) : Option ImgErr :=
  firstErr (a.target.map (fun o => if !c.reshapeBusy o.poolId then none else
    match m.target? o.poolId with
    | none => some ⟨0x0042, 0, 0⟩
    | some t => need (t.dataMembers == o.dataMembers && t.parityMembers == o.parityMembers) 0x0042 t.idx (t.off + 1)))

/-- Logical blocks of a window's written extent: ⌈min(H, L) / 4,096⌉ (R65). -/
def writtenBlocks (h l : Nat) : Nat := ceilDiv (min h l) 4096

/-- 0x0043: the new range holds the window's written extent. -/
def chkWindowShrink (c : ImgCtx) (a m : Image) : Option ImgErr :=
  firstErr (a.window.map (fun o => match m.window? o.windowId with
    | none => none
    | some w =>
      let ext := writtenBlocks (c.horizon o.windowId) o.length
      if w.nsid ≠ o.nsid ∨ ext = 0 then none else
      firstErr [need (decide (w.startLba ≤ o.startLba)) 0x0043 w.idx (w.off + 8),
        need (decide (o.startLba + ext ≤ w.startLba + w.length / 4096)) 0x0043 w.idx (w.off + 16)]))

/-- 0x0048: a label that live sealed slots use stays. -/
def chkKeyInUse (c : ImgCtx) (a m : Image) : Option ImgErr :=
  firstErr (a.ns.map (fun o => match m.ns? o.nsid with
    | none => none
    | some n => need (n.keyLabel == o.keyLabel || !c.sealedNs o.nsid o.keyLabel) 0x0048 n.idx (n.off + 4)))
  <|> firstErr (a.keyLabel.map (fun o => need ((m.label? o.labelId).isSome || !c.sealedLabel o.labelId) 0x0048 0 0))

/-- Step 25 against the active image. -/
def chkChanges (c : ImgCtx) (m : Image) : Option ImgErr :=
  match c.active with
  | none => none
  | some a => chkShared a m <|> chkNsNotEmpty c a m <|> chkReshapeBusy c a m <|> chkWindowShrink c a m <|> chkKeyInUse c a m

/-- The image with the recorded geometry of pools that a reshape switched over, which steps 18 and 22 use (R292). -/
def Image.recorded (c : ImgCtx) (m : Image) : Image :=
  { m with pool := m.pool.map (fun p => match c.recorded p.poolId with
      | some g => { p with dataMembers := g.1, parityMembers := g.2 }
      | none => p) }

/-- Steps 16 to 24 on typed records. -/
def chkMeaning (c : ImgCtx) (m : Image) : Option ImgErr :=
  chkRefs m <|> chkZero m <|> chkGeometry c (m.recorded c) <|> chkCapacity c m <|> chkUnits m <|> chkBudget m <|> chkFloors c (m.recorded c)
  <|> chkGraphs m <|> chkWindows m

/-- Validation (R61): the typed image, or the first failure. `changes` asks for step 25. -/
def validateImage (c : ImgCtx) (img : Bytes) (changes : Bool) : Except ImgErr Image :=
  match chkContainer c img with
  | some e => .error e
  | none =>
    let len := leAt img 8 4
    match walkRecs img (crcOff len) (len / 4) 1 64 [] with
    | .error (i, o) => .error ⟨0x0010, i, o⟩
    | .ok rs =>
      match chkLengths img rs <|> chkKnown rs <|> chkOrder rs <|> chkCounts rs <|> chkReserved img rs <|> chkRange img rs with
      | some e => .error e
      | none =>
        let m := imageOf (img.take len) rs
        match chkMeaning c m <|> (if changes then chkChanges c m else none) with
        | some e => .error e
        | none => .ok m

/-- The digest both heads compare (R70): SHA-384 of the image's octets. -/
def Image.digest (m : Image) : Bytes := sha384 m.bytes

/-- The load-only records alone, their places in the image left out. -/
def recAtZero (x : Image) : Image :=
  { ownerKey := x.ownerKey.map (fun r => { r with idx := 0, off := 0 }),
    initialMode := x.initialMode.map (fun r => { r with idx := 0, off := 0 }),
    laneMap := x.laneMap.map (fun r => { r with idx := 0, off := 0 }),
    pool := x.pool.map (fun r => { r with idx := 0, off := 0 }),
    unitAssign := x.unitAssign.map (fun r => { r with idx := 0, off := 0 }),
    staging := x.staging.map (fun r => { r with idx := 0, off := 0 }),
    portBreakout := x.portBreakout.map (fun r => { r with idx := 0, off := 0 }),
    peerLink := x.peerLink.map (fun r => { r with idx := 0, off := 0 }),
    timeSource := x.timeSource.map (fun r => { r with idx := 0, off := 0 }),
    tempChannels := x.tempChannels.map (fun r => { r with idx := 0, off := 0 }),
    lock := x.lock.map (fun r => { r with idx := 0, off := 0 }) }

/-- Whether two images agree in every load-only record (R71). -/
def sameLoadOnly (a m : Image) : Bool :=
  recAtZero a == recAtZero m

end Sys2Proof.Machine
end

