-- ==== Sys2Proof/Machine/RegTypes.lean ====
section
/-! DEFINITION. What a register map says of a field (R9, R10, R423, R425). -/
namespace Sys2Proof.Machine

/-- Access codes (R9); `rwlk` is RW/LK. -/
inductive Acc where
  | ro | rw | rh | sc | w1p | rwlk
  deriving DecidableEq, Repr

/-- Classes of R425. -/
inductive Cls where
  | config | status | action | counter | pointer | fixed
  deriving DecidableEq, Repr

/-- A field of a register map: block number (R422), BAR0 offset of its register, bits, access, reset value, Kept letters as a mask
(W 1, D 2, T 4, F 8, S 16, H 32), class, its place in the block's counter list (R454), legal range where other encodings are
reserved (R7), and how it repeats. `view` marks a field that other state holds. -/
structure Field where
  name : String
  block : Nat
  off : Nat
  msb : Nat
  lsb : Nat
  acc : Acc
  reset : Nat := 0
  kept : Nat := 0
  cls : Cls := .fixed
  item : Option Nat := none
  inst : Nat := 0
  count : Nat := 1
  stride : Nat := 0
  count2 : Nat := 1
  stride2 : Nat := 0
  lo : Nat := 0
  hi : Option Nat := none
  view : Bool := false
  deriving DecidableEq, Repr

/-- Width of a field. -/
def Field.width (f : Field) : Nat := f.msb + 1 - f.lsb

/-- The field's instance `i` (of a channel, port, lane, sensor, loop, ring …). -/
def Field.at (f : Field) (i : Nat) : Field := { f with off := f.off + f.stride * i, inst := i }

/-- Element `j` of a field that repeats within its instance (histogram bins, lane temperatures). -/
def Field.sub (f : Field) (j : Nat) : Field := { f with off := f.off + f.stride2 * j }

/-- Instance and element of the field whose register starts at an offset, where there is one. -/
def Field.locate (f : Field) (off : Nat) : Option (Nat × Nat) :=
  let x := off - f.off
  let i := if f.stride = 0 then 0 else x / f.stride
  let r := x - i * f.stride
  let j := if f.stride2 = 0 then 0 else r / f.stride2
  if f.off ≤ off ∧ i < f.count ∧ j < f.count2 ∧ r = j * f.stride2 then some (i, j) else none

/-- Where the register store keeps the field. -/
def Field.key (f : Field) : Nat := f.off * 64 + f.lsb

/-- Whether the field survives an event whose Kept letter is `m`. -/
def Field.survives (f : Field) (m : Nat) : Bool := Nat.land f.kept m != 0

/-- Whether software may write the field. -/
def Field.writable (f : Field) : Bool := f.acc == .rw || f.acc == .rwlk

end Sys2Proof.Machine
end

