-- ==== Sys2Proof/Machine/RegMap.lean ====
section
/-! DEFINITION. The register maps of every block as data, transcribed from the chapters: R37, R78, R97, R98, R133, R134, R167, R199, R217,
R241, R265, R266, R295, R315, R355, R356, R380, R400, R419, R420, R438, R456 to R459. One definition per field, then the table of all. -/
namespace Sys2Proof.Machine.F

/-- SYS_ID.part (R438). -/
def SYS_ID_part : Field :=
  { name := "SYS_ID_part", block := 0, off := 0x0, msb := 15, lsb := 0, acc := .ro, reset := 0x9400, kept := 63,
    cls := .fixed }
/-- SYS_ID.stepping (R438). -/
def SYS_ID_stepping : Field :=
  { name := "SYS_ID_stepping", block := 0, off := 0x0, msb := 23, lsb := 16, acc := .ro, kept := 63, cls := .fixed,
    view := true }
/-- SYS_FW.minor (R438). -/
def SYS_FW_minor : Field :=
  { name := "SYS_FW_minor", block := 0, off := 0x4, msb := 15, lsb := 0, acc := .rh, kept := 24, cls := .status }
/-- SYS_FW.major (R438). -/
def SYS_FW_major : Field :=
  { name := "SYS_FW_major", block := 0, off := 0x4, msb := 31, lsb := 16, acc := .rh, kept := 24, cls := .status }
/-- SYS_STATUS.head (R438). -/
def SYS_STATUS_head : Field :=
  { name := "SYS_STATUS_head", block := 0, off := 0xc, msb := 0, lsb := 0, acc := .ro, kept := 63, cls := .fixed,
    view := true }
/-- SYS_STATUS.regs_ready (R438). -/
def SYS_STATUS_regs_ready : Field :=
  { name := "SYS_STATUS_regs_ready", block := 0, off := 0xc, msb := 1, lsb := 1, acc := .rh, kept := 24, cls := .status }
/-- SYS_STATUS.rom_mode (R438). -/
def SYS_STATUS_rom_mode : Field :=
  { name := "SYS_STATUS_rom_mode", block := 0, off := 0xc, msb := 2, lsb := 2, acc := .rh, kept := 24, cls := .status }
/-- SYS_ARRAY_ID.array_id (R438). -/
def SYS_ARRAY_ID_array_id : Field :=
  { name := "SYS_ARRAY_ID_array_id", block := 0, off := 0x10, msb := 63, lsb := 0, acc := .rh, kept := 56, cls := .status }
/-- SYS_SERIAL.serial (R438). -/
def SYS_SERIAL_serial : Field :=
  { name := "SYS_SERIAL_serial", block := 0, off := 0x18, msb := 63, lsb := 0, acc := .ro, kept := 63, cls := .fixed,
    view := true }
/-- SYS_MODE.capture (R37). -/
def SYS_MODE_capture : Field :=
  { name := "SYS_MODE_capture", block := 0, off := 0x100, msb := 0, lsb := 0, acc := .rh, kept := 0, cls := .status }
/-- SYS_MODE.mirror (R37). -/
def SYS_MODE_mirror : Field :=
  { name := "SYS_MODE_mirror", block := 0, off := 0x100, msb := 1, lsb := 1, acc := .rh, kept := 0, cls := .status }
/-- SYS_MODE.reduce (R37). -/
def SYS_MODE_reduce : Field :=
  { name := "SYS_MODE_reduce", block := 0, off := 0x100, msb := 2, lsb := 2, acc := .rh, kept := 0, cls := .status }
/-- SYS_MODE.seal (R37). -/
def SYS_MODE_seal : Field :=
  { name := "SYS_MODE_seal", block := 0, off := 0x100, msb := 3, lsb := 3, acc := .rh, kept := 0, cls := .status }
/-- SYS_MODE.freeze (R37). -/
def SYS_MODE_freeze : Field :=
  { name := "SYS_MODE_freeze", block := 0, off := 0x100, msb := 4, lsb := 4, acc := .rh, kept := 0, cls := .status }
/-- SYS_MODE.replicate (R37). -/
def SYS_MODE_replicate : Field :=
  { name := "SYS_MODE_replicate", block := 0, off := 0x100, msb := 5, lsb := 5, acc := .rh, kept := 0, cls := .status }
/-- SYS_MODE.rebuild (R37). -/
def SYS_MODE_rebuild : Field :=
  { name := "SYS_MODE_rebuild", block := 0, off := 0x100, msb := 6, lsb := 6, acc := .rh, kept := 0, cls := .status }
/-- SYS_MODE.reshape (R37). -/
def SYS_MODE_reshape : Field :=
  { name := "SYS_MODE_reshape", block := 0, off := 0x100, msb := 7, lsb := 7, acc := .rh, kept := 0, cls := .status }
/-- SYS_MODE.trans (R37). -/
def SYS_MODE_trans : Field :=
  { name := "SYS_MODE_trans", block := 0, off := 0x100, msb := 23, lsb := 16, acc := .rh, kept := 0, cls := .status }
/-- SYS_MODE_REQ.capture (R37). -/
def SYS_MODE_REQ_capture : Field :=
  { name := "SYS_MODE_REQ_capture", block := 0, off := 0x104, msb := 0, lsb := 0, acc := .rw, kept := 63, cls := .config }
/-- SYS_MODE_REQ.mirror (R37). -/
def SYS_MODE_REQ_mirror : Field :=
  { name := "SYS_MODE_REQ_mirror", block := 0, off := 0x104, msb := 1, lsb := 1, acc := .rw, kept := 63, cls := .config }
/-- SYS_MODE_REQ.reduce (R37). -/
def SYS_MODE_REQ_reduce : Field :=
  { name := "SYS_MODE_REQ_reduce", block := 0, off := 0x104, msb := 2, lsb := 2, acc := .rw, kept := 63, cls := .config }
/-- SYS_MODE_REQ.seal (R37). -/
def SYS_MODE_REQ_seal : Field :=
  { name := "SYS_MODE_REQ_seal", block := 0, off := 0x104, msb := 3, lsb := 3, acc := .rw, kept := 63, cls := .config }
/-- SYS_MODE_REQ.replicate (R37). -/
def SYS_MODE_REQ_replicate : Field :=
  { name := "SYS_MODE_REQ_replicate", block := 0, off := 0x104, msb := 5, lsb := 5, acc := .rw, kept := 63, cls := .config }
/-- SYS_MODE_REQ.reshape (R37). -/
def SYS_MODE_REQ_reshape : Field :=
  { name := "SYS_MODE_REQ_reshape", block := 0, off := 0x104, msb := 7, lsb := 7, acc := .rw, kept := 63, cls := .config }
/-- SYS_MODE_CTL.rbld_pause (R37). -/
def SYS_MODE_CTL_rbld_pause : Field :=
  { name := "SYS_MODE_CTL_rbld_pause", block := 0, off := 0x108, msb := 0, lsb := 0, acc := .rw, kept := 59, cls := .config }
/-- SYS_MODE_CTL.reshape_cancel (R37). -/
def SYS_MODE_CTL_reshape_cancel : Field :=
  { name := "SYS_MODE_CTL_reshape_cancel", block := 0, off := 0x108, msb := 1, lsb := 1, acc := .w1p, kept := 0,
    cls := .action }
/-- SYS_MODE_CTL.rbld_floor (R37). -/
def SYS_MODE_CTL_rbld_floor : Field :=
  { name := "SYS_MODE_CTL_rbld_floor", block := 0, off := 0x108, msb := 15, lsb := 8, acc := .rwlk, reset := 0xa, kept := 63,
    cls := .config, lo := 5, hi := some 50 }
/-- SYS_MODE_STAT.pending (R37). -/
def SYS_MODE_STAT_pending : Field :=
  { name := "SYS_MODE_STAT_pending", block := 0, off := 0x10c, msb := 7, lsb := 0, acc := .rh, kept := 0, cls := .status }
/-- SYS_MODE_STAT.cause (R37). -/
def SYS_MODE_STAT_cause : Field :=
  { name := "SYS_MODE_STAT_cause", block := 0, off := 0x10c, msb := 15, lsb := 8, acc := .rh, kept := 0, cls := .status }
/-- SYS_MODE_STAT.cause_mode (R37). -/
def SYS_MODE_STAT_cause_mode : Field :=
  { name := "SYS_MODE_STAT_cause_mode", block := 0, off := 0x10c, msb := 18, lsb := 16, acc := .rh, kept := 0,
    cls := .status }
/-- SYS_MODE_STAT.rbld_paused (R37). -/
def SYS_MODE_STAT_rbld_paused : Field :=
  { name := "SYS_MODE_STAT_rbld_paused", block := 0, off := 0x10c, msb := 19, lsb := 19, acc := .rh, kept := 0,
    cls := .status }
/-- SYS_MODE_STAT.reshape_phase (R37). -/
def SYS_MODE_STAT_reshape_phase : Field :=
  { name := "SYS_MODE_STAT_reshape_phase", block := 0, off := 0x10c, msb := 21, lsb := 20, acc := .rh, kept := 0,
    cls := .status }
/-- SYS_CFG_COMMIT.commit (R438). -/
def SYS_CFG_COMMIT_commit : Field :=
  { name := "SYS_CFG_COMMIT_commit", block := 0, off := 0x200, msb := 0, lsb := 0, acc := .w1p, kept := 0, cls := .action }
/-- SYS_CFG_COMMIT.accept_all (R438). -/
def SYS_CFG_COMMIT_accept_all : Field :=
  { name := "SYS_CFG_COMMIT_accept_all", block := 0, off := 0x200, msb := 1, lsb := 1, acc := .w1p, kept := 0,
    cls := .action }
/-- SYS_CFG_COMMIT.reapply (R438). -/
def SYS_CFG_COMMIT_reapply : Field :=
  { name := "SYS_CFG_COMMIT_reapply", block := 0, off := 0x200, msb := 2, lsb := 2, acc := .w1p, kept := 0, cls := .action }
/-- SYS_CFG_POLICY.policy (R438). -/
def SYS_CFG_POLICY_policy : Field :=
  { name := "SYS_CFG_POLICY_policy", block := 0, off := 0x204, msb := 0, lsb := 0, acc := .rwlk, kept := 63, cls := .config }
/-- SYS_CFG_POLICY.commit_window_ms (R438). -/
def SYS_CFG_POLICY_commit_window_ms : Field :=
  { name := "SYS_CFG_POLICY_commit_window_ms", block := 0, off := 0x204, msb := 15, lsb := 8, acc := .rw, reset := 0x64,
    kept := 24, cls := .config, lo := 1, hi := some 255 }
/-- SYS_CFG_STAT.pending (R438). -/
def SYS_CFG_STAT_pending : Field :=
  { name := "SYS_CFG_STAT_pending", block := 0, off := 0x208, msb := 0, lsb := 0, acc := .rh, kept := 24, cls := .status }
/-- SYS_CFG_STAT.committing (R438). -/
def SYS_CFG_STAT_committing : Field :=
  { name := "SYS_CFG_STAT_committing", block := 0, off := 0x208, msb := 1, lsb := 1, acc := .rh, kept := 24, cls := .status }
/-- SYS_CFG_STAT.drift (R438). -/
def SYS_CFG_STAT_drift : Field :=
  { name := "SYS_CFG_STAT_drift", block := 0, off := 0x208, msb := 2, lsb := 2, acc := .rh, kept := 24, cls := .status }
/-- SYS_CFG_STAT.frozen (R438). -/
def SYS_CFG_STAT_frozen : Field :=
  { name := "SYS_CFG_STAT_frozen", block := 0, off := 0x208, msb := 3, lsb := 3, acc := .rh, kept := 24, cls := .status }
/-- SYS_CFG_STAT.commit_failed (R438). -/
def SYS_CFG_STAT_commit_failed : Field :=
  { name := "SYS_CFG_STAT_commit_failed", block := 0, off := 0x208, msb := 4, lsb := 4, acc := .rh, kept := 24,
    cls := .status }
/-- SYS_CFG_STAT.reapplying (R438). -/
def SYS_CFG_STAT_reapplying : Field :=
  { name := "SYS_CFG_STAT_reapplying", block := 0, off := 0x208, msb := 5, lsb := 5, acc := .rh, kept := 24, cls := .status }
/-- SYS_CFG_TOUCHED.blocks (R438). -/
def SYS_CFG_TOUCHED_blocks : Field :=
  { name := "SYS_CFG_TOUCHED_blocks", block := 0, off := 0x20c, msb := 22, lsb := 0, acc := .rh, kept := 24, cls := .status }
/-- SYS_CFG_DRIFT.blocks (R438). -/
def SYS_CFG_DRIFT_blocks : Field :=
  { name := "SYS_CFG_DRIFT_blocks", block := 0, off := 0x210, msb := 22, lsb := 0, acc := .rh, kept := 24, cls := .status }
/-- SYS_CFG_CRC_REF.crc (R438). -/
def SYS_CFG_CRC_REF_crc : Field :=
  { name := "SYS_CFG_CRC_REF_crc", block := 0, off := 0x214, msb := 31, lsb := 0, acc := .rh, kept := 24, cls := .status }
/-- SYS_CFG_CRC_CUR.crc (R438). -/
def SYS_CFG_CRC_CUR_crc : Field :=
  { name := "SYS_CFG_CRC_CUR_crc", block := 0, off := 0x218, msb := 31, lsb := 0, acc := .rh, kept := 24, cls := .status }
/-- SYS_CFG_SWEEPS.sweeps (R438). -/
def SYS_CFG_sweeps : Field :=
  { name := "SYS_CFG_sweeps", block := 0, off := 0x220, msb := 63, lsb := 0, acc := .rh, kept := 24, cls := .counter,
    item := some 0 }
/-- SYS_INT_STAT.cfg_drift (R438). -/
def SYS_INT_STAT_cfg_drift : Field :=
  { name := "SYS_INT_STAT_cfg_drift", block := 0, off := 0x300, msb := 0, lsb := 0, acc := .sc, kept := 24, cls := .status,
    view := true }
/-- SYS_INT_STAT.mode_changed (R438). -/
def SYS_INT_STAT_mode_changed : Field :=
  { name := "SYS_INT_STAT_mode_changed", block := 0, off := 0x300, msb := 1, lsb := 1, acc := .sc, kept := 24,
    cls := .status, view := true }
/-- SYS_INT_STAT.mode_held (R438). -/
def SYS_INT_STAT_mode_held : Field :=
  { name := "SYS_INT_STAT_mode_held", block := 0, off := 0x300, msb := 2, lsb := 2, acc := .sc, kept := 24, cls := .status,
    view := true }
/-- SYS_INT_STAT.image_done (R438). -/
def SYS_INT_STAT_image_done : Field :=
  { name := "SYS_INT_STAT_image_done", block := 0, off := 0x300, msb := 3, lsb := 3, acc := .sc, kept := 24, cls := .status,
    view := true }
/-- SYS_INT_STAT.peer (R438). -/
def SYS_INT_STAT_peer : Field :=
  { name := "SYS_INT_STAT_peer", block := 0, off := 0x300, msb := 4, lsb := 4, acc := .sc, kept := 24, cls := .status,
    view := true }
/-- SYS_INT_STAT.ownership (R438). -/
def SYS_INT_STAT_ownership : Field :=
  { name := "SYS_INT_STAT_ownership", block := 0, off := 0x300, msb := 5, lsb := 5, acc := .sc, kept := 24, cls := .status,
    view := true }
/-- SYS_INT_STAT.thermal (R438). -/
def SYS_INT_STAT_thermal : Field :=
  { name := "SYS_INT_STAT_thermal", block := 0, off := 0x300, msb := 6, lsb := 6, acc := .sc, kept := 24, cls := .status,
    view := true }
/-- SYS_INT_STAT.power (R438). -/
def SYS_INT_STAT_power : Field :=
  { name := "SYS_INT_STAT_power", block := 0, off := 0x300, msb := 7, lsb := 7, acc := .sc, kept := 24, cls := .status,
    view := true }
/-- SYS_INT_STAT.keys (R438). -/
def SYS_INT_STAT_keys : Field :=
  { name := "SYS_INT_STAT_keys", block := 0, off := 0x300, msb := 8, lsb := 8, acc := .sc, kept := 24, cls := .status,
    view := true }
/-- SYS_INT_STAT.redundancy (R438). -/
def SYS_INT_STAT_redundancy : Field :=
  { name := "SYS_INT_STAT_redundancy", block := 0, off := 0x300, msb := 9, lsb := 9, acc := .sc, kept := 24, cls := .status,
    view := true }
/-- SYS_INT_STAT.pool_limit (R438). -/
def SYS_INT_STAT_pool_limit : Field :=
  { name := "SYS_INT_STAT_pool_limit", block := 0, off := 0x300, msb := 10, lsb := 10, acc := .sc, kept := 24,
    cls := .status, view := true }
/-- SYS_INT_STAT.watchdog (R438). -/
def SYS_INT_STAT_watchdog : Field :=
  { name := "SYS_INT_STAT_watchdog", block := 0, off := 0x300, msb := 11, lsb := 11, acc := .sc, kept := 24, cls := .status,
    view := true }
/-- SYS_INT_STAT.clamp (R438). -/
def SYS_INT_STAT_clamp : Field :=
  { name := "SYS_INT_STAT_clamp", block := 0, off := 0x300, msb := 12, lsb := 12, acc := .sc, kept := 24, cls := .status,
    view := true }
/-- SYS_INT_STAT.budget (R438). -/
def SYS_INT_STAT_budget : Field :=
  { name := "SYS_INT_STAT_budget", block := 0, off := 0x300, msb := 13, lsb := 13, acc := .sc, kept := 24, cls := .status,
    view := true }
/-- SYS_INT_STAT.frames (R438). -/
def SYS_INT_STAT_frames : Field :=
  { name := "SYS_INT_STAT_frames", block := 0, off := 0x300, msb := 14, lsb := 14, acc := .sc, kept := 24, cls := .status,
    view := true }
/-- SYS_INT_STAT.event (R438). -/
def SYS_INT_STAT_event : Field :=
  { name := "SYS_INT_STAT_event", block := 0, off := 0x300, msb := 15, lsb := 15, acc := .sc, kept := 24, cls := .status,
    view := true }
/-- SYS_INT_STAT.seq (R438). -/
def SYS_INT_STAT_seq : Field :=
  { name := "SYS_INT_STAT_seq", block := 0, off := 0x300, msb := 31, lsb := 20, acc := .sc, kept := 24, cls := .status,
    view := true }
/-- SYS_INT_EN.enable (R438). -/
def SYS_INT_EN_enable : Field :=
  { name := "SYS_INT_EN_enable", block := 0, off := 0x304, msb := 19, lsb := 0, acc := .rw, kept := 24, cls := .config }
/-- SYS_INT_CFG.vector (R438). -/
def SYS_INT_CFG_vector : Field :=
  { name := "SYS_INT_CFG_vector", block := 0, off := 0x308, msb := 7, lsb := 0, acc := .rw, kept := 24, cls := .config,
    lo := 0, hi := some 128 }
/-- SYS_INT_CFG.msg_on (R438). -/
def SYS_INT_CFG_msg_on : Field :=
  { name := "SYS_INT_CFG_msg_on", block := 0, off := 0x308, msb := 8, lsb := 8, acc := .rw, kept := 24, cls := .config }
/-- SYS_SUMMARY_SEQ.snap_seq (R439). -/
def SYS_SUMMARY_SEQ_snap_seq : Field :=
  { name := "SYS_SUMMARY_SEQ_snap_seq", block := 0, off := 0x1000, msb := 31, lsb := 0, acc := .ro, kept := 0, cls := .fixed,
    view := true }
/-- RST_STAT.last_reset (R419). -/
def RST_STAT_last_reset : Field :=
  { name := "RST_STAT_last_reset", block := 1, off := 0x10000, msb := 3, lsb := 0, acc := .rh, kept := 24, cls := .status }
/-- RST_STAT.ps (R419). -/
def RST_STAT_ps : Field :=
  { name := "RST_STAT_ps", block := 1, off := 0x10000, msb := 5, lsb := 4, acc := .rh, kept := 24, cls := .status }
/-- RST_STAT.recovering (R419). -/
def RST_STAT_recovering : Field :=
  { name := "RST_STAT_recovering", block := 1, off := 0x10000, msb := 6, lsb := 6, acc := .rh, kept := 24, cls := .status }
/-- RST_STAT.pwr_fail_n (R419). -/
def RST_STAT_pwr_fail_n : Field :=
  { name := "RST_STAT_pwr_fail_n", block := 1, off := 0x10000, msb := 7, lsb := 7, acc := .rh, kept := 24, cls := .status,
    view := true }
/-- RST_STAT.holdup_ok (R419). -/
def RST_STAT_holdup_ok : Field :=
  { name := "RST_STAT_holdup_ok", block := 1, off := 0x10000, msb := 8, lsb := 8, acc := .rh, kept := 24, cls := .status,
    view := true }
/-- RST_STAT.drain_state (R419). -/
def RST_STAT_drain_state : Field :=
  { name := "RST_STAT_drain_state", block := 1, off := 0x10000, msb := 11, lsb := 9, acc := .rh, kept := 24, cls := .status }
/-- RST_STAT.drain_limited (R419). -/
def RST_STAT_drain_limited : Field :=
  { name := "RST_STAT_drain_limited", block := 1, off := 0x10000, msb := 12, lsb := 12, acc := .rh, kept := 24,
    cls := .status }
/-- RST_STAT.holdup_low_active (R419). -/
def RST_STAT_holdup_low_active : Field :=
  { name := "RST_STAT_holdup_low_active", block := 1, off := 0x10000, msb := 13, lsb := 13, acc := .rh, kept := 24,
    cls := .status }
/-- RST_CTL.warm_reset (R419). -/
def RST_CTL_warm_reset : Field :=
  { name := "RST_CTL_warm_reset", block := 1, off := 0x10004, msb := 0, lsb := 0, acc := .w1p, kept := 0, cls := .action }
/-- RST_CTL.l3_req (R419). -/
def RST_CTL_l3_req : Field :=
  { name := "RST_CTL_l3_req", block := 1, off := 0x10004, msb := 1, lsb := 1, acc := .w1p, kept := 0, cls := .action }
/-- RST_CTL.holdup_low_mib (R419). -/
def RST_CTL_holdup_low_mib : Field :=
  { name := "RST_CTL_holdup_low_mib", block := 1, off := 0x10004, msb := 28, lsb := 16, acc := .rwlk, reset := 0x100,
    kept := 63, cls := .config, lo := 64, hi := some 4096 }
/-- RST_L3_RES.result (R419). -/
def RST_L3_RES_result : Field :=
  { name := "RST_L3_RES_result", block := 1, off := 0x10008, msb := 2, lsb := 0, acc := .rh, kept := 24, cls := .status }
/-- RST_DRAIN_CAP.budget_eff_mib (R419). -/
def RST_DRAIN_CAP_budget_eff_mib : Field :=
  { name := "RST_DRAIN_CAP_budget_eff_mib", block := 1, off := 0x10010, msb := 13, lsb := 0, acc := .rh, kept := 24,
    cls := .status }
/-- RST_DRAIN_CAP.drain_gbs (R419). -/
def RST_DRAIN_CAP_drain_gbs : Field :=
  { name := "RST_DRAIN_CAP_drain_gbs", block := 1, off := 0x10010, msb := 25, lsb := 16, acc := .rh, kept := 24,
    cls := .status }
/-- RST_CYCLES.cycles (R419). -/
def RST_CYCLES_cycles : Field :=
  { name := "RST_CYCLES_cycles", block := 1, off := 0x10018, msb := 63, lsb := 0, acc := .rh, kept := 63, cls := .status }
/-- RST_DRAIN_TIME.duration_ns (R419). -/
def RST_DRAIN_TIME_duration_ns : Field :=
  { name := "RST_DRAIN_TIME_duration_ns", block := 1, off := 0x10020, msb := 63, lsb := 0, acc := .rh, kept := 63,
    cls := .status }
/-- RST_DRAIN_BYTES.bytes (R419). -/
def RST_DRAIN_BYTES_bytes : Field :=
  { name := "RST_DRAIN_BYTES_bytes", block := 1, off := 0x10028, msb := 63, lsb := 0, acc := .rh, kept := 63, cls := .status }
/-- RST_DRAIN_LOST.slots (R419). -/
def RST_DRAIN_LOST_slots : Field :=
  { name := "RST_DRAIN_LOST_slots", block := 1, off := 0x10030, msb := 63, lsb := 0, acc := .rh, kept := 63, cls := .status }
/-- RST_PWR_FAIL_EVENTS.pwr_fail_events (R419). -/
def RST_pwr_fail_events : Field :=
  { name := "RST_pwr_fail_events", block := 1, off := 0x10100, msb := 63, lsb := 0, acc := .rh, kept := 63, cls := .counter,
    item := some 0 }
/-- RST_PWR_FAIL_GLITCHES.pwr_fail_glitches (R419). -/
def RST_pwr_fail_glitches : Field :=
  { name := "RST_pwr_fail_glitches", block := 1, off := 0x10108, msb := 63, lsb := 0, acc := .rh, kept := 63,
    cls := .counter, item := some 1 }
/-- RST_DRAINS.drains (R419). -/
def RST_drains : Field :=
  { name := "RST_drains", block := 1, off := 0x10110, msb := 63, lsb := 0, acc := .rh, kept := 63, cls := .counter,
    item := some 2 }
/-- RST_DRAINS_CUT_SHORT.drains_cut_short (R419). -/
def RST_drains_cut_short : Field :=
  { name := "RST_drains_cut_short", block := 1, off := 0x10118, msb := 63, lsb := 0, acc := .rh, kept := 63, cls := .counter,
    item := some 3 }
/-- RST_WARM_RESETS.warm_resets (R419). -/
def RST_warm_resets : Field :=
  { name := "RST_warm_resets", block := 1, off := 0x10120, msb := 63, lsb := 0, acc := .rh, kept := 63, cls := .counter,
    item := some 4 }
/-- RST_WATCHDOG_RESETS.watchdog_resets (R419). -/
def RST_watchdog_resets : Field :=
  { name := "RST_watchdog_resets", block := 1, off := 0x10128, msb := 63, lsb := 0, acc := .rh, kept := 63, cls := .counter,
    item := some 5 }
/-- RST_TAKEOVER_RESETS.takeover_resets (R419). -/
def RST_takeover_resets : Field :=
  { name := "RST_takeover_resets", block := 1, off := 0x10130, msb := 63, lsb := 0, acc := .rh, kept := 63, cls := .counter,
    item := some 6 }
/-- RST_L3_ENTRIES.l3_entries (R419). -/
def RST_l3_entries : Field :=
  { name := "RST_l3_entries", block := 1, off := 0x10138, msb := 63, lsb := 0, acc := .rh, kept := 63, cls := .counter,
    item := some 7 }
/-- RST_HOLDUP_LOW_NS.holdup_low_ns (R419). -/
def RST_holdup_low_ns : Field :=
  { name := "RST_holdup_low_ns", block := 1, off := 0x10140, msb := 63, lsb := 0, acc := .rh, kept := 63, cls := .counter,
    item := some 8 }
/-- THM_STAT.latch (R420). -/
def THM_STAT_latch : Field :=
  { name := "THM_STAT_latch", block := 2, off := 0x20000, msb := 0, lsb := 0, acc := .rh, kept := 63, cls := .status }
/-- THM_STAT.drain (R420). -/
def THM_STAT_drain : Field :=
  { name := "THM_STAT_drain", block := 2, off := 0x20000, msb := 1, lsb := 1, acc := .rh, kept := 24, cls := .status }
/-- THM_STAT.over_max (R420). -/
def THM_STAT_over_max : Field :=
  { name := "THM_STAT_over_max", block := 2, off := 0x20000, msb := 2, lsb := 2, acc := .rh, kept := 24, cls := .status }
/-- THM_STAT.tj_band (R420). -/
def THM_STAT_tj_band : Field :=
  { name := "THM_STAT_tj_band", block := 2, off := 0x20000, msb := 10, lsb := 8, acc := .rh, reset := 2, kept := 24,
    cls := .status }
/-- THM_STAT.remote_fault (R420). -/
def THM_STAT_remote_fault : Field :=
  { name := "THM_STAT_remote_fault", block := 2, off := 0x20000, msb := 31, lsb := 16, acc := .rh, kept := 24,
    cls := .status }
/-- THM_DIE0.temps (R420). -/
def THM_DIE0_temps : Field :=
  { name := "THM_DIE0_temps", block := 2, off := 0x20004, msb := 31, lsb := 0, acc := .rh, kept := 24, cls := .status }
/-- THM_DIE1.temps (R420). -/
def THM_DIE1_temps : Field :=
  { name := "THM_DIE1_temps", block := 2, off := 0x20008, msb := 31, lsb := 0, acc := .rh, kept := 24, cls := .status }
/-- THM_TJ_MAX.tj_max (R420). -/
def THM_TJ_MAX_tj_max : Field :=
  { name := "THM_TJ_MAX_tj_max", block := 2, off := 0x2000c, msb := 7, lsb := 0, acc := .rh, kept := 63, cls := .status }
/-- THM_BANDS.bands (R420). -/
def THM_BANDS_bands : Field :=
  { name := "THM_BANDS_bands", block := 2, off := 0x20010, msb := 23, lsb := 0, acc := .rh, kept := 24, cls := .status }
/-- THM_T.temp (R420). -/
def THM_T_temp : Field :=
  { name := "THM_T_temp", block := 2, off := 0x20040, msb := 7, lsb := 0, acc := .rh, kept := 24, cls := .status,
    count := 16, stride := 0x4 }
/-- THM_T.valid (R420). -/
def THM_T_valid : Field :=
  { name := "THM_T_valid", block := 2, off := 0x20040, msb := 8, lsb := 8, acc := .rh, kept := 24, cls := .status,
    count := 16, stride := 0x4 }
/-- THM_T.fault (R420). -/
def THM_T_fault : Field :=
  { name := "THM_T_fault", block := 2, off := 0x20040, msb := 9, lsb := 9, acc := .rh, kept := 24, cls := .status,
    count := 16, stride := 0x4 }
/-- THM_T.high (R420). -/
def THM_T_high : Field :=
  { name := "THM_T_high", block := 2, off := 0x20040, msb := 10, lsb := 10, acc := .rh, kept := 24, cls := .status,
    count := 16, stride := 0x4 }
/-- THM_T.crit (R420). -/
def THM_T_crit : Field :=
  { name := "THM_T_crit", block := 2, off := 0x20040, msb := 11, lsb := 11, acc := .rh, kept := 24, cls := .status,
    count := 16, stride := 0x4 }
/-- THM_T.band (R420). -/
def THM_T_band : Field :=
  { name := "THM_T_band", block := 2, off := 0x20040, msb := 14, lsb := 12, acc := .rh, kept := 24, cls := .status,
    count := 16, stride := 0x4 }
/-- THM_T_CFG.high_c (R420). -/
def THM_T_CFG_high_c : Field :=
  { name := "THM_T_CFG_high_c", block := 2, off := 0x20080, msb := 7, lsb := 0, acc := .rwlk, reset := 0x55, kept := 63,
    cls := .config, count := 16, stride := 0x4 }
/-- THM_T_CFG.crit_c (R420). -/
def THM_T_CFG_crit_c : Field :=
  { name := "THM_T_CFG_crit_c", block := 2, off := 0x20080, msb := 15, lsb := 8, acc := .rwlk, reset := 0x64, kept := 63,
    cls := .config, count := 16, stride := 0x4 }
/-- THM_T_CFG.crit_drain (R420). -/
def THM_T_CFG_crit_drain : Field :=
  { name := "THM_T_CFG_crit_drain", block := 2, off := 0x20080, msb := 16, lsb := 16, acc := .rwlk, reset := 1, kept := 63,
    cls := .config, count := 16, stride := 0x4 }
/-- THM_THERMAL_DRAINS.thermal_drains (R420). -/
def THM_thermal_drains : Field :=
  { name := "THM_thermal_drains", block := 2, off := 0x20100, msb := 63, lsb := 0, acc := .rh, kept := 24, cls := .counter,
    item := some 0 }
/-- THM_THERMAL_DRAIN_NS.thermal_drain_ns (R420). -/
def THM_thermal_drain_ns : Field :=
  { name := "THM_thermal_drain_ns", block := 2, off := 0x20108, msb := 63, lsb := 0, acc := .rh, kept := 24, cls := .counter,
    item := some 1 }
/-- THM_OVER_MAX_EVENTS.over_max_events (R420). -/
def THM_over_max_events : Field :=
  { name := "THM_over_max_events", block := 2, off := 0x20110, msb := 63, lsb := 0, acc := .rh, kept := 24, cls := .counter,
    item := some 2 }
/-- THM_REMOTE_HIGH_EVENTS.remote_high_events (R420). -/
def THM_remote_high_events : Field :=
  { name := "THM_remote_high_events", block := 2, off := 0x20118, msb := 63, lsb := 0, acc := .rh, kept := 24,
    cls := .counter, item := some 3 }
/-- THM_REMOTE_FAULTS.remote_faults (R420). -/
def THM_remote_faults : Field :=
  { name := "THM_remote_faults", block := 2, off := 0x20120, msb := 63, lsb := 0, acc := .rh, kept := 24, cls := .counter,
    item := some 4 }
/-- THM_BAND_CHANGES.band_changes (R420). -/
def THM_band_changes : Field :=
  { name := "THM_band_changes", block := 2, off := 0x20128, msb := 63, lsb := 0, acc := .rh, kept := 24, cls := .counter,
    item := some 5 }
/-- WDT_CFG.timeout_ms (R400). -/
def WDT_CFG_timeout_ms : Field :=
  { name := "WDT_CFG_timeout_ms", block := 3, off := 0x30000, msb := 13, lsb := 0, acc := .rwlk, reset := 0x64, kept := 24,
    cls := .config, lo := 10, hi := some 10000 }
/-- WDT_STAT.stage (R400). -/
def WDT_STAT_stage : Field :=
  { name := "WDT_STAT_stage", block := 3, off := 0x30004, msb := 1, lsb := 0, acc := .rh, kept := 24, cls := .status }
/-- WDT_STAT.last_reset (R400). -/
def WDT_STAT_last_reset : Field :=
  { name := "WDT_STAT_last_reset", block := 3, off := 0x30004, msb := 7, lsb := 4, acc := .rh, kept := 31, cls := .status }
/-- WDT_SE_OUT.se (R400). -/
def WDT_SE_OUT_se : Field :=
  { name := "WDT_SE_OUT_se", block := 3, off := 0x30010, msb := 31, lsb := 0, acc := .rh, kept := 24, cls := .status }
/-- WDT_CC_OUT.cc (R400). -/
def WDT_CC_OUT_cc : Field :=
  { name := "WDT_CC_OUT_cc", block := 3, off := 0x30014, msb := 15, lsb := 0, acc := .rh, kept := 24, cls := .status }
/-- WDT_UNITS_OUT.codec (R400). -/
def WDT_UNITS_OUT_codec : Field :=
  { name := "WDT_UNITS_OUT_codec", block := 3, off := 0x30018, msb := 5, lsb := 0, acc := .rh, kept := 24, cls := .status }
/-- WDT_UNITS_OUT.hash (R400). -/
def WDT_UNITS_OUT_hash : Field :=
  { name := "WDT_UNITS_OUT_hash", block := 3, off := 0x30018, msb := 12, lsb := 8, acc := .rh, kept := 24, cls := .status }
/-- WDT_UNITS_OUT.aes (R400). -/
def WDT_UNITS_OUT_aes : Field :=
  { name := "WDT_UNITS_OUT_aes", block := 3, off := 0x30018, msb := 20, lsb := 16, acc := .rh, kept := 24, cls := .status }
/-- WDT_UNITS_OUT.parity (R400). -/
def WDT_UNITS_OUT_parity : Field :=
  { name := "WDT_UNITS_OUT_parity", block := 3, off := 0x30018, msb := 27, lsb := 24, acc := .rh, kept := 24, cls := .status }
/-- WDT_UNITS_OUT.deep (R400). -/
def WDT_UNITS_OUT_deep : Field :=
  { name := "WDT_UNITS_OUT_deep", block := 3, off := 0x30018, msb := 31, lsb := 28, acc := .rh, kept := 24, cls := .status }
/-- WDT_LOOP_STAT.pinned (R400). -/
def WDT_LOOP_STAT_pinned : Field :=
  { name := "WDT_LOOP_STAT_pinned", block := 3, off := 0x30100, msb := 0, lsb := 0, acc := .ro, kept := 56, cls := .config,
    count := 5, stride := 0x20 }
/-- WDT_LOOP_STAT.clamped (R400). -/
def WDT_LOOP_STAT_clamped : Field :=
  { name := "WDT_LOOP_STAT_clamped", block := 3, off := 0x30100, msb := 1, lsb := 1, acc := .rh, kept := 24, cls := .status,
    count := 5, stride := 0x20 }
/-- WDT_LOOP_STAT.source (R400). -/
def WDT_LOOP_STAT_source : Field :=
  { name := "WDT_LOOP_STAT_source", block := 3, off := 0x30100, msb := 3, lsb := 2, acc := .rh, kept := 24, cls := .status,
    count := 5, stride := 0x20 }
/-- WDT_LOOP_VALUE.value (R400). -/
def WDT_LOOP_VALUE_value : Field :=
  { name := "WDT_LOOP_VALUE_value", block := 3, off := 0x30104, msb := 31, lsb := 0, acc := .rh, kept := 24, cls := .status,
    count := 5, stride := 0x20 }
/-- WDT_LOOP_LOWER.lower (R400). -/
def WDT_LOOP_LOWER_lower : Field :=
  { name := "WDT_LOOP_LOWER_lower", block := 3, off := 0x30108, msb := 31, lsb := 0, acc := .ro, kept := 56, cls := .config,
    count := 5, stride := 0x20 }
/-- WDT_LOOP_UPPER.upper (R400). -/
def WDT_LOOP_UPPER_upper : Field :=
  { name := "WDT_LOOP_UPPER_upper", block := 3, off := 0x3010c, msb := 31, lsb := 0, acc := .ro, kept := 56, cls := .config,
    count := 5, stride := 0x20 }
/-- WDT_LOOP_PIN.pin (R400). -/
def WDT_LOOP_PIN_pin : Field :=
  { name := "WDT_LOOP_PIN_pin", block := 3, off := 0x30110, msb := 31, lsb := 0, acc := .ro, kept := 56, cls := .config,
    count := 5, stride := 0x20 }
/-- WDT_LOOP_CLAMPS.clamps (R400). -/
def WDT_LOOP_CLAMPS_clamps : Field :=
  { name := "WDT_LOOP_CLAMPS_clamps", block := 3, off := 0x30118, msb := 63, lsb := 0, acc := .rh, kept := 24,
    cls := .counter, count := 5, stride := 0x20 }
/-- WDT_WDT_STAGE1.wdt_stage1 (R400). -/
def WDT_wdt_stage1 : Field :=
  { name := "WDT_wdt_stage1", block := 3, off := 0x30200, msb := 63, lsb := 0, acc := .rh, kept := 24, cls := .counter,
    item := some 0 }
/-- WDT_WDT_HELD.wdt_held (R400). -/
def WDT_wdt_held : Field :=
  { name := "WDT_wdt_held", block := 3, off := 0x30208, msb := 63, lsb := 0, acc := .rh, kept := 24, cls := .counter,
    item := some 1 }
/-- WDT_ENGINE_RESETS.engine_resets (R400). -/
def WDT_engine_resets : Field :=
  { name := "WDT_engine_resets", block := 3, off := 0x30210, msb := 63, lsb := 0, acc := .rh, kept := 24, cls := .counter,
    item := some 2 }
/-- WDT_ENGINES_RETIRED.engines_retired (R400). -/
def WDT_engines_retired : Field :=
  { name := "WDT_engines_retired", block := 3, off := 0x30218, msb := 63, lsb := 0, acc := .rh, kept := 24, cls := .counter,
    item := some 3 }
/-- WDT_UNITS_RETIRED.units_retired (R400). -/
def WDT_units_retired : Field :=
  { name := "WDT_units_retired", block := 3, off := 0x30220, msb := 63, lsb := 0, acc := .rh, kept := 24, cls := .counter,
    item := some 4 }
/-- WDT_UNIT_TRANSIENT.unit_transient (R400). -/
def WDT_unit_transient : Field :=
  { name := "WDT_unit_transient", block := 3, off := 0x30228, msb := 63, lsb := 0, acc := .rh, kept := 24, cls := .counter,
    item := some 5 }
/-- WDT_CFG_CRC_TRANSIENT.cfg_crc_transient (R400). -/
def WDT_cfg_crc_transient : Field :=
  { name := "WDT_cfg_crc_transient", block := 3, off := 0x30230, msb := 63, lsb := 0, acc := .rh, kept := 24,
    cls := .counter, item := some 6 }
/-- WDT_DRAIN_PRIORITY_WAITS.drain_priority_waits (R400). -/
def WDT_drain_priority_waits : Field :=
  { name := "WDT_drain_priority_waits", block := 3, off := 0x30238, msb := 63, lsb := 0, acc := .rh, kept := 24,
    cls := .counter, item := some 7 }
/-- IPT_STAT.active (R97). -/
def IPT_STAT_active : Field :=
  { name := "IPT_STAT_active", block := 4, off := 0x40000, msb := 7, lsb := 0, acc := .rh, kept := 24, cls := .status,
    view := true }
/-- IPT_STAT.standby (R97). -/
def IPT_STAT_standby : Field :=
  { name := "IPT_STAT_standby", block := 4, off := 0x40000, msb := 15, lsb := 8, acc := .rh, kept := 24, cls := .status,
    view := true }
/-- IPT_STAT.ipclk_ok (R97). -/
def IPT_STAT_ipclk_ok : Field :=
  { name := "IPT_STAT_ipclk_ok", block := 4, off := 0x40000, msb := 16, lsb := 16, acc := .rh, kept := 24, cls := .status }
/-- IPT_IPCLK_MEAS.khz (R97). -/
def IPT_IPCLK_MEAS_khz : Field :=
  { name := "IPT_IPCLK_MEAS_khz", block := 4, off := 0x40004, msb := 17, lsb := 0, acc := .rh, kept := 24, cls := .status }
/-- IPT_CH_CTL.ready_level (R97). -/
def IPT_CH_CTL_ready_level : Field :=
  { name := "IPT_CH_CTL_ready_level", block := 4, off := 0x41000, msb := 15, lsb := 0, acc := .rw, reset := 1, kept := 24,
    cls := .config, count := 8, stride := 0x1000, lo := 1, hi := some 65535 }
/-- IPT_CH_CTL.force_low (R97). -/
def IPT_CH_CTL_force_low : Field :=
  { name := "IPT_CH_CTL_force_low", block := 4, off := 0x41000, msb := 16, lsb := 16, acc := .rw, kept := 24, cls := .config,
    count := 8, stride := 0x1000 }
/-- IPT_CH_STAT.role (R97). -/
def IPT_CH_STAT_role : Field :=
  { name := "IPT_CH_STAT_role", block := 4, off := 0x41004, msb := 1, lsb := 0, acc := .rh, kept := 24, cls := .status,
    count := 8, stride := 0x1000, view := true }
/-- IPT_CH_STAT.ready (R97). -/
def IPT_CH_STAT_ready : Field :=
  { name := "IPT_CH_STAT_ready", block := 4, off := 0x41004, msb := 2, lsb := 2, acc := .rh, kept := 24, cls := .status,
    count := 8, stride := 0x1000, view := true }
/-- IPT_CH_STAT.hold (R97). -/
def IPT_CH_STAT_hold : Field :=
  { name := "IPT_CH_STAT_hold", block := 4, off := 0x41004, msb := 15, lsb := 8, acc := .rh, kept := 24, cls := .status,
    count := 8, stride := 0x1000, view := true }
/-- IPT_CH_SLOTS.slots (R97). -/
def IPT_CH_SLOTS_slots : Field :=
  { name := "IPT_CH_SLOTS_slots", block := 4, off := 0x41008, msb := 31, lsb := 0, acc := .rh, kept := 24, cls := .status,
    count := 8, stride := 0x1000, view := true }
/-- IPT_CH_SLOT_ADJ.amount (R97). -/
def IPT_CH_SLOT_ADJ_amount : Field :=
  { name := "IPT_CH_SLOT_ADJ_amount", block := 4, off := 0x4100c, msb := 15, lsb := 0, acc := .rw, kept := 24,
    cls := .pointer, count := 8, stride := 0x1000 }
/-- IPT_CH_SLOT_ADJ.apply (R97). -/
def IPT_CH_SLOT_ADJ_apply : Field :=
  { name := "IPT_CH_SLOT_ADJ_apply", block := 4, off := 0x4100c, msb := 31, lsb := 31, acc := .w1p, kept := 0,
    cls := .action, count := 8, stride := 0x1000 }
/-- IPT_CH_FNUM_BASE.base (R97). -/
def IPT_CH_FNUM_BASE_base : Field :=
  { name := "IPT_CH_FNUM_BASE_base", block := 4, off := 0x41010, msb := 31, lsb := 0, acc := .rw, kept := 24, cls := .config,
    count := 8, stride := 0x1000 }
/-- IPT_CH_FNUM_NEXT.next (R97). -/
def IPT_CH_FNUM_NEXT_next : Field :=
  { name := "IPT_CH_FNUM_NEXT_next", block := 4, off := 0x41014, msb := 31, lsb := 0, acc := .rh, kept := 24, cls := .status,
    count := 8, stride := 0x1000, view := true }
/-- IPT_CH_STROBES.strobes (R97). -/
def IPT_CH_strobes : Field :=
  { name := "IPT_CH_strobes", block := 4, off := 0x41040, msb := 63, lsb := 0, acc := .rh, kept := 24, cls := .counter,
    item := some 0, count := 8, stride := 0x1000 }
/-- IPT_CH_GLITCHES.glitches (R97). -/
def IPT_CH_glitches : Field :=
  { name := "IPT_CH_glitches", block := 4, off := 0x41048, msb := 63, lsb := 0, acc := .rh, kept := 24, cls := .counter,
    item := some 1, count := 8, stride := 0x1000 }
/-- IPT_CH_TOO_CLOSE.too_close (R97). -/
def IPT_CH_too_close : Field :=
  { name := "IPT_CH_too_close", block := 4, off := 0x41050, msb := 63, lsb := 0, acc := .rh, kept := 24, cls := .counter,
    item := some 2, count := 8, stride := 0x1000 }
/-- IPT_CH_OVERRUN.overrun (R97). -/
def IPT_CH_overrun : Field :=
  { name := "IPT_CH_overrun", block := 4, off := 0x41058, msb := 63, lsb := 0, acc := .rh, kept := 24, cls := .counter,
    item := some 3, count := 8, stride := 0x1000 }
/-- IPT_CH_ARRIVED.arrived (R97). -/
def IPT_CH_arrived : Field :=
  { name := "IPT_CH_arrived", block := 4, off := 0x41060, msb := 63, lsb := 0, acc := .rh, kept := 24, cls := .counter,
    item := some 4, count := 8, stride := 0x1000 }
/-- IPT_CH_LATE.late (R97). -/
def IPT_CH_late : Field :=
  { name := "IPT_CH_late", block := 4, off := 0x41068, msb := 63, lsb := 0, acc := .rh, kept := 24, cls := .counter,
    item := some 5, count := 8, stride := 0x1000 }
/-- IPT_CH_MISSING.missing (R97). -/
def IPT_CH_missing : Field :=
  { name := "IPT_CH_missing", block := 4, off := 0x41070, msb := 63, lsb := 0, acc := .rh, kept := 24, cls := .counter,
    item := some 6, count := 8, stride := 0x1000 }
/-- IPT_CH_UNSTROBED.unstrobed (R97). -/
def IPT_CH_unstrobed : Field :=
  { name := "IPT_CH_unstrobed", block := 4, off := 0x41078, msb := 63, lsb := 0, acc := .rh, kept := 24, cls := .counter,
    item := some 7, count := 8, stride := 0x1000 }
/-- IPT_CH_DUPLICATE.duplicate (R97). -/
def IPT_CH_duplicate : Field :=
  { name := "IPT_CH_duplicate", block := 4, off := 0x41080, msb := 63, lsb := 0, acc := .rh, kept := 24, cls := .counter,
    item := some 8, count := 8, stride := 0x1000 }
/-- IPT_CH_COMPLETION_FIRST.completion_first (R97). -/
def IPT_CH_completion_first : Field :=
  { name := "IPT_CH_completion_first", block := 4, off := 0x41088, msb := 63, lsb := 0, acc := .rh, kept := 24,
    cls := .counter, item := some 9, count := 8, stride := 0x1000 }
/-- IPT_CH_IDX_LOST.idx_lost (R97). -/
def IPT_CH_idx_lost : Field :=
  { name := "IPT_CH_idx_lost", block := 4, off := 0x41090, msb := 63, lsb := 0, acc := .rh, kept := 24, cls := .counter,
    item := some 10, count := 8, stride := 0x1000 }
/-- IPT_CH_READY_LOW_NS.ready_low_ns (R97). -/
def IPT_CH_ready_low_ns : Field :=
  { name := "IPT_CH_ready_low_ns", block := 4, off := 0x41098, msb := 63, lsb := 0, acc := .rh, kept := 24, cls := .counter,
    item := some 11, count := 8, stride := 0x1000 }
/-- IPT_CH_READY_LOW_EVENTS.ready_low_events (R97). -/
def IPT_CH_ready_low_events : Field :=
  { name := "IPT_CH_ready_low_events", block := 4, off := 0x410a0, msb := 63, lsb := 0, acc := .rh, kept := 24,
    cls := .counter, item := some 12, count := 8, stride := 0x1000 }
/-- IPT_CH_FLASH_DISCARDS.flash_discards (R97). -/
def IPT_CH_flash_discards : Field :=
  { name := "IPT_CH_flash_discards", block := 4, off := 0x410a8, msb := 63, lsb := 0, acc := .rh, kept := 24,
    cls := .counter, item := some 13, count := 8, stride := 0x1000 }
/-- IPT_CH_HIST_CFG.strobe_shift (R97). -/
def IPT_CH_HIST_CFG_strobe_shift : Field :=
  { name := "IPT_CH_HIST_CFG_strobe_shift", block := 4, off := 0x410b0, msb := 4, lsb := 0, acc := .rw, reset := 0xa,
    kept := 24, cls := .config, count := 8, stride := 0x1000, lo := 0, hi := some 20 }
/-- IPT_CH_HIST_CFG.arrival_shift (R97). -/
def IPT_CH_HIST_CFG_arrival_shift : Field :=
  { name := "IPT_CH_HIST_CFG_arrival_shift", block := 4, off := 0x410b0, msb := 12, lsb := 8, acc := .rw, reset := 0xa,
    kept := 24, cls := .config, count := 8, stride := 0x1000, lo := 0, hi := some 20 }
/-- IPT_CH_HIST_CFG.clear (R97). -/
def IPT_CH_HIST_CFG_clear : Field :=
  { name := "IPT_CH_HIST_CFG_clear", block := 4, off := 0x410b0, msb := 31, lsb := 31, acc := .w1p, kept := 0,
    cls := .action, count := 8, stride := 0x1000 }
/-- IPT_CH_LAST_TS.stamp (R97). -/
def IPT_CH_LAST_TS_stamp : Field :=
  { name := "IPT_CH_LAST_TS_stamp", block := 4, off := 0x410b8, msb := 63, lsb := 0, acc := .rh, kept := 24, cls := .status,
    count := 8, stride := 0x1000 }
/-- IPT_CH_HIST_S.bin (R97). -/
def IPT_CH_HIST_S_bin : Field :=
  { name := "IPT_CH_HIST_S_bin", block := 4, off := 0x41100, msb := 31, lsb := 0, acc := .rh, kept := 24, cls := .counter,
    count := 8, stride := 0x1000, count2 := 64, stride2 := 4 }
/-- IPT_CH_HIST_A.bin (R97). -/
def IPT_CH_HIST_A_bin : Field :=
  { name := "IPT_CH_HIST_A_bin", block := 4, off := 0x41200, msb := 31, lsb := 0, acc := .rh, kept := 24, cls := .counter,
    count := 8, stride := 0x1000, count2 := 64, stride2 := 4 }
/-- TMB_STAT.state (R98). -/
def TMB_STAT_state : Field :=
  { name := "TMB_STAT_state", block := 5, off := 0x50000, msb := 2, lsb := 0, acc := .rh, kept := 24, cls := .status }
/-- TMB_STAT.source (R98). -/
def TMB_STAT_source : Field :=
  { name := "TMB_STAT_source", block := 5, off := 0x50000, msb := 5, lsb := 4, acc := .ro, kept := 24, cls := .fixed }
/-- TMB_STAT.ever_locked (R98). -/
def TMB_STAT_ever_locked : Field :=
  { name := "TMB_STAT_ever_locked", block := 5, off := 0x50000, msb := 8, lsb := 8, acc := .rh, kept := 24, cls := .status }
/-- TMB_STAT.step_count (R98). -/
def TMB_STAT_step_count : Field :=
  { name := "TMB_STAT_step_count", block := 5, off := 0x50000, msb := 31, lsb := 16, acc := .rh, kept := 24, cls := .status }
/-- TMB_NOW.now (R98). -/
def TMB_NOW_now : Field :=
  { name := "TMB_NOW_now", block := 5, off := 0x50008, msb := 63, lsb := 0, acc := .rh, kept := 24, cls := .status,
    view := true }
/-- TMB_OFFSET.offset_ns (R98). -/
def TMB_OFFSET_offset_ns : Field :=
  { name := "TMB_OFFSET_offset_ns", block := 5, off := 0x50010, msb := 31, lsb := 0, acc := .rh, kept := 24, cls := .status }
/-- TMB_FREQ.freq_ppb (R98). -/
def TMB_FREQ_freq_ppb : Field :=
  { name := "TMB_FREQ_freq_ppb", block := 5, off := 0x50014, msb := 31, lsb := 0, acc := .rh, kept := 24, cls := .status }
/-- TMB_HOLD_LEFT.hold_left_s (R98). -/
def TMB_HOLD_LEFT_hold_left_s : Field :=
  { name := "TMB_HOLD_LEFT_hold_left_s", block := 5, off := 0x50018, msb := 31, lsb := 0, acc := .rh, kept := 24,
    cls := .status }
/-- TMB_SEC_SET.seconds (R98). -/
def TMB_SEC_SET_seconds : Field :=
  { name := "TMB_SEC_SET_seconds", block := 5, off := 0x50020, msb := 63, lsb := 0, acc := .rw, kept := 24, cls := .pointer }
/-- TMB_SEC_CTL.apply (R98). -/
def TMB_SEC_CTL_apply : Field :=
  { name := "TMB_SEC_CTL_apply", block := 5, off := 0x50028, msb := 0, lsb := 0, acc := .w1p, kept := 0, cls := .action }
/-- TMB_SEC_CTL.pending (R98). -/
def TMB_SEC_CTL_pending : Field :=
  { name := "TMB_SEC_CTL_pending", block := 5, off := 0x50028, msb := 1, lsb := 1, acc := .rh, kept := 24, cls := .status }
/-- TMB_TRIG_STAT.enabled (R98). -/
def TMB_TRIG_STAT_enabled : Field :=
  { name := "TMB_TRIG_STAT_enabled", block := 5, off := 0x50100, msb := 0, lsb := 0, acc := .rh, kept := 24, cls := .status,
    count := 4, stride := 0x20, view := true }
/-- TMB_TRIG_STAT.level (R98). -/
def TMB_TRIG_STAT_level : Field :=
  { name := "TMB_TRIG_STAT_level", block := 5, off := 0x50100, msb := 1, lsb := 1, acc := .rh, kept := 24, cls := .status,
    count := 4, stride := 0x20, view := true }
/-- TMB_TRIG_ISSUED.issued (R98). -/
def TMB_TRIG_ISSUED_issued : Field :=
  { name := "TMB_TRIG_ISSUED_issued", block := 5, off := 0x50104, msb := 31, lsb := 0, acc := .rh, kept := 24,
    cls := .status, count := 4, stride := 0x20 }
/-- TMB_TRIG_SKIPPED.skipped (R98). -/
def TMB_TRIG_SKIPPED_skipped : Field :=
  { name := "TMB_TRIG_SKIPPED_skipped", block := 5, off := 0x50108, msb := 31, lsb := 0, acc := .rh, kept := 24,
    cls := .status, count := 4, stride := 0x20 }
/-- TMB_TRIG_NEXT.next_ns (R98). -/
def TMB_TRIG_NEXT_next_ns : Field :=
  { name := "TMB_TRIG_NEXT_next_ns", block := 5, off := 0x50110, msb := 63, lsb := 0, acc := .rh, kept := 24, cls := .status,
    count := 4, stride := 0x20, view := true }
/-- NET_LINK.up (R133). -/
def NET_LINK_up : Field :=
  { name := "NET_LINK_up", block := 6, off := 0x80000, msb := 47, lsb := 0, acc := .rh, kept := 24, cls := .status }
/-- NET_P_CFG.split (R133). -/
def NET_P_CFG_split : Field :=
  { name := "NET_P_CFG_split", block := 6, off := 0x81000, msb := 1, lsb := 0, acc := .ro, kept := 56, cls := .config,
    count := 6, stride := 0x1000 }
/-- NET_P_CFG.enabled (R133). -/
def NET_P_CFG_enabled : Field :=
  { name := "NET_P_CFG_enabled", block := 6, off := 0x81000, msb := 2, lsb := 2, acc := .ro, kept := 56, cls := .config,
    count := 6, stride := 0x1000 }
/-- NET_P_CFG.pfc_mask (R133). -/
def NET_P_CFG_pfc_mask : Field :=
  { name := "NET_P_CFG_pfc_mask", block := 6, off := 0x81000, msb := 15, lsb := 8, acc := .ro, kept := 56, cls := .config,
    count := 6, stride := 0x1000 }
/-- NET_P_STAT.up (R133). -/
def NET_P_STAT_up : Field :=
  { name := "NET_P_STAT_up", block := 6, off := 0x81004, msb := 7, lsb := 0, acc := .rh, kept := 24, cls := .status,
    count := 6, stride := 0x1000 }
/-- NET_P_STAT.xoff_tx (R133). -/
def NET_P_STAT_xoff_tx : Field :=
  { name := "NET_P_STAT_xoff_tx", block := 6, off := 0x81004, msb := 15, lsb := 8, acc := .rh, kept := 24, cls := .status,
    count := 6, stride := 0x1000 }
/-- NET_P_STAT.xoff_rx (R133). -/
def NET_P_STAT_xoff_rx : Field :=
  { name := "NET_P_STAT_xoff_rx", block := 6, off := 0x81004, msb := 23, lsb := 16, acc := .rh, kept := 24, cls := .status,
    count := 6, stride := 0x1000 }
/-- NET_P_CTL.force_down (R133). -/
def NET_P_CTL_force_down : Field :=
  { name := "NET_P_CTL_force_down", block := 6, off := 0x81008, msb := 7, lsb := 0, acc := .rw, kept := 24, cls := .config,
    count := 6, stride := 0x1000 }
/-- NET_P_CTL.miss_pfc_kib (R133). -/
def NET_P_CTL_miss_pfc_kib : Field :=
  { name := "NET_P_CTL_miss_pfc_kib", block := 6, off := 0x81008, msb := 26, lsb := 16, acc := .rw, reset := 0x300,
    kept := 24, cls := .config, count := 6, stride := 0x1000, lo := 64, hi := some 1024 }
/-- NET_P_RX_PACKETS.rx_packets (R133). -/
def NET_P_rx_packets : Field :=
  { name := "NET_P_rx_packets", block := 6, off := 0x81100, msb := 63, lsb := 0, acc := .rh, kept := 24, cls := .counter,
    item := some 0, count := 6, stride := 0x1000 }
/-- NET_P_RX_BYTES.rx_bytes (R133). -/
def NET_P_rx_bytes : Field :=
  { name := "NET_P_rx_bytes", block := 6, off := 0x81108, msb := 63, lsb := 0, acc := .rh, kept := 24, cls := .counter,
    item := some 1, count := 6, stride := 0x1000 }
/-- NET_P_TX_PACKETS.tx_packets (R133). -/
def NET_P_tx_packets : Field :=
  { name := "NET_P_tx_packets", block := 6, off := 0x81110, msb := 63, lsb := 0, acc := .rh, kept := 24, cls := .counter,
    item := some 2, count := 6, stride := 0x1000 }
/-- NET_P_TX_BYTES.tx_bytes (R133). -/
def NET_P_tx_bytes : Field :=
  { name := "NET_P_tx_bytes", block := 6, off := 0x81118, msb := 63, lsb := 0, acc := .rh, kept := 24, cls := .counter,
    item := some 3, count := 6, stride := 0x1000 }
/-- NET_P_FCS_ERR.fcs_err (R133). -/
def NET_P_fcs_err : Field :=
  { name := "NET_P_fcs_err", block := 6, off := 0x81120, msb := 63, lsb := 0, acc := .rh, kept := 24, cls := .counter,
    item := some 4, count := 6, stride := 0x1000 }
/-- NET_P_ICRC_ERR.icrc_err (R133). -/
def NET_P_icrc_err : Field :=
  { name := "NET_P_icrc_err", block := 6, off := 0x81128, msb := 63, lsb := 0, acc := .rh, kept := 24, cls := .counter,
    item := some 5, count := 6, stride := 0x1000 }
/-- NET_P_XOFF_SENT.xoff_sent (R133). -/
def NET_P_xoff_sent : Field :=
  { name := "NET_P_xoff_sent", block := 6, off := 0x81130, msb := 63, lsb := 0, acc := .rh, kept := 24, cls := .counter,
    item := some 6, count := 6, stride := 0x1000 }
/-- NET_P_XOFF_RCVD.xoff_rcvd (R133). -/
def NET_P_xoff_rcvd : Field :=
  { name := "NET_P_xoff_rcvd", block := 6, off := 0x81138, msb := 63, lsb := 0, acc := .rh, kept := 24, cls := .counter,
    item := some 7, count := 6, stride := 0x1000 }
/-- NET_P_CNP_SENT.cnp_sent (R133). -/
def NET_P_cnp_sent : Field :=
  { name := "NET_P_cnp_sent", block := 6, off := 0x81140, msb := 63, lsb := 0, acc := .rh, kept := 24, cls := .counter,
    item := some 8, count := 6, stride := 0x1000 }
/-- NET_P_CNP_RCVD.cnp_rcvd (R133). -/
def NET_P_cnp_rcvd : Field :=
  { name := "NET_P_cnp_rcvd", block := 6, off := 0x81148, msb := 63, lsb := 0, acc := .rh, kept := 24, cls := .counter,
    item := some 9, count := 6, stride := 0x1000 }
/-- NET_P_MISS_DROPS.miss_drops (R133). -/
def NET_P_miss_drops : Field :=
  { name := "NET_P_miss_drops", block := 6, off := 0x81150, msb := 63, lsb := 0, acc := .rh, kept := 24, cls := .counter,
    item := some 10, count := 6, stride := 0x1000 }
/-- NET_P_PAUSED_NS.paused_ns (R133). -/
def NET_P_paused_ns : Field :=
  { name := "NET_P_paused_ns", block := 6, off := 0x81158, msb := 63, lsb := 0, acc := .rh, kept := 24, cls := .counter,
    item := some 11, count := 6, stride := 0x1000 }
/-- RDM_STAT.qps_open (R134). -/
def RDM_STAT_qps_open : Field :=
  { name := "RDM_STAT_qps_open", block := 7, off := 0x100000, msb := 17, lsb := 0, acc := .rh, kept := 24, cls := .status,
    view := true }
/-- RDM_CACHE.cached (R134). -/
def RDM_CACHE_cached : Field :=
  { name := "RDM_CACHE_cached", block := 7, off := 0x100004, msb := 15, lsb := 0, acc := .rh, kept := 24, cls := .status,
    view := true }
/-- RDM_CACHE.pinned (R134). -/
def RDM_CACHE_pinned : Field :=
  { name := "RDM_CACHE_pinned", block := 7, off := 0x100004, msb := 31, lsb := 16, acc := .rh, kept := 24, cls := .status,
    view := true }
/-- RDM_MISS.occ_kib (R134). -/
def RDM_MISS_occ_kib : Field :=
  { name := "RDM_MISS_occ_kib", block := 7, off := 0x100008, msb := 12, lsb := 0, acc := .rh, kept := 24, cls := .status,
    view := true }
/-- RDM_MISS.trackers (R134). -/
def RDM_MISS_trackers : Field :=
  { name := "RDM_MISS_trackers", block := 7, off := 0x100008, msb := 26, lsb := 16, acc := .rh, kept := 24, cls := .status,
    view := true }
/-- RDM_CTL.credit_refresh_us (R134). -/
def RDM_CTL_credit_refresh_us : Field :=
  { name := "RDM_CTL_credit_refresh_us", block := 7, off := 0x100010, msb := 15, lsb := 0, acc := .rw, reset := 0x64,
    kept := 24, cls := .config, lo := 10, hi := some 10000 }
/-- RDM_CTL.rnr_code (R134). -/
def RDM_CTL_rnr_code : Field :=
  { name := "RDM_CTL_rnr_code", block := 7, off := 0x100010, msb := 20, lsb := 16, acc := .rw, reset := 1, kept := 24,
    cls := .config }
/-- RDM_CTL.cnp_interval_us (R134). -/
def RDM_CTL_cnp_interval_us : Field :=
  { name := "RDM_CTL_cnp_interval_us", block := 7, off := 0x100010, msb := 31, lsb := 24, acc := .rw, reset := 0x32,
    kept := 24, cls := .config, lo := 1, hi := some 255 }
/-- RDM_CTL2.auto_reopen (R134). -/
def RDM_CTL2_auto_reopen : Field :=
  { name := "RDM_CTL2_auto_reopen", block := 7, off := 0x100014, msb := 0, lsb := 0, acc := .rw, kept := 24, cls := .config }
/-- RDM_QP_SEL.qpn (R134). -/
def RDM_QP_SEL_qpn : Field :=
  { name := "RDM_QP_SEL_qpn", block := 7, off := 0x100020, msb := 16, lsb := 0, acc := .rw, kept := 24, cls := .pointer }
/-- RDM_QP_STATE.state (R134). -/
def RDM_QP_STATE_state : Field :=
  { name := "RDM_QP_STATE_state", block := 7, off := 0x100024, msb := 2, lsb := 0, acc := .rh, kept := 24, cls := .status,
    view := true }
/-- RDM_QP_STATE.uc (R134). -/
def RDM_QP_STATE_uc : Field :=
  { name := "RDM_QP_STATE_uc", block := 7, off := 0x100024, msb := 3, lsb := 3, acc := .rh, kept := 24, cls := .status,
    view := true }
/-- RDM_QP_STATE.spray (R134). -/
def RDM_QP_STATE_spray : Field :=
  { name := "RDM_QP_STATE_spray", block := 7, off := 0x100024, msb := 4, lsb := 4, acc := .rh, kept := 24, cls := .status,
    view := true }
/-- RDM_QP_STATE.protected (R134). -/
def RDM_QP_STATE_protected : Field :=
  { name := "RDM_QP_STATE_protected", block := 7, off := 0x100024, msb := 5, lsb := 5, acc := .rh, kept := 24,
    cls := .status, view := true }
/-- RDM_QP_STATE.single_path (R134). -/
def RDM_QP_STATE_single_path : Field :=
  { name := "RDM_QP_STATE_single_path", block := 7, off := 0x100024, msb := 6, lsb := 6, acc := .rh, kept := 24,
    cls := .status, view := true }
/-- RDM_QP_STATE.cached (R134). -/
def RDM_QP_STATE_cached : Field :=
  { name := "RDM_QP_STATE_cached", block := 7, off := 0x100024, msb := 7, lsb := 7, acc := .rh, kept := 24, cls := .status,
    view := true }
/-- RDM_QP_STATE.windows (R134). -/
def RDM_QP_STATE_windows : Field :=
  { name := "RDM_QP_STATE_windows", block := 7, off := 0x100024, msb := 10, lsb := 8, acc := .rh, kept := 24, cls := .status,
    view := true }
/-- RDM_QP_STATE.err_cause (R134). -/
def RDM_QP_STATE_err_cause : Field :=
  { name := "RDM_QP_STATE_err_cause", block := 7, off := 0x100024, msb := 23, lsb := 16, acc := .rh, kept := 24,
    cls := .status, view := true }
/-- RDM_QP_EPSN.epsn (R134). -/
def RDM_QP_EPSN_epsn : Field :=
  { name := "RDM_QP_EPSN_epsn", block := 7, off := 0x100028, msb := 23, lsb := 0, acc := .rh, kept := 24, cls := .status,
    view := true }
/-- RDM_QP_CTL.to_error (R134). -/
def RDM_QP_CTL_to_error : Field :=
  { name := "RDM_QP_CTL_to_error", block := 7, off := 0x10002c, msb := 0, lsb := 0, acc := .w1p, kept := 0, cls := .action }
/-- RDM_WIN_SEL.window (R134). -/
def RDM_WIN_SEL_window : Field :=
  { name := "RDM_WIN_SEL_window", block := 7, off := 0x100040, msb := 13, lsb := 0, acc := .rw, kept := 24, cls := .pointer }
/-- RDM_WIN_STAT.state (R134). -/
def RDM_WIN_STAT_state : Field :=
  { name := "RDM_WIN_STAT_state", block := 7, off := 0x100044, msb := 1, lsb := 0, acc := .rh, kept := 24, cls := .status,
    view := true }
/-- RDM_WIN_STAT.adopted (R134). -/
def RDM_WIN_STAT_adopted : Field :=
  { name := "RDM_WIN_STAT_adopted", block := 7, off := 0x100044, msb := 2, lsb := 2, acc := .rh, kept := 24, cls := .status,
    view := true }
/-- RDM_WIN_STAT.hold (R134). -/
def RDM_WIN_STAT_hold : Field :=
  { name := "RDM_WIN_STAT_hold", block := 7, off := 0x100044, msb := 15, lsb := 8, acc := .rh, kept := 24, cls := .status,
    view := true }
/-- RDM_WIN_CTL.revoke (R134). -/
def RDM_WIN_CTL_revoke : Field :=
  { name := "RDM_WIN_CTL_revoke", block := 7, off := 0x100048, msb := 0, lsb := 0, acc := .w1p, kept := 0, cls := .action }
/-- RDM_WIN_CTL.reopen (R134). -/
def RDM_WIN_CTL_reopen : Field :=
  { name := "RDM_WIN_CTL_reopen", block := 7, off := 0x100048, msb := 1, lsb := 1, acc := .w1p, kept := 0, cls := .action }
/-- RDM_WIN_QP.qpn (R134). -/
def RDM_WIN_QP_qpn : Field :=
  { name := "RDM_WIN_QP_qpn", block := 7, off := 0x10004c, msb := 16, lsb := 0, acc := .rh, kept := 24, cls := .status,
    view := true }
/-- RDM_WIN_HORIZON.offset (R134). -/
def RDM_WIN_HORIZON_offset : Field :=
  { name := "RDM_WIN_HORIZON_offset", block := 7, off := 0x100050, msb := 63, lsb := 0, acc := .rh, kept := 24,
    cls := .status, view := true }
/-- RDM_WIN_LIMIT.offset (R134). -/
def RDM_WIN_LIMIT_offset : Field :=
  { name := "RDM_WIN_LIMIT_offset", block := 7, off := 0x100058, msb := 63, lsb := 0, acc := .rh, kept := 24, cls := .status,
    view := true }
/-- RDM_WIN_SPAN.span_kib (R134). -/
def RDM_WIN_SPAN_span_kib : Field :=
  { name := "RDM_WIN_SPAN_span_kib", block := 7, off := 0x100060, msb := 15, lsb := 0, acc := .rh, kept := 24,
    cls := .status, view := true }
/-- RDM_CTX_HITS.ctx_hits (R134). -/
def RDM_ctx_hits : Field :=
  { name := "RDM_ctx_hits", block := 7, off := 0x100100, msb := 63, lsb := 0, acc := .rh, kept := 24, cls := .counter,
    item := some 0 }
/-- RDM_CTX_MISSES.ctx_misses (R134). -/
def RDM_ctx_misses : Field :=
  { name := "RDM_ctx_misses", block := 7, off := 0x100108, msb := 63, lsb := 0, acc := .rh, kept := 24, cls := .counter,
    item := some 1 }
/-- RDM_EVICTIONS.evictions (R134). -/
def RDM_evictions : Field :=
  { name := "RDM_evictions", block := 7, off := 0x100110, msb := 63, lsb := 0, acc := .rh, kept := 24, cls := .counter,
    item := some 2 }
/-- RDM_MISS_WAITS.miss_waits (R134). -/
def RDM_miss_waits : Field :=
  { name := "RDM_miss_waits", block := 7, off := 0x100118, msb := 63, lsb := 0, acc := .rh, kept := 24, cls := .counter,
    item := some 3 }
/-- RDM_PSN_SEQ_NAKS.psn_seq_naks (R134). -/
def RDM_psn_seq_naks : Field :=
  { name := "RDM_psn_seq_naks", block := 7, off := 0x100120, msb := 63, lsb := 0, acc := .rh, kept := 24, cls := .counter,
    item := some 4 }
/-- RDM_BEYOND_WINDOW.beyond_window (R134). -/
def RDM_beyond_window : Field :=
  { name := "RDM_beyond_window", block := 7, off := 0x100128, msb := 63, lsb := 0, acc := .rh, kept := 24, cls := .counter,
    item := some 5 }
/-- RDM_DUPLICATES.duplicates (R134). -/
def RDM_duplicates : Field :=
  { name := "RDM_duplicates", block := 7, off := 0x100130, msb := 63, lsb := 0, acc := .rh, kept := 24, cls := .counter,
    item := some 6 }
/-- RDM_OUT_OF_ORDER.out_of_order (R134). -/
def RDM_out_of_order : Field :=
  { name := "RDM_out_of_order", block := 7, off := 0x100138, msb := 63, lsb := 0, acc := .rh, kept := 24, cls := .counter,
    item := some 7 }
/-- RDM_INVALID_REQ_NAKS.invalid_req_naks (R134). -/
def RDM_invalid_req_naks : Field :=
  { name := "RDM_invalid_req_naks", block := 7, off := 0x100140, msb := 63, lsb := 0, acc := .rh, kept := 24,
    cls := .counter, item := some 8 }
/-- RDM_REMOTE_ACCESS_NAKS.remote_access_naks (R134). -/
def RDM_remote_access_naks : Field :=
  { name := "RDM_remote_access_naks", block := 7, off := 0x100148, msb := 63, lsb := 0, acc := .rh, kept := 24,
    cls := .counter, item := some 9 }
/-- RDM_HORIZON_REFUSALS.horizon_refusals (R134). -/
def RDM_horizon_refusals : Field :=
  { name := "RDM_horizon_refusals", block := 7, off := 0x100150, msb := 63, lsb := 0, acc := .rh, kept := 24,
    cls := .counter, item := some 10 }
/-- RDM_FLUSH_COMPLETIONS.flush_completions (R134). -/
def RDM_flush_completions : Field :=
  { name := "RDM_flush_completions", block := 7, off := 0x100158, msb := 63, lsb := 0, acc := .rh, kept := 24,
    cls := .counter, item := some 11 }
/-- RDM_CREDIT_MSGS.credit_msgs (R134). -/
def RDM_credit_msgs : Field :=
  { name := "RDM_credit_msgs", block := 7, off := 0x100160, msb := 63, lsb := 0, acc := .rh, kept := 24, cls := .counter,
    item := some 12 }
/-- RDM_SACKS.sacks (R134). -/
def RDM_sacks : Field :=
  { name := "RDM_sacks", block := 7, off := 0x100168, msb := 63, lsb := 0, acc := .rh, kept := 24, cls := .counter,
    item := some 13 }
/-- RDM_UC_ABANDONED.uc_abandoned (R134). -/
def RDM_uc_abandoned : Field :=
  { name := "RDM_uc_abandoned", block := 7, off := 0x100170, msb := 63, lsb := 0, acc := .rh, kept := 24, cls := .counter,
    item := some 14 }
/-- RDM_NO_TRACKER.no_tracker (R134). -/
def RDM_no_tracker : Field :=
  { name := "RDM_no_tracker", block := 7, off := 0x100178, msb := 63, lsb := 0, acc := .rh, kept := 24, cls := .counter,
    item := some 15 }
/-- RDM_UNKNOWN_QP.unknown_qp (R134). -/
def RDM_unknown_qp : Field :=
  { name := "RDM_unknown_qp", block := 7, off := 0x100180, msb := 63, lsb := 0, acc := .rh, kept := 24, cls := .counter,
    item := some 16 }
/-- NVQ_STAT.fabric_ctrls (R167). -/
def NVQ_STAT_fabric_ctrls : Field :=
  { name := "NVQ_STAT_fabric_ctrls", block := 8, off := 0x188000, msb := 11, lsb := 0, acc := .rh, kept := 24,
    cls := .status, view := true }
/-- NVQ_STAT.local_ready (R167). -/
def NVQ_STAT_local_ready : Field :=
  { name := "NVQ_STAT_local_ready", block := 8, off := 0x188000, msb := 12, lsb := 12, acc := .rh, kept := 16,
    cls := .status }
/-- NVQ_STAT.fabric_qps (R167). -/
def NVQ_STAT_fabric_qps : Field :=
  { name := "NVQ_STAT_fabric_qps", block := 8, off := 0x188000, msb := 31, lsb := 16, acc := .rh, kept := 24, cls := .status,
    view := true }
/-- NVQ_PS.current (R167). -/
def NVQ_PS_current : Field :=
  { name := "NVQ_PS_current", block := 8, off := 0x188004, msb := 1, lsb := 0, acc := .rh, kept := 24, cls := .status }
/-- NVQ_PS.target (R167). -/
def NVQ_PS_target : Field :=
  { name := "NVQ_PS_target", block := 8, off := 0x188004, msb := 3, lsb := 2, acc := .rh, kept := 24, cls := .status }
/-- NVQ_PS.entering (R167). -/
def NVQ_PS_entering : Field :=
  { name := "NVQ_PS_entering", block := 8, off := 0x188004, msb := 4, lsb := 4, acc := .rh, kept := 24, cls := .status }
/-- NVQ_PS.held (R167). -/
def NVQ_PS_held : Field :=
  { name := "NVQ_PS_held", block := 8, off := 0x188004, msb := 7, lsb := 5, acc := .rh, kept := 24, cls := .status }
/-- NVQ_CTL.accept_off (R167). -/
def NVQ_CTL_accept_off : Field :=
  { name := "NVQ_CTL_accept_off", block := 8, off := 0x188008, msb := 0, lsb := 0, acc := .rw, kept := 24, cls := .config }
/-- NVQ_READS.reads (R167). -/
def NVQ_reads : Field :=
  { name := "NVQ_reads", block := 8, off := 0x188100, msb := 63, lsb := 0, acc := .rh, kept := 24, cls := .counter,
    item := some 0 }
/-- NVQ_WRITES.writes (R167). -/
def NVQ_writes : Field :=
  { name := "NVQ_writes", block := 8, off := 0x188108, msb := 63, lsb := 0, acc := .rh, kept := 24, cls := .counter,
    item := some 1 }
/-- NVQ_BYTES_READ.bytes_read (R167). -/
def NVQ_bytes_read : Field :=
  { name := "NVQ_bytes_read", block := 8, off := 0x188110, msb := 63, lsb := 0, acc := .rh, kept := 24, cls := .counter,
    item := some 2 }
/-- NVQ_BYTES_WRITTEN.bytes_written (R167). -/
def NVQ_bytes_written : Field :=
  { name := "NVQ_bytes_written", block := 8, off := 0x188118, msb := 63, lsb := 0, acc := .rh, kept := 24, cls := .counter,
    item := some 3 }
/-- NVQ_FLUSHES.flushes (R167). -/
def NVQ_flushes : Field :=
  { name := "NVQ_flushes", block := 8, off := 0x188120, msb := 63, lsb := 0, acc := .rh, kept := 24, cls := .counter,
    item := some 4 }
/-- NVQ_ABORTS_CAUGHT.aborts_caught (R167). -/
def NVQ_aborts_caught : Field :=
  { name := "NVQ_aborts_caught", block := 8, off := 0x188128, msb := 63, lsb := 0, acc := .rh, kept := 24, cls := .counter,
    item := some 5 }
/-- NVQ_ABORTS_MISSED.aborts_missed (R167). -/
def NVQ_aborts_missed : Field :=
  { name := "NVQ_aborts_missed", block := 8, off := 0x188130, msb := 63, lsb := 0, acc := .rh, kept := 24, cls := .counter,
    item := some 6 }
/-- NVQ_PS_REVERSALS.ps_reversals (R167). -/
def NVQ_ps_reversals : Field :=
  { name := "NVQ_ps_reversals", block := 8, off := 0x188138, msb := 63, lsb := 0, acc := .rh, kept := 24, cls := .counter,
    item := some 7 }
/-- NVQ_DATA_XFER_ERRORS.data_xfer_errors (R167). -/
def NVQ_data_xfer_errors : Field :=
  { name := "NVQ_data_xfer_errors", block := 8, off := 0x188140, msb := 63, lsb := 0, acc := .rh, kept := 24,
    cls := .counter, item := some 8 }
/-- NVQ_ANA_TRANSITIONS.ana_transitions (R167). -/
def NVQ_ana_transitions : Field :=
  { name := "NVQ_ana_transitions", block := 8, off := 0x188148, msb := 63, lsb := 0, acc := .rh, kept := 24, cls := .counter,
    item := some 9 }
/-- NVQ_KATO_EXPIRIES.kato_expiries (R167). -/
def NVQ_kato_expiries : Field :=
  { name := "NVQ_kato_expiries", block := 8, off := 0x188150, msb := 63, lsb := 0, acc := .rh, kept := 24, cls := .counter,
    item := some 10 }
/-- NVQ_KEYS_REFUSALS.keys_refusals (R167). -/
def NVQ_keys_refusals : Field :=
  { name := "NVQ_keys_refusals", block := 8, off := 0x188158, msb := 63, lsb := 0, acc := .rh, kept := 24, cls := .counter,
    item := some 11 }
/-- RED_STAT.ctx_busy (R199). -/
def RED_STAT_ctx_busy : Field :=
  { name := "RED_STAT_ctx_busy", block := 9, off := 0x200000, msb := 7, lsb := 0, acc := .rh, kept := 16, cls := .status,
    view := true }
/-- RED_STAT.rings_on (R199). -/
def RED_STAT_rings_on : Field :=
  { name := "RED_STAT_rings_on", block := 9, off := 0x200000, msb := 11, lsb := 8, acc := .rh, kept := 16, cls := .status,
    view := true }
/-- RED_STAT.reduce_active (R199). -/
def RED_STAT_reduce_active : Field :=
  { name := "RED_STAT_reduce_active", block := 9, off := 0x200000, msb := 16, lsb := 16, acc := .rh, kept := 24,
    cls := .status, view := true }
/-- RED_CTL.defer_us (R199). -/
def RED_CTL_defer_us : Field :=
  { name := "RED_CTL_defer_us", block := 9, off := 0x200004, msb := 9, lsb := 0, acc := .rw, reset := 0x14, kept := 24,
    cls := .config, lo := 1, hi := some 1000 }
/-- RED_CTL.verify_all (R199). -/
def RED_CTL_verify_all : Field :=
  { name := "RED_CTL_verify_all", block := 9, off := 0x200004, msb := 16, lsb := 16, acc := .rw, kept := 24, cls := .config }
/-- RED_CTX_STAT.state (R199). -/
def RED_CTX_STAT_state : Field :=
  { name := "RED_CTX_STAT_state", block := 9, off := 0x200040, msb := 2, lsb := 0, acc := .rh, kept := 16, cls := .status,
    count := 8, stride := 0x4, view := true }
/-- RED_CTX_STAT.bits_pending (R199). -/
def RED_CTX_STAT_bits_pending : Field :=
  { name := "RED_CTX_STAT_bits_pending", block := 9, off := 0x200040, msb := 5, lsb := 3, acc := .rh, kept := 16,
    cls := .status, count := 8, stride := 0x4, view := true }
/-- RED_CTX_STAT.ring (R199). -/
def RED_CTX_STAT_ring : Field :=
  { name := "RED_CTX_STAT_ring", block := 9, off := 0x200040, msb := 7, lsb := 6, acc := .rh, kept := 16, cls := .status,
    count := 8, stride := 0x4, view := true }
/-- RED_CTX_STAT.running (R199). -/
def RED_CTX_STAT_running : Field :=
  { name := "RED_CTX_STAT_running", block := 9, off := 0x200040, msb := 8, lsb := 8, acc := .rh, kept := 16, cls := .status,
    count := 8, stride := 0x4, view := true }
/-- RED_CTX_TOTAL.stream_total (R199). -/
def RED_CTX_TOTAL_stream_total : Field :=
  { name := "RED_CTX_TOTAL_stream_total", block := 9, off := 0x200080, msb := 63, lsb := 0, acc := .rh, kept := 16,
    cls := .status, count := 8, stride := 0x8, view := true }
/-- RED_FP_COMPUTED.fp_computed (R199). -/
def RED_fp_computed : Field :=
  { name := "RED_fp_computed", block := 9, off := 0x200200, msb := 63, lsb := 0, acc := .rh, kept := 24, cls := .counter,
    item := some 0 }
/-- RED_FP_HIT_SRAM.fp_hit_sram (R199). -/
def RED_fp_hit_sram : Field :=
  { name := "RED_fp_hit_sram", block := 9, off := 0x200208, msb := 63, lsb := 0, acc := .rh, kept := 24, cls := .counter,
    item := some 1 }
/-- RED_FP_HIT_HBM.fp_hit_hbm (R199). -/
def RED_fp_hit_hbm : Field :=
  { name := "RED_fp_hit_hbm", block := 9, off := 0x200210, msb := 63, lsb := 0, acc := .rh, kept := 24, cls := .counter,
    item := some 2 }
/-- RED_FP_HIT_FLASH.fp_hit_flash (R199). -/
def RED_fp_hit_flash : Field :=
  { name := "RED_fp_hit_flash", block := 9, off := 0x200218, msb := 63, lsb := 0, acc := .rh, kept := 24, cls := .counter,
    item := some 3 }
/-- RED_FP_DEFERRED.fp_deferred (R199). -/
def RED_fp_deferred : Field :=
  { name := "RED_fp_deferred", block := 9, off := 0x200220, msb := 63, lsb := 0, acc := .rh, kept := 24, cls := .counter,
    item := some 4 }
/-- RED_REFS_MADE.refs_made (R199). -/
def RED_refs_made : Field :=
  { name := "RED_refs_made", block := 9, off := 0x200228, msb := 63, lsb := 0, acc := .rh, kept := 24, cls := .counter,
    item := some 5 }
/-- RED_VERIFY_COMPARES.verify_compares (R199). -/
def RED_verify_compares : Field :=
  { name := "RED_verify_compares", block := 9, off := 0x200230, msb := 63, lsb := 0, acc := .rh, kept := 24, cls := .counter,
    item := some 6 }
/-- RED_VERIFY_COLLISIONS.verify_collisions (R199). -/
def RED_verify_collisions : Field :=
  { name := "RED_verify_collisions", block := 9, off := 0x200238, msb := 63, lsb := 0, acc := .rh, kept := 24,
    cls := .counter, item := some 7 }
/-- RED_CLASS0.class0 (R199). -/
def RED_class0 : Field :=
  { name := "RED_class0", block := 9, off := 0x200240, msb := 63, lsb := 0, acc := .rh, kept := 24, cls := .counter,
    item := some 8 }
/-- RED_CLASS1.class1 (R199). -/
def RED_class1 : Field :=
  { name := "RED_class1", block := 9, off := 0x200248, msb := 63, lsb := 0, acc := .rh, kept := 24, cls := .counter,
    item := some 9 }
/-- RED_CLASS2.class2 (R199). -/
def RED_class2 : Field :=
  { name := "RED_class2", block := 9, off := 0x200250, msb := 63, lsb := 0, acc := .rh, kept := 24, cls := .counter,
    item := some 10 }
/-- RED_CLASS3.class3 (R199). -/
def RED_class3 : Field :=
  { name := "RED_class3", block := 9, off := 0x200258, msb := 63, lsb := 0, acc := .rh, kept := 24, cls := .counter,
    item := some 11 }
/-- RED_CLASS4.class4 (R199). -/
def RED_class4 : Field :=
  { name := "RED_class4", block := 9, off := 0x200260, msb := 63, lsb := 0, acc := .rh, kept := 24, cls := .counter,
    item := some 12 }
/-- RED_LOGICAL_BYTES.logical_bytes (R199). -/
def RED_logical_bytes : Field :=
  { name := "RED_logical_bytes", block := 9, off := 0x200268, msb := 63, lsb := 0, acc := .rh, kept := 24, cls := .counter,
    item := some 13 }
/-- RED_STORED_BYTES.stored_bytes (R199). -/
def RED_stored_bytes : Field :=
  { name := "RED_stored_bytes", block := 9, off := 0x200270, msb := 63, lsb := 0, acc := .rh, kept := 24, cls := .counter,
    item := some 14 }
/-- RED_DECODE_ERRORS.decode_errors (R199). -/
def RED_decode_errors : Field :=
  { name := "RED_decode_errors", block := 9, off := 0x200278, msb := 63, lsb := 0, acc := .rh, kept := 24, cls := .counter,
    item := some 15 }
/-- RED_CODEC_RECODES.codec_recodes (R199). -/
def RED_codec_recodes : Field :=
  { name := "RED_codec_recodes", block := 9, off := 0x200280, msb := 63, lsb := 0, acc := .rh, kept := 24, cls := .counter,
    item := some 16 }
/-- RED_CLOSE_WAIT_NS.close_wait_ns (R199). -/
def RED_close_wait_ns : Field :=
  { name := "RED_close_wait_ns", block := 9, off := 0x200288, msb := 63, lsb := 0, acc := .rh, kept := 24, cls := .counter,
    item := some 17 }
/-- RED_JOBS_DONE.jobs_done (R199). -/
def RED_jobs_done : Field :=
  { name := "RED_jobs_done", block := 9, off := 0x200290, msb := 63, lsb := 0, acc := .rh, kept := 24, cls := .counter,
    item := some 18 }
/-- RED_JOBS_OUTPUT_FULL.jobs_output_full (R199). -/
def RED_jobs_output_full : Field :=
  { name := "RED_jobs_output_full", block := 9, off := 0x200298, msb := 63, lsb := 0, acc := .rh, kept := 24,
    cls := .counter, item := some 19 }
/-- RED_JOBS_PREEMPTED.jobs_preempted (R199). -/
def RED_jobs_preempted : Field :=
  { name := "RED_jobs_preempted", block := 9, off := 0x2002a0, msb := 63, lsb := 0, acc := .rh, kept := 24, cls := .counter,
    item := some 20 }
/-- RED_CTX_SAVES.ctx_saves (R199). -/
def RED_ctx_saves : Field :=
  { name := "RED_ctx_saves", block := 9, off := 0x2002a8, msb := 63, lsb := 0, acc := .rh, kept := 24, cls := .counter,
    item := some 21 }
/-- RED_CTX_RESTORES.ctx_restores (R199). -/
def RED_ctx_restores : Field :=
  { name := "RED_ctx_restores", block := 9, off := 0x2002b0, msb := 63, lsb := 0, acc := .rh, kept := 24, cls := .counter,
    item := some 22 }
/-- RED_RING_SQ_BASE.sq_base (R199). -/
def RED_RING_SQ_BASE_sq_base : Field :=
  { name := "RED_RING_SQ_BASE_sq_base", block := 9, off := 0x201000, msb := 63, lsb := 12, acc := .rw, kept := 16,
    cls := .pointer, count := 4, stride := 0x40 }
/-- RED_RING_CQ_BASE.cq_base (R199). -/
def RED_RING_CQ_BASE_cq_base : Field :=
  { name := "RED_RING_CQ_BASE_cq_base", block := 9, off := 0x201008, msb := 63, lsb := 12, acc := .rw, kept := 16,
    cls := .pointer, count := 4, stride := 0x40 }
/-- RED_RING_CFG.enable (R199). -/
def RED_RING_CFG_enable : Field :=
  { name := "RED_RING_CFG_enable", block := 9, off := 0x201010, msb := 0, lsb := 0, acc := .rw, kept := 16, cls := .pointer,
    count := 4, stride := 0x40 }
/-- RED_RING_CFG.size_log2 (R199). -/
def RED_RING_CFG_size_log2 : Field :=
  { name := "RED_RING_CFG_size_log2", block := 9, off := 0x201010, msb := 7, lsb := 4, acc := .rw, reset := 6, kept := 16,
    cls := .pointer, count := 4, stride := 0x40, lo := 6, hi := some 12 }
/-- RED_RING_CFG.class (R199). -/
def RED_RING_CFG_class : Field :=
  { name := "RED_RING_CFG_class", block := 9, off := 0x201010, msb := 11, lsb := 8, acc := .rw, kept := 16, cls := .pointer,
    count := 4, stride := 0x40 }
/-- RED_RING_CFG.vector (R199). -/
def RED_RING_CFG_vector : Field :=
  { name := "RED_RING_CFG_vector", block := 9, off := 0x201010, msb := 23, lsb := 16, acc := .rw, kept := 16,
    cls := .pointer, count := 4, stride := 0x40, lo := 0, hi := some 128 }
/-- RED_RING_SQ_TAIL.sq_tail (R199). -/
def RED_RING_SQ_TAIL_sq_tail : Field :=
  { name := "RED_RING_SQ_TAIL_sq_tail", block := 9, off := 0x201014, msb := 11, lsb := 0, acc := .rw, kept := 16,
    cls := .pointer, count := 4, stride := 0x40 }
/-- RED_RING_SQ_HEAD.sq_head (R199). -/
def RED_RING_SQ_HEAD_sq_head : Field :=
  { name := "RED_RING_SQ_HEAD_sq_head", block := 9, off := 0x201018, msb := 11, lsb := 0, acc := .rh, kept := 16,
    cls := .status, count := 4, stride := 0x40 }
/-- RED_RING_CQ_HEAD.cq_head (R199). -/
def RED_RING_CQ_HEAD_cq_head : Field :=
  { name := "RED_RING_CQ_HEAD_cq_head", block := 9, off := 0x20101c, msb := 11, lsb := 0, acc := .rw, kept := 16,
    cls := .pointer, count := 4, stride := 0x40 }
/-- RED_RING_STAT.busy (R199). -/
def RED_RING_STAT_busy : Field :=
  { name := "RED_RING_STAT_busy", block := 9, off := 0x201020, msb := 0, lsb := 0, acc := .rh, kept := 16, cls := .status,
    count := 4, stride := 0x40 }
/-- RED_RING_STAT.cq_full (R199). -/
def RED_RING_STAT_cq_full : Field :=
  { name := "RED_RING_STAT_cq_full", block := 9, off := 0x201020, msb := 1, lsb := 1, acc := .rh, kept := 16, cls := .status,
    count := 4, stride := 0x40 }
/-- RED_RING_STAT.fetch_error (R199). -/
def RED_RING_STAT_fetch_error : Field :=
  { name := "RED_RING_STAT_fetch_error", block := 9, off := 0x201020, msb := 2, lsb := 2, acc := .rh, kept := 16,
    cls := .status, count := 4, stride := 0x40 }
/-- CIP_STAT.keys_loaded (R217). -/
def CIP_STAT_keys_loaded : Field :=
  { name := "CIP_STAT_keys_loaded", block := 10, off := 0x240000, msb := 0, lsb := 0, acc := .rh, kept := 31, cls := .status }
/-- CIP_STAT.zeroized (R217). -/
def CIP_STAT_zeroized : Field :=
  { name := "CIP_STAT_zeroized", block := 10, off := 0x240000, msb := 1, lsb := 1, acc := .rh, kept := 31, cls := .status }
/-- CIP_STAT.repl_loaded (R217). -/
def CIP_STAT_repl_loaded : Field :=
  { name := "CIP_STAT_repl_loaded", block := 10, off := 0x240000, msb := 2, lsb := 2, acc := .rh, kept := 31, cls := .status }
/-- CIP_STAT.last_alarm (R217). -/
def CIP_STAT_last_alarm : Field :=
  { name := "CIP_STAT_last_alarm", block := 10, off := 0x240000, msb := 11, lsb := 8, acc := .rh, kept := 31, cls := .status }
/-- CIP_STAT.tamper_active (R217). -/
def CIP_STAT_tamper_active : Field :=
  { name := "CIP_STAT_tamper_active", block := 10, off := 0x240000, msb := 15, lsb := 12, acc := .rh, kept := 63,
    cls := .status }
/-- CIP_STAT.ctx_busy (R217). -/
def CIP_STAT_ctx_busy : Field :=
  { name := "CIP_STAT_ctx_busy", block := 10, off := 0x240000, msb := 31, lsb := 16, acc := .rh, kept := 16, cls := .status,
    view := true }
/-- CIP_CTL.zeroize (R217). -/
def CIP_CTL_zeroize : Field :=
  { name := "CIP_CTL_zeroize", block := 10, off := 0x240004, msb := 0, lsb := 0, acc := .w1p, kept := 0, cls := .action }
/-- CIP_CTL.share_load (R217). -/
def CIP_CTL_share_load : Field :=
  { name := "CIP_CTL_share_load", block := 10, off := 0x240004, msb := 1, lsb := 1, acc := .w1p, kept := 0, cls := .action }
/-- CIP_SHARE_ADDR.addr (R217). -/
def CIP_SHARE_ADDR_addr : Field :=
  { name := "CIP_SHARE_ADDR_addr", block := 10, off := 0x240008, msb := 63, lsb := 6, acc := .rw, kept := 24,
    cls := .pointer }
/-- CIP_SHARE_RES.result (R217). -/
def CIP_SHARE_RES_result : Field :=
  { name := "CIP_SHARE_RES_result", block := 10, off := 0x240010, msb := 3, lsb := 0, acc := .rh, kept := 31, cls := .status }
/-- CIP_KCV.kcv (R217). -/
def CIP_KCV_kcv : Field :=
  { name := "CIP_KCV_kcv", block := 10, off := 0x240018, msb := 63, lsb := 0, acc := .rh, kept := 31, cls := .status }
/-- CIP_RKCV.kcv (R217). -/
def CIP_RKCV_kcv : Field :=
  { name := "CIP_RKCV_kcv", block := 10, off := 0x240020, msb := 63, lsb := 0, acc := .rh, kept := 31, cls := .status }
/-- CIP_TAMPER_CFG.enable (R217). -/
def CIP_TAMPER_CFG_enable : Field :=
  { name := "CIP_TAMPER_CFG_enable", block := 10, off := 0x240028, msb := 3, lsb := 0, acc := .rwlk, kept := 63,
    cls := .config }
/-- CIP_TAMPER_CFG.active_high (R217). -/
def CIP_TAMPER_CFG_active_high : Field :=
  { name := "CIP_TAMPER_CFG_active_high", block := 10, off := 0x240028, msb := 7, lsb := 4, acc := .rwlk, kept := 63,
    cls := .config }
/-- CIP_SEAL_BLOCKS.seal_blocks (R217). -/
def CIP_seal_blocks : Field :=
  { name := "CIP_seal_blocks", block := 10, off := 0x240200, msb := 63, lsb := 0, acc := .rh, kept := 24, cls := .counter,
    item := some 0 }
/-- CIP_UNSEAL_BLOCKS.unseal_blocks (R217). -/
def CIP_unseal_blocks : Field :=
  { name := "CIP_unseal_blocks", block := 10, off := 0x240208, msb := 63, lsb := 0, acc := .rh, kept := 24, cls := .counter,
    item := some 1 }
/-- CIP_TAG_FAILURES.tag_failures (R217). -/
def CIP_tag_failures : Field :=
  { name := "CIP_tag_failures", block := 10, off := 0x240210, msb := 63, lsb := 0, acc := .rh, kept := 24, cls := .counter,
    item := some 2 }
/-- CIP_DERIVATIONS.derivations (R217). -/
def CIP_derivations : Field :=
  { name := "CIP_derivations", block := 10, off := 0x240218, msb := 63, lsb := 0, acc := .rh, kept := 24, cls := .counter,
    item := some 3 }
/-- CIP_ZEROIZATIONS.zeroizations (R217). -/
def CIP_zeroizations : Field :=
  { name := "CIP_zeroizations", block := 10, off := 0x240220, msb := 63, lsb := 0, acc := .rh, kept := 24, cls := .counter,
    item := some 4 }
/-- CIP_SHARE_LOADS.share_loads (R217). -/
def CIP_share_loads : Field :=
  { name := "CIP_share_loads", block := 10, off := 0x240228, msb := 63, lsb := 0, acc := .rh, kept := 24, cls := .counter,
    item := some 5 }
/-- CIP_SHARE_REFUSALS.share_refusals (R217). -/
def CIP_share_refusals : Field :=
  { name := "CIP_share_refusals", block := 10, off := 0x240230, msb := 63, lsb := 0, acc := .rh, kept := 24, cls := .counter,
    item := some 6 }
/-- CIP_JOBS_DONE.jobs_done (R217). -/
def CIP_jobs_done : Field :=
  { name := "CIP_jobs_done", block := 10, off := 0x240238, msb := 63, lsb := 0, acc := .rh, kept := 24, cls := .counter,
    item := some 7 }
/-- CIP_CTX_SAVES.ctx_saves (R217). -/
def CIP_ctx_saves : Field :=
  { name := "CIP_ctx_saves", block := 10, off := 0x240240, msb := 63, lsb := 0, acc := .rh, kept := 24, cls := .counter,
    item := some 8 }
/-- CIP_CTX_RESTORES.ctx_restores (R217). -/
def CIP_ctx_restores : Field :=
  { name := "CIP_ctx_restores", block := 10, off := 0x240248, msb := 63, lsb := 0, acc := .rh, kept := 24, cls := .counter,
    item := some 9 }
/-- CIP_RING_SQ_BASE.sq_base (R217). -/
def CIP_RING_SQ_BASE_sq_base : Field :=
  { name := "CIP_RING_SQ_BASE_sq_base", block := 10, off := 0x241000, msb := 63, lsb := 12, acc := .rw, kept := 16,
    cls := .pointer, count := 2, stride := 0x40 }
/-- CIP_RING_CQ_BASE.cq_base (R217). -/
def CIP_RING_CQ_BASE_cq_base : Field :=
  { name := "CIP_RING_CQ_BASE_cq_base", block := 10, off := 0x241008, msb := 63, lsb := 12, acc := .rw, kept := 16,
    cls := .pointer, count := 2, stride := 0x40 }
/-- CIP_RING_CFG.enable (R217). -/
def CIP_RING_CFG_enable : Field :=
  { name := "CIP_RING_CFG_enable", block := 10, off := 0x241010, msb := 0, lsb := 0, acc := .rw, kept := 16, cls := .pointer,
    count := 2, stride := 0x40 }
/-- CIP_RING_CFG.size_log2 (R217). -/
def CIP_RING_CFG_size_log2 : Field :=
  { name := "CIP_RING_CFG_size_log2", block := 10, off := 0x241010, msb := 7, lsb := 4, acc := .rw, reset := 6, kept := 16,
    cls := .pointer, count := 2, stride := 0x40, lo := 6, hi := some 12 }
/-- CIP_RING_CFG.class (R217). -/
def CIP_RING_CFG_class : Field :=
  { name := "CIP_RING_CFG_class", block := 10, off := 0x241010, msb := 11, lsb := 8, acc := .rw, kept := 16, cls := .pointer,
    count := 2, stride := 0x40 }
/-- CIP_RING_CFG.vector (R217). -/
def CIP_RING_CFG_vector : Field :=
  { name := "CIP_RING_CFG_vector", block := 10, off := 0x241010, msb := 23, lsb := 16, acc := .rw, kept := 16,
    cls := .pointer, count := 2, stride := 0x40, lo := 0, hi := some 128 }
/-- CIP_RING_SQ_TAIL.sq_tail (R217). -/
def CIP_RING_SQ_TAIL_sq_tail : Field :=
  { name := "CIP_RING_SQ_TAIL_sq_tail", block := 10, off := 0x241014, msb := 11, lsb := 0, acc := .rw, kept := 16,
    cls := .pointer, count := 2, stride := 0x40 }
/-- CIP_RING_SQ_HEAD.sq_head (R217). -/
def CIP_RING_SQ_HEAD_sq_head : Field :=
  { name := "CIP_RING_SQ_HEAD_sq_head", block := 10, off := 0x241018, msb := 11, lsb := 0, acc := .rh, kept := 16,
    cls := .status, count := 2, stride := 0x40 }
/-- CIP_RING_CQ_HEAD.cq_head (R217). -/
def CIP_RING_CQ_HEAD_cq_head : Field :=
  { name := "CIP_RING_CQ_HEAD_cq_head", block := 10, off := 0x24101c, msb := 11, lsb := 0, acc := .rw, kept := 16,
    cls := .pointer, count := 2, stride := 0x40 }
/-- CIP_RING_STAT.busy (R217). -/
def CIP_RING_STAT_busy : Field :=
  { name := "CIP_RING_STAT_busy", block := 10, off := 0x241020, msb := 0, lsb := 0, acc := .rh, kept := 16, cls := .status,
    count := 2, stride := 0x40 }
/-- CIP_RING_STAT.cq_full (R217). -/
def CIP_RING_STAT_cq_full : Field :=
  { name := "CIP_RING_STAT_cq_full", block := 10, off := 0x241020, msb := 1, lsb := 1, acc := .rh, kept := 16,
    cls := .status, count := 2, stride := 0x40 }
/-- CIP_RING_STAT.fetch_error (R217). -/
def CIP_RING_STAT_fetch_error : Field :=
  { name := "CIP_RING_STAT_fetch_error", block := 10, off := 0x241020, msb := 2, lsb := 2, acc := .rh, kept := 16,
    cls := .status, count := 2, stride := 0x40 }
/-- STG_STAT.budget_reached (R241). -/
def STG_STAT_budget_reached : Field :=
  { name := "STG_STAT_budget_reached", block := 11, off := 0x280000, msb := 0, lsb := 0, acc := .rh, kept := 24,
    cls := .status }
/-- STG_STAT.over_budget (R241). -/
def STG_STAT_over_budget : Field :=
  { name := "STG_STAT_over_budget", block := 11, off := 0x280000, msb := 1, lsb := 1, acc := .rh, kept := 24, cls := .status }
/-- STG_STAT.mirror_live (R241). -/
def STG_STAT_mirror_live : Field :=
  { name := "STG_STAT_mirror_live", block := 11, off := 0x280000, msb := 2, lsb := 2, acc := .rh, kept := 24, cls := .status,
    view := true }
/-- STG_DIRTY.bytes (R241). -/
def STG_DIRTY_bytes : Field :=
  { name := "STG_DIRTY_bytes", block := 11, off := 0x280008, msb := 63, lsb := 0, acc := .rh, kept := 24, cls := .status,
    view := true }
/-- STG_MIRROR.bytes (R241). -/
def STG_MIRROR_bytes : Field :=
  { name := "STG_MIRROR_bytes", block := 11, off := 0x280010, msb := 63, lsb := 0, acc := .rh, kept := 24, cls := .status,
    view := true }
/-- STG_CFG.budget_mib (R241). -/
def STG_CFG_budget_mib : Field :=
  { name := "STG_CFG_budget_mib", block := 11, off := 0x280018, msb := 13, lsb := 0, acc := .rh, kept := 56, cls := .config }
/-- STG_CFG.own_mib (R241). -/
def STG_CFG_own_mib : Field :=
  { name := "STG_CFG_own_mib", block := 11, off := 0x280018, msb := 29, lsb := 16, acc := .ro, kept := 56, cls := .config }
/-- STG_INPROG.used_mib (R241). -/
def STG_INPROG_used_mib : Field :=
  { name := "STG_INPROG_used_mib", block := 11, off := 0x28001c, msb := 13, lsb := 0, acc := .rh, kept := 24, cls := .status }
/-- STG_SC_CTL.enable (R241). -/
def STG_SC_CTL_enable : Field :=
  { name := "STG_SC_CTL_enable", block := 11, off := 0x280040, msb := 0, lsb := 0, acc := .rw, kept := 24, cls := .config }
/-- STG_SC_CTL.invalidate (R241). -/
def STG_SC_CTL_invalidate : Field :=
  { name := "STG_SC_CTL_invalidate", block := 11, off := 0x280040, msb := 1, lsb := 1, acc := .w1p, kept := 0,
    cls := .action }
/-- STG_SC_CTL.writeback (R241). -/
def STG_SC_CTL_writeback : Field :=
  { name := "STG_SC_CTL_writeback", block := 11, off := 0x280040, msb := 2, lsb := 2, acc := .w1p, kept := 0, cls := .action }
/-- STG_SC_CTL.seq_bypass_off (R241). -/
def STG_SC_CTL_seq_bypass_off : Field :=
  { name := "STG_SC_CTL_seq_bypass_off", block := 11, off := 0x280040, msb := 3, lsb := 3, acc := .rw, kept := 24,
    cls := .config }
/-- STG_SC_STAT.state (R241). -/
def STG_SC_STAT_state : Field :=
  { name := "STG_SC_STAT_state", block := 11, off := 0x280044, msb := 1, lsb := 0, acc := .rh, kept := 24, cls := .status }
/-- STG_SC_STAT.busy (R241). -/
def STG_SC_STAT_busy : Field :=
  { name := "STG_SC_STAT_busy", block := 11, off := 0x280044, msb := 2, lsb := 2, acc := .rh, kept := 24, cls := .status }
/-- STG_SC_STAT.dirty_lines (R241). -/
def STG_SC_STAT_dirty_lines : Field :=
  { name := "STG_SC_STAT_dirty_lines", block := 11, off := 0x280044, msb := 30, lsb := 16, acc := .rh, kept := 24,
    cls := .status, view := true }
/-- STG_SC_WAYS.ways_out (R241). -/
def STG_SC_WAYS_ways_out : Field :=
  { name := "STG_SC_WAYS_ways_out", block := 11, off := 0x280048, msb := 14, lsb := 0, acc := .rh, kept := 31,
    cls := .status }
/-- STG_SC_WAYS.degraded (R241). -/
def STG_SC_WAYS_degraded : Field :=
  { name := "STG_SC_WAYS_degraded", block := 11, off := 0x280048, msb := 15, lsb := 15, acc := .rh, kept := 31,
    cls := .status }
/-- STG_HBM_RET.retired (R241). -/
def STG_HBM_RET_retired : Field :=
  { name := "STG_HBM_RET_retired", block := 11, off := 0x280060, msb := 11, lsb := 0, acc := .rh, kept := 56, cls := .status }
/-- STG_HBM_RET.spares_left (R241). -/
def STG_HBM_RET_spares_left : Field :=
  { name := "STG_HBM_RET_spares_left", block := 11, off := 0x280060, msb := 18, lsb := 12, acc := .rh, kept := 56,
    cls := .status }
/-- STG_SCRUB.scrub_hours (R241). -/
def STG_SCRUB_scrub_hours : Field :=
  { name := "STG_SCRUB_scrub_hours", block := 11, off := 0x280064, msb := 4, lsb := 0, acc := .rw, reset := 4, kept := 24,
    cls := .config, lo := 1, hi := some 24 }
/-- STG_SC_HITS.sc_hits (R241). -/
def STG_sc_hits : Field :=
  { name := "STG_sc_hits", block := 11, off := 0x280100, msb := 63, lsb := 0, acc := .rh, kept := 24, cls := .counter,
    item := some 0 }
/-- STG_SC_MISSES.sc_misses (R241). -/
def STG_sc_misses : Field :=
  { name := "STG_sc_misses", block := 11, off := 0x280108, msb := 63, lsb := 0, acc := .rh, kept := 24, cls := .counter,
    item := some 1 }
/-- STG_SC_WRITEBACKS.sc_writebacks (R241). -/
def STG_sc_writebacks : Field :=
  { name := "STG_sc_writebacks", block := 11, off := 0x280110, msb := 63, lsb := 0, acc := .rh, kept := 24, cls := .counter,
    item := some 2 }
/-- STG_SC_BYPASSED.sc_bypassed (R241). -/
def STG_sc_bypassed : Field :=
  { name := "STG_sc_bypassed", block := 11, off := 0x280118, msb := 63, lsb := 0, acc := .rh, kept := 24, cls := .counter,
    item := some 3 }
/-- STG_SC_CHECK_TRANSIENT.sc_check_transient (R241). -/
def STG_sc_check_transient : Field :=
  { name := "STG_sc_check_transient", block := 11, off := 0x280120, msb := 63, lsb := 0, acc := .rh, kept := 24,
    cls := .counter, item := some 4 }
/-- STG_SC_CHECK_LASTING.sc_check_lasting (R241). -/
def STG_sc_check_lasting : Field :=
  { name := "STG_sc_check_lasting", block := 11, off := 0x280128, msb := 63, lsb := 0, acc := .rh, kept := 24,
    cls := .counter, item := some 5 }
/-- STG_SC_TAG_PARITY.sc_tag_parity (R241). -/
def STG_sc_tag_parity : Field :=
  { name := "STG_sc_tag_parity", block := 11, off := 0x280130, msb := 63, lsb := 0, acc := .rh, kept := 24, cls := .counter,
    item := some 6 }
/-- STG_REPAIR_HBM.repair_hbm (R241). -/
def STG_repair_hbm : Field :=
  { name := "STG_repair_hbm", block := 11, off := 0x280138, msb := 63, lsb := 0, acc := .rh, kept := 24, cls := .counter,
    item := some 7 }
/-- STG_REPAIR_INGEST.repair_ingest (R241). -/
def STG_repair_ingest : Field :=
  { name := "STG_repair_ingest", block := 11, off := 0x280140, msb := 63, lsb := 0, acc := .rh, kept := 24, cls := .counter,
    item := some 8 }
/-- STG_REPAIR_PEER.repair_peer (R241). -/
def STG_repair_peer : Field :=
  { name := "STG_repair_peer", block := 11, off := 0x280148, msb := 63, lsb := 0, acc := .rh, kept := 24, cls := .counter,
    item := some 9 }
/-- STG_REPAIR_RECOMPUTE.repair_recompute (R241). -/
def STG_repair_recompute : Field :=
  { name := "STG_repair_recompute", block := 11, off := 0x280150, msb := 63, lsb := 0, acc := .rh, kept := 24,
    cls := .counter, item := some 10 }
/-- STG_REPAIR_FLASH.repair_flash (R241). -/
def STG_repair_flash : Field :=
  { name := "STG_repair_flash", block := 11, off := 0x280158, msb := 63, lsb := 0, acc := .rh, kept := 24, cls := .counter,
    item := some 11 }
/-- STG_SLOTS_LOST.slots_lost (R241). -/
def STG_slots_lost : Field :=
  { name := "STG_slots_lost", block := 11, off := 0x280160, msb := 63, lsb := 0, acc := .rh, kept := 24, cls := .counter,
    item := some 12 }
/-- STG_HBM_CORRECTED.hbm_corrected (R241). -/
def STG_hbm_corrected : Field :=
  { name := "STG_hbm_corrected", block := 11, off := 0x280168, msb := 63, lsb := 0, acc := .rh, kept := 24, cls := .counter,
    item := some 13 }
/-- STG_HBM_UE_TRANSIENT.hbm_ue_transient (R241). -/
def STG_hbm_ue_transient : Field :=
  { name := "STG_hbm_ue_transient", block := 11, off := 0x280170, msb := 63, lsb := 0, acc := .rh, kept := 24,
    cls := .counter, item := some 14 }
/-- STG_HBM_UE_LASTING.hbm_ue_lasting (R241). -/
def STG_hbm_ue_lasting : Field :=
  { name := "STG_hbm_ue_lasting", block := 11, off := 0x280178, msb := 63, lsb := 0, acc := .rh, kept := 24, cls := .counter,
    item := some 15 }
/-- STG_MIRROR_RESENDS.mirror_resends (R241). -/
def STG_mirror_resends : Field :=
  { name := "STG_mirror_resends", block := 11, off := 0x280180, msb := 63, lsb := 0, acc := .rh, kept := 24, cls := .counter,
    item := some 16 }
/-- STG_BUDGET_NS.budget_ns (R241). -/
def STG_budget_ns : Field :=
  { name := "STG_budget_ns", block := 11, off := 0x280188, msb := 63, lsb := 0, acc := .rh, kept := 24, cls := .counter,
    item := some 17 }
/-- STG_NVME_BUDGET_WAITS.nvme_budget_waits (R241). -/
def STG_nvme_budget_waits : Field :=
  { name := "STG_nvme_budget_waits", block := 11, off := 0x280190, msb := 63, lsb := 0, acc := .rh, kept := 24,
    cls := .counter, item := some 18 }
/-- STG_LIMIT_CUTS.limit_cuts (R241). -/
def STG_limit_cuts : Field :=
  { name := "STG_limit_cuts", block := 11, off := 0x280198, msb := 63, lsb := 0, acc := .rh, kept := 24, cls := .counter,
    item := some 19 }
/-- HHL_STAT.link_up (R265). -/
def HHL_STAT_link_up : Field :=
  { name := "HHL_STAT_link_up", block := 12, off := 0x2c0000, msb := 0, lsb := 0, acc := .rh, kept := 24, cls := .status }
/-- HHL_STAT.lanes_up (R265). -/
def HHL_STAT_lanes_up : Field :=
  { name := "HHL_STAT_lanes_up", block := 12, off := 0x2c0000, msb := 5, lsb := 1, acc := .rh, kept := 24, cls := .status }
/-- HHL_STAT.peer_silent (R265). -/
def HHL_STAT_peer_silent : Field :=
  { name := "HHL_STAT_peer_silent", block := 12, off := 0x2c0000, msb := 6, lsb := 6, acc := .rh, kept := 24, cls := .status }
/-- HHL_STAT.resync (R265). -/
def HHL_STAT_resync : Field :=
  { name := "HHL_STAT_resync", block := 12, off := 0x2c0000, msb := 7, lsb := 7, acc := .rh, kept := 24, cls := .status }
/-- HHL_STAT.peer_in_service (R265). -/
def HHL_STAT_peer_in_service : Field :=
  { name := "HHL_STAT_peer_in_service", block := 12, off := 0x2c0000, msb := 8, lsb := 8, acc := .rh, kept := 24,
    cls := .status }
/-- HHL_LANES.up (R265). -/
def HHL_LANES_up : Field :=
  { name := "HHL_LANES_up", block := 12, off := 0x2c0004, msb := 23, lsb := 0, acc := .rh, kept := 24, cls := .status }
/-- HHL_CAP.mirror_gbs (R265). -/
def HHL_CAP_mirror_gbs : Field :=
  { name := "HHL_CAP_mirror_gbs", block := 12, off := 0x2c0008, msb := 8, lsb := 0, acc := .rh, kept := 24, cls := .status }
/-- HHL_RESYNC.bytes (R265). -/
def HHL_RESYNC_bytes : Field :=
  { name := "HHL_RESYNC_bytes", block := 12, off := 0x2c0010, msb := 63, lsb := 0, acc := .rh, kept := 24, cls := .status }
/-- HHL_ST_CFG.die_check_off (R265). -/
def HHL_ST_CFG_die_check_off : Field :=
  { name := "HHL_ST_CFG_die_check_off", block := 12, off := 0x2c0020, msb := 0, lsb := 0, acc := .rw, kept := 24,
    cls := .config }
/-- HHL_ST_STAT.last_fault_module (R265). -/
def HHL_ST_STAT_last_fault_module : Field :=
  { name := "HHL_ST_STAT_last_fault_module", block := 12, off := 0x2c0024, msb := 7, lsb := 0, acc := .rh, reset := 0xff,
    kept := 24, cls := .status }
/-- HHL_ST_STAT.fault_present (R265). -/
def HHL_ST_STAT_fault_present : Field :=
  { name := "HHL_ST_STAT_fault_present", block := 12, off := 0x2c0024, msb := 8, lsb := 8, acc := .rh, kept := 24,
    cls := .status }
/-- HHL_ST_STAT.faulty (R265). -/
def HHL_ST_STAT_faulty : Field :=
  { name := "HHL_ST_STAT_faulty", block := 12, off := 0x2c0024, msb := 31, lsb := 16, acc := .rh, kept := 24, cls := .status }
/-- HHL_ST_PERIOD.seconds (R265). -/
def HHL_ST_PERIOD_seconds : Field :=
  { name := "HHL_ST_PERIOD_seconds", block := 12, off := 0x2c0028, msb := 31, lsb := 0, acc := .rh, kept := 24,
    cls := .status }
/-- HHL_TX_PACKETS.tx_packets (R265). -/
def HHL_tx_packets : Field :=
  { name := "HHL_tx_packets", block := 12, off := 0x2c0100, msb := 63, lsb := 0, acc := .rh, kept := 24, cls := .counter,
    item := some 0 }
/-- HHL_RX_PACKETS.rx_packets (R265). -/
def HHL_rx_packets : Field :=
  { name := "HHL_rx_packets", block := 12, off := 0x2c0108, msb := 63, lsb := 0, acc := .rh, kept := 24, cls := .counter,
    item := some 1 }
/-- HHL_MIRROR_BYTES.mirror_bytes (R265). -/
def HHL_mirror_bytes : Field :=
  { name := "HHL_mirror_bytes", block := 12, off := 0x2c0110, msb := 63, lsb := 0, acc := .rh, kept := 24, cls := .counter,
    item := some 2 }
/-- HHL_CRC_TRANSIENT.crc_transient (R265). -/
def HHL_crc_transient : Field :=
  { name := "HHL_crc_transient", block := 12, off := 0x2c0118, msb := 63, lsb := 0, acc := .rh, kept := 24, cls := .counter,
    item := some 3 }
/-- HHL_CRC_LASTING.crc_lasting (R265). -/
def HHL_crc_lasting : Field :=
  { name := "HHL_crc_lasting", block := 12, off := 0x2c0120, msb := 63, lsb := 0, acc := .rh, kept := 24, cls := .counter,
    item := some 4 }
/-- HHL_LANE_DROPS.lane_drops (R265). -/
def HHL_lane_drops : Field :=
  { name := "HHL_lane_drops", block := 12, off := 0x2c0128, msb := 63, lsb := 0, acc := .rh, kept := 24, cls := .counter,
    item := some 5 }
/-- HHL_LINK_RESETS.link_resets (R265). -/
def HHL_link_resets : Field :=
  { name := "HHL_link_resets", block := 12, off := 0x2c0130, msb := 63, lsb := 0, acc := .rh, kept := 24, cls := .counter,
    item := some 6 }
/-- HHL_SILENCES.silences (R265). -/
def HHL_silences : Field :=
  { name := "HHL_silences", block := 12, off := 0x2c0138, msb := 63, lsb := 0, acc := .rh, kept := 24, cls := .counter,
    item := some 7 }
/-- HHL_RESYNC_BYTES.resync_bytes (R265). -/
def HHL_resync_bytes : Field :=
  { name := "HHL_resync_bytes", block := 12, off := 0x2c0140, msb := 63, lsb := 0, acc := .rh, kept := 24, cls := .counter,
    item := some 8 }
/-- HHL_ST_PATH_CHECKS.st_path_checks (R265). -/
def HHL_st_path_checks : Field :=
  { name := "HHL_st_path_checks", block := 12, off := 0x2c0148, msb := 63, lsb := 0, acc := .rh, kept := 24, cls := .counter,
    item := some 9 }
/-- HHL_ST_DIE_CHECKS.st_die_checks (R265). -/
def HHL_st_die_checks : Field :=
  { name := "HHL_st_die_checks", block := 12, off := 0x2c0150, msb := 63, lsb := 0, acc := .rh, kept := 24, cls := .counter,
    item := some 10 }
/-- HHL_ST_SKIPPED.st_skipped (R265). -/
def HHL_st_skipped : Field :=
  { name := "HHL_st_skipped", block := 12, off := 0x2c0158, msb := 63, lsb := 0, acc := .rh, kept := 24, cls := .counter,
    item := some 11 }
/-- HHL_ST_FAULTS.st_faults (R265). -/
def HHL_st_faults : Field :=
  { name := "HHL_st_faults", block := 12, off := 0x2c0160, msb := 63, lsb := 0, acc := .rh, kept := 24, cls := .counter,
    item := some 12 }
/-- ARB_STAT.role (R266). -/
def ARB_STAT_role : Field :=
  { name := "ARB_STAT_role", block := 13, off := 0x300000, msb := 2, lsb := 0, acc := .rh, kept := 24, cls := .status }
/-- ARB_STAT.fence_pin (R266). -/
def ARB_STAT_fence_pin : Field :=
  { name := "ARB_STAT_fence_pin", block := 13, off := 0x300000, msb := 3, lsb := 3, acc := .rh, kept := 24, cls := .status,
    view := true }
/-- ARB_STAT.peer_lost (R266). -/
def ARB_STAT_peer_lost : Field :=
  { name := "ARB_STAT_peer_lost", block := 13, off := 0x300000, msb := 4, lsb := 4, acc := .rh, kept := 24, cls := .status }
/-- ARB_STAT.phase (R266). -/
def ARB_STAT_phase : Field :=
  { name := "ARB_STAT_phase", block := 13, off := 0x300000, msb := 7, lsb := 5, acc := .rh, kept := 24, cls := .status }
/-- ARB_STAT.owned (R266). -/
def ARB_STAT_owned : Field :=
  { name := "ARB_STAT_owned", block := 13, off := 0x300000, msb := 31, lsb := 16, acc := .rh, kept := 24, cls := .status }
/-- ARB_TERM.term (R266). -/
def ARB_TERM_term : Field :=
  { name := "ARB_TERM_term", block := 13, off := 0x300008, msb := 63, lsb := 0, acc := .rh, kept := 24, cls := .status }
/-- ARB_CTL.release (R266). -/
def ARB_CTL_release : Field :=
  { name := "ARB_CTL_release", block := 13, off := 0x300010, msb := 0, lsb := 0, acc := .w1p, kept := 0, cls := .action }
/-- ARB_CTL.handback (R266). -/
def ARB_CTL_handback : Field :=
  { name := "ARB_CTL_handback", block := 13, off := 0x300010, msb := 1, lsb := 1, acc := .w1p, kept := 0, cls := .action }
/-- ARB_CTL.auto_handback (R266). -/
def ARB_CTL_auto_handback : Field :=
  { name := "ARB_CTL_auto_handback", block := 13, off := 0x300010, msb := 2, lsb := 2, acc := .rw, reset := 1, kept := 24,
    cls := .config }
/-- ARB_CTL.link_loss_policy (R266). -/
def ARB_CTL_link_loss_policy : Field :=
  { name := "ARB_CTL_link_loss_policy", block := 13, off := 0x300010, msb := 3, lsb := 3, acc := .rwlk, reset := 1,
    kept := 24, cls := .config }
/-- ARB_CTL.verdict_wait_ms (R266). -/
def ARB_CTL_verdict_wait_ms : Field :=
  { name := "ARB_CTL_verdict_wait_ms", block := 13, off := 0x300010, msb := 15, lsb := 8, acc := .rw, reset := 2, kept := 24,
    cls := .config, lo := 1, hi := some 255 }
/-- ARB_LAST.duration_us (R266). -/
def ARB_LAST_duration_us : Field :=
  { name := "ARB_LAST_duration_us", block := 13, off := 0x300018, msb := 9, lsb := 0, acc := .rh, kept := 24, cls := .status }
/-- ARB_LAST.reason (R266). -/
def ARB_LAST_reason : Field :=
  { name := "ARB_LAST_reason", block := 13, off := 0x300018, msb := 23, lsb := 16, acc := .rh, kept := 24, cls := .status }
/-- ARB_VERDICT_REQS.verdict_reqs (R266). -/
def ARB_verdict_reqs : Field :=
  { name := "ARB_verdict_reqs", block := 13, off := 0x300100, msb := 63, lsb := 0, acc := .rh, kept := 24, cls := .counter,
    item := some 0 }
/-- ARB_VERDICTS_ACCEPTED.verdicts_accepted (R266). -/
def ARB_verdicts_accepted : Field :=
  { name := "ARB_verdicts_accepted", block := 13, off := 0x300108, msb := 63, lsb := 0, acc := .rh, kept := 24,
    cls := .counter, item := some 1 }
/-- ARB_VERDICTS_IGNORED.verdicts_ignored (R266). -/
def ARB_verdicts_ignored : Field :=
  { name := "ARB_verdicts_ignored", block := 13, off := 0x300110, msb := 63, lsb := 0, acc := .rh, kept := 24,
    cls := .counter, item := some 2 }
/-- ARB_TAKEOVERS.takeovers (R266). -/
def ARB_takeovers : Field :=
  { name := "ARB_takeovers", block := 13, off := 0x300118, msb := 63, lsb := 0, acc := .rh, kept := 24, cls := .counter,
    item := some 3 }
/-- ARB_TRANSFERS_GIVEN.transfers_given (R266). -/
def ARB_transfers_given : Field :=
  { name := "ARB_transfers_given", block := 13, off := 0x300120, msb := 63, lsb := 0, acc := .rh, kept := 24,
    cls := .counter, item := some 4 }
/-- ARB_TRANSFERS_TAKEN.transfers_taken (R266). -/
def ARB_transfers_taken : Field :=
  { name := "ARB_transfers_taken", block := 13, off := 0x300128, msb := 63, lsb := 0, acc := .rh, kept := 24,
    cls := .counter, item := some 5 }
/-- ARB_FENCE_EVENTS.fence_events (R266). -/
def ARB_fence_events : Field :=
  { name := "ARB_fence_events", block := 13, off := 0x300130, msb := 63, lsb := 0, acc := .rh, kept := 24, cls := .counter,
    item := some 6 }
/-- ARB_MSGS_RX.msgs_rx (R266). -/
def ARB_msgs_rx : Field :=
  { name := "ARB_msgs_rx", block := 13, off := 0x300138, msb := 63, lsb := 0, acc := .rh, kept := 24, cls := .counter,
    item := some 7 }
/-- ARB_MSGS_BAD.msgs_bad (R266). -/
def ARB_msgs_bad : Field :=
  { name := "ARB_msgs_bad", block := 13, off := 0x300140, msb := 63, lsb := 0, acc := .rh, kept := 24, cls := .counter,
    item := some 8 }
/-- STR_STAT.rebuild_active (R295). -/
def STR_STAT_rebuild_active : Field :=
  { name := "STR_STAT_rebuild_active", block := 14, off := 0x340000, msb := 0, lsb := 0, acc := .rh, kept := 24,
    cls := .status }
/-- STR_STAT.rebuild_paused (R295). -/
def STR_STAT_rebuild_paused : Field :=
  { name := "STR_STAT_rebuild_paused", block := 14, off := 0x340000, msb := 1, lsb := 1, acc := .rh, kept := 24,
    cls := .status }
/-- STR_STAT.reshape_phase (R295). -/
def STR_STAT_reshape_phase : Field :=
  { name := "STR_STAT_reshape_phase", block := 14, off := 0x340000, msb := 3, lsb := 2, acc := .rh, kept := 24,
    cls := .status }
/-- STR_STAT.lost_present (R295). -/
def STR_STAT_lost_present : Field :=
  { name := "STR_STAT_lost_present", block := 14, off := 0x340000, msb := 4, lsb := 4, acc := .rh, kept := 24,
    cls := .status, view := true }
/-- STR_STAT.unplaceable (R295). -/
def STR_STAT_unplaceable : Field :=
  { name := "STR_STAT_unplaceable", block := 14, off := 0x340000, msb := 5, lsb := 5, acc := .rh, kept := 24, cls := .status,
    view := true }
/-- STR_STAT.writes_held (R295). -/
def STR_STAT_writes_held : Field :=
  { name := "STR_STAT_writes_held", block := 14, off := 0x340000, msb := 6, lsb := 6, acc := .rh, kept := 24, cls := .status,
    view := true }
/-- STR_CTL.fill_us (R295). -/
def STR_CTL_fill_us : Field :=
  { name := "STR_CTL_fill_us", block := 14, off := 0x340004, msb := 13, lsb := 0, acc := .rw, reset := 0xc8, kept := 24,
    cls := .config, lo := 10, hi := some 10000 }
/-- STR_POOL_SEL.pool (R295). -/
def STR_POOL_SEL_pool : Field :=
  { name := "STR_POOL_SEL_pool", block := 14, off := 0x340010, msb := 3, lsb := 0, acc := .rw, kept := 24, cls := .pointer }
/-- STR_P_GEOM.data_members (R295). -/
def STR_P_GEOM_data_members : Field :=
  { name := "STR_P_GEOM_data_members", block := 14, off := 0x340014, msb := 5, lsb := 0, acc := .rh, kept := 56,
    cls := .status, view := true }
/-- STR_P_GEOM.parity_members (R295). -/
def STR_P_GEOM_parity_members : Field :=
  { name := "STR_P_GEOM_parity_members", block := 14, off := 0x340014, msb := 7, lsb := 6, acc := .rh, kept := 56,
    cls := .status, view := true }
/-- STR_P_GEOM.target_data (R295). -/
def STR_P_GEOM_target_data : Field :=
  { name := "STR_P_GEOM_target_data", block := 14, off := 0x340014, msb := 13, lsb := 8, acc := .ro, kept := 56,
    cls := .fixed, view := true }
/-- STR_P_GEOM.target_parity (R295). -/
def STR_P_GEOM_target_parity : Field :=
  { name := "STR_P_GEOM_target_parity", block := 14, off := 0x340014, msb := 15, lsb := 14, acc := .ro, kept := 56,
    cls := .fixed, view := true }
/-- STR_P_GEOM.page_kib (R295). -/
def STR_P_GEOM_page_kib : Field :=
  { name := "STR_P_GEOM_page_kib", block := 14, off := 0x340014, msb := 21, lsb := 16, acc := .ro, kept := 56, cls := .fixed,
    view := true }
/-- STR_P_STAT.dies_failed (R295). -/
def STR_P_STAT_dies_failed : Field :=
  { name := "STR_P_STAT_dies_failed", block := 14, off := 0x340018, msb := 11, lsb := 0, acc := .rh, kept := 24,
    cls := .status, view := true }
/-- STR_P_STAT.modules_out (R295). -/
def STR_P_STAT_modules_out : Field :=
  { name := "STR_P_STAT_modules_out", block := 14, off := 0x340018, msb := 18, lsb := 12, acc := .rh, kept := 24,
    cls := .status, view := true }
/-- STR_P_STAT.oasis_left_pct (R295). -/
def STR_P_STAT_oasis_left_pct : Field :=
  { name := "STR_P_STAT_oasis_left_pct", block := 14, off := 0x340018, msb := 31, lsb := 24, acc := .rh, kept := 24,
    cls := .status, view := true }
/-- STR_P_DEG.stripes (R295). -/
def STR_P_DEG_stripes : Field :=
  { name := "STR_P_DEG_stripes", block := 14, off := 0x340020, msb := 63, lsb := 0, acc := .rh, kept := 24, cls := .status,
    count := 3, stride := 0x8, view := true }
/-- STR_P_REBUILD_LEFT.rebuild_left (R295). -/
def STR_P_REBUILD_LEFT_rebuild_left : Field :=
  { name := "STR_P_REBUILD_LEFT_rebuild_left", block := 14, off := 0x340040, msb := 63, lsb := 0, acc := .rh, kept := 24,
    cls := .status, view := true }
/-- STR_P_RESHAPE_POS.position (R295). -/
def STR_P_RESHAPE_POS_position : Field :=
  { name := "STR_P_RESHAPE_POS_position", block := 14, off := 0x340048, msb := 63, lsb := 0, acc := .rh, kept := 24,
    cls := .status, view := true }
/-- STR_P_RESHAPE_LEFT.reshape_left (R295). -/
def STR_P_RESHAPE_LEFT_reshape_left : Field :=
  { name := "STR_P_RESHAPE_LEFT_reshape_left", block := 14, off := 0x340050, msb := 63, lsb := 0, acc := .rh, kept := 24,
    cls := .status, view := true }
/-- STR_P_RESHAPE_NEED.need_bytes (R295). -/
def STR_P_RESHAPE_NEED_need_bytes : Field :=
  { name := "STR_P_RESHAPE_NEED_need_bytes", block := 14, off := 0x340058, msb := 63, lsb := 0, acc := .rh, kept := 24,
    cls := .status, view := true }
/-- STR_P_NEXT_SEQ.next_seq (R295). -/
def STR_P_NEXT_SEQ_next_seq : Field :=
  { name := "STR_P_NEXT_SEQ_next_seq", block := 14, off := 0x340060, msb := 63, lsb := 0, acc := .rh, kept := 24,
    cls := .status, view := true }
/-- STR_LOST_COUNT.entries (R295). -/
def STR_LOST_COUNT_entries : Field :=
  { name := "STR_LOST_COUNT_entries", block := 14, off := 0x340080, msb := 20, lsb := 0, acc := .rh, kept := 24,
    cls := .status, view := true }
/-- STR_LOST_IDX.index (R295). -/
def STR_LOST_IDX_index : Field :=
  { name := "STR_LOST_IDX_index", block := 14, off := 0x340084, msb := 19, lsb := 0, acc := .rw, kept := 24, cls := .pointer }
/-- STR_LOST_SEQ.stripe_seq (R295). -/
def STR_LOST_SEQ_stripe_seq : Field :=
  { name := "STR_LOST_SEQ_stripe_seq", block := 14, off := 0x340088, msb := 63, lsb := 0, acc := .rh, kept := 24,
    cls := .status, view := true }
/-- STR_LOST_MASK.lost_mask (R295). -/
def STR_LOST_MASK_lost_mask : Field :=
  { name := "STR_LOST_MASK_lost_mask", block := 14, off := 0x340090, msb := 34, lsb := 0, acc := .rh, kept := 24,
    cls := .status, view := true }
/-- STR_LOST_MASK.pool (R295). -/
def STR_LOST_MASK_pool : Field :=
  { name := "STR_LOST_MASK_pool", block := 14, off := 0x340090, msb := 63, lsb := 60, acc := .rh, kept := 24, cls := .status,
    view := true }
/-- STR_LOST_TIME.time_ns (R295). -/
def STR_LOST_TIME_time_ns : Field :=
  { name := "STR_LOST_TIME_time_ns", block := 14, off := 0x340098, msb := 63, lsb := 0, acc := .rh, kept := 24,
    cls := .status, view := true }
/-- STR_JOURNAL.open (R295). -/
def STR_JOURNAL_open : Field :=
  { name := "STR_JOURNAL_open", block := 14, off := 0x3400a0, msb := 19, lsb := 0, acc := .rh, kept := 24, cls := .status,
    view := true }
/-- STR_JOURNAL.single_copy (R295). -/
def STR_JOURNAL_single_copy : Field :=
  { name := "STR_JOURNAL_single_copy", block := 14, off := 0x3400a0, msb := 20, lsb := 20, acc := .rh, kept := 24,
    cls := .status, view := true }
/-- STR_STRIPES_SEALED.stripes_sealed (R295). -/
def STR_stripes_sealed : Field :=
  { name := "STR_stripes_sealed", block := 14, off := 0x340100, msb := 63, lsb := 0, acc := .rh, kept := 24, cls := .counter,
    item := some 0 }
/-- STR_STRIPES_ABANDONED.stripes_abandoned (R295). -/
def STR_stripes_abandoned : Field :=
  { name := "STR_stripes_abandoned", block := 14, off := 0x340108, msb := 63, lsb := 0, acc := .rh, kept := 24,
    cls := .counter, item := some 1 }
/-- STR_FILL_TIMEOUTS.fill_timeouts (R295). -/
def STR_fill_timeouts : Field :=
  { name := "STR_fill_timeouts", block := 14, off := 0x340110, msb := 63, lsb := 0, acc := .rh, kept := 24, cls := .counter,
    item := some 2 }
/-- STR_MEMBER_FAILURES.member_failures (R295). -/
def STR_member_failures : Field :=
  { name := "STR_member_failures", block := 14, off := 0x340118, msb := 63, lsb := 0, acc := .rh, kept := 24,
    cls := .counter, item := some 3 }
/-- STR_READAROUND_READS.readaround_reads (R295). -/
def STR_readaround_reads : Field :=
  { name := "STR_readaround_reads", block := 14, off := 0x340120, msb := 63, lsb := 0, acc := .rh, kept := 24,
    cls := .counter, item := some 4 }
/-- STR_READAROUND_WAITS.readaround_waits (R295). -/
def STR_readaround_waits : Field :=
  { name := "STR_readaround_waits", block := 14, off := 0x340128, msb := 63, lsb := 0, acc := .rh, kept := 24,
    cls := .counter, item := some 5 }
/-- STR_PAGES_REBUILT.pages_rebuilt (R295). -/
def STR_pages_rebuilt : Field :=
  { name := "STR_pages_rebuilt", block := 14, off := 0x340130, msb := 63, lsb := 0, acc := .rh, kept := 24, cls := .counter,
    item := some 6 }
/-- STR_UNREADABLE_PAGES.unreadable_pages (R295). -/
def STR_unreadable_pages : Field :=
  { name := "STR_unreadable_pages", block := 14, off := 0x340138, msb := 63, lsb := 0, acc := .rh, kept := 24,
    cls := .counter, item := some 7 }
/-- STR_STRIPES_LOST.stripes_lost (R295). -/
def STR_stripes_lost : Field :=
  { name := "STR_stripes_lost", block := 14, off := 0x340140, msb := 63, lsb := 0, acc := .rh, kept := 24, cls := .counter,
    item := some 8 }
/-- STR_BLOCKS_LOST.blocks_lost (R295). -/
def STR_blocks_lost : Field :=
  { name := "STR_blocks_lost", block := 14, off := 0x340148, msb := 63, lsb := 0, acc := .rh, kept := 24, cls := .counter,
    item := some 9 }
/-- STR_LOST_UNLISTED.lost_unlisted (R295). -/
def STR_lost_unlisted : Field :=
  { name := "STR_lost_unlisted", block := 14, off := 0x340150, msb := 63, lsb := 0, acc := .rh, kept := 24, cls := .counter,
    item := some 10 }
/-- STR_RESHAPE_STRIPES_COPIED.reshape_stripes_copied (R295). -/
def STR_reshape_stripes_copied : Field :=
  { name := "STR_reshape_stripes_copied", block := 14, off := 0x340158, msb := 63, lsb := 0, acc := .rh, kept := 24,
    cls := .counter, item := some 11 }
/-- STR_SWITCHOVERS.switchovers (R295). -/
def STR_switchovers : Field :=
  { name := "STR_switchovers", block := 14, off := 0x340160, msb := 63, lsb := 0, acc := .rh, kept := 24, cls := .counter,
    item := some 12 }
/-- STR_JOURNAL_PAGES.journal_pages (R295). -/
def STR_journal_pages : Field :=
  { name := "STR_journal_pages", block := 14, off := 0x340168, msb := 63, lsb := 0, acc := .rh, kept := 24, cls := .counter,
    item := some 13 }
/-- STR_JOURNAL_REWRITES.journal_rewrites (R295). -/
def STR_journal_rewrites : Field :=
  { name := "STR_journal_rewrites", block := 14, off := 0x340170, msb := 63, lsb := 0, acc := .rh, kept := 24,
    cls := .counter, item := some 14 }
/-- SNP_STAT.retained (R315). -/
def SNP_STAT_retained : Field :=
  { name := "SNP_STAT_retained", block := 15, off := 0x380000, msb := 14, lsb := 0, acc := .rh, kept := 24, cls := .status,
    view := true }
/-- SNP_STAT.caravans (R315). -/
def SNP_STAT_caravans : Field :=
  { name := "SNP_STAT_caravans", block := 15, off := 0x380000, msb := 22, lsb := 16, acc := .rh, kept := 24, cls := .status,
    view := true }
/-- SNP_CTL.car_max_epochs (R315). -/
def SNP_CTL_car_max_epochs : Field :=
  { name := "SNP_CTL_car_max_epochs", block := 15, off := 0x380004, msb := 7, lsb := 0, acc := .rw, reset := 0x40,
    kept := 24, cls := .config, lo := 1, hi := some 255 }
/-- SNP_DEV.device_id (R315). -/
def SNP_DEV_device_id : Field :=
  { name := "SNP_DEV_device_id", block := 15, off := 0x380008, msb := 12, lsb := 0, acc := .ro, kept := 56, cls := .fixed,
    view := true }
/-- SNP_NS_SEL.nsid (R315). -/
def SNP_NS_SEL_nsid : Field :=
  { name := "SNP_NS_SEL_nsid", block := 15, off := 0x380010, msb := 12, lsb := 0, acc := .rw, kept := 24, cls := .pointer,
    lo := 1, hi := some 4096 }
/-- SNP_NS_STAT.retained (R315). -/
def SNP_NS_STAT_retained : Field :=
  { name := "SNP_NS_STAT_retained", block := 15, off := 0x380014, msb := 12, lsb := 0, acc := .rh, kept := 24,
    cls := .status, view := true }
/-- SNP_NS_STAT.outside_guarantee (R315). -/
def SNP_NS_STAT_outside_guarantee : Field :=
  { name := "SNP_NS_STAT_outside_guarantee", block := 15, off := 0x380014, msb := 13, lsb := 13, acc := .rh, kept := 24,
    cls := .status, view := true }
/-- SNP_NS_STAT.replica (R315). -/
def SNP_NS_STAT_replica : Field :=
  { name := "SNP_NS_STAT_replica", block := 15, off := 0x380014, msb := 14, lsb := 14, acc := .rh, kept := 24,
    cls := .status, view := true }
/-- SNP_NS_STAT.bc_wait (R315). -/
def SNP_NS_STAT_bc_wait : Field :=
  { name := "SNP_NS_STAT_bc_wait", block := 15, off := 0x380014, msb := 15, lsb := 15, acc := .rh, kept := 24,
    cls := .status, view := true }
/-- SNP_NS_STAT.placed (R315). -/
def SNP_NS_STAT_placed : Field :=
  { name := "SNP_NS_STAT_placed", block := 15, off := 0x380014, msb := 20, lsb := 16, acc := .rh, kept := 24, cls := .status,
    view := true }
/-- SNP_NS_CLOSED.cairn (R315). -/
def SNP_NS_CLOSED_cairn : Field :=
  { name := "SNP_NS_CLOSED_cairn", block := 15, off := 0x380018, msb := 63, lsb := 0, acc := .rh, kept := 24, cls := .status,
    view := true }
/-- SNP_NS_PLACED.cairn (R315). -/
def SNP_NS_PLACED_cairn : Field :=
  { name := "SNP_NS_PLACED_cairn", block := 15, off := 0x380020, msb := 63, lsb := 0, acc := .rh, kept := 24, cls := .status,
    view := true }
/-- SNP_RET_CAIRN.cairn (R315). -/
def SNP_RET_CAIRN_cairn : Field :=
  { name := "SNP_RET_CAIRN_cairn", block := 15, off := 0x380028, msb := 63, lsb := 0, acc := .rw, kept := 24,
    cls := .pointer }
/-- SNP_RET_CTL.retain (R315). -/
def SNP_RET_CTL_retain : Field :=
  { name := "SNP_RET_CTL_retain", block := 15, off := 0x380030, msb := 0, lsb := 0, acc := .w1p, kept := 0, cls := .action }
/-- SNP_RET_CTL.release (R315). -/
def SNP_RET_CTL_release : Field :=
  { name := "SNP_RET_CTL_release", block := 15, off := 0x380030, msb := 1, lsb := 1, acc := .w1p, kept := 0, cls := .action }
/-- SNP_RET_CTL.result (R315). -/
def SNP_RET_CTL_result : Field :=
  { name := "SNP_RET_CTL_result", block := 15, off := 0x380030, msb := 10, lsb := 8, acc := .rh, kept := 24, cls := .status }
/-- SNP_CAR_SEL.target (R315). -/
def SNP_CAR_SEL_target : Field :=
  { name := "SNP_CAR_SEL_target", block := 15, off := 0x380040, msb := 5, lsb := 0, acc := .rw, kept := 24, cls := .pointer }
/-- SNP_CAR_STAT.state (R315). -/
def SNP_CAR_STAT_state : Field :=
  { name := "SNP_CAR_STAT_state", block := 15, off := 0x380044, msb := 2, lsb := 0, acc := .rh, kept := 24, cls := .status,
    view := true }
/-- SNP_CAR_STAT.full (R315). -/
def SNP_CAR_STAT_full : Field :=
  { name := "SNP_CAR_STAT_full", block := 15, off := 0x380044, msb := 3, lsb := 3, acc := .rh, kept := 24, cls := .status,
    view := true }
/-- SNP_CAR_STAT.err (R315). -/
def SNP_CAR_STAT_err : Field :=
  { name := "SNP_CAR_STAT_err", block := 15, off := 0x380044, msb := 15, lsb := 8, acc := .rh, kept := 24, cls := .status,
    view := true }
/-- SNP_CAR_CTL.skip_lost (R315). -/
def SNP_CAR_CTL_skip_lost : Field :=
  { name := "SNP_CAR_CTL_skip_lost", block := 15, off := 0x380048, msb := 0, lsb := 0, acc := .w1p, kept := 0,
    cls := .action }
/-- SNP_CAR_CTL.restart (R315). -/
def SNP_CAR_CTL_restart : Field :=
  { name := "SNP_CAR_CTL_restart", block := 15, off := 0x380048, msb := 1, lsb := 1, acc := .w1p, kept := 0, cls := .action }
/-- SNP_CAR_CTL.full (R315). -/
def SNP_CAR_CTL_full : Field :=
  { name := "SNP_CAR_CTL_full", block := 15, off := 0x380048, msb := 2, lsb := 2, acc := .w1p, kept := 0, cls := .action }
/-- SNP_CAR_NUM.value (R315). -/
def SNP_CAR_NUM_value : Field :=
  { name := "SNP_CAR_NUM_value", block := 15, off := 0x380050, msb := 63, lsb := 0, acc := .rh, kept := 24, cls := .status,
    view := true }
/-- SNP_CAR_BASE.value (R315). -/
def SNP_CAR_BASE_value : Field :=
  { name := "SNP_CAR_BASE_value", block := 15, off := 0x380058, msb := 63, lsb := 0, acc := .rh, kept := 24, cls := .status,
    view := true }
/-- SNP_CAR_END.value (R315). -/
def SNP_CAR_END_value : Field :=
  { name := "SNP_CAR_END_value", block := 15, off := 0x380060, msb := 63, lsb := 0, acc := .rh, kept := 24, cls := .status,
    view := true }
/-- SNP_CAR_REC.value (R315). -/
def SNP_CAR_REC_value : Field :=
  { name := "SNP_CAR_REC_value", block := 15, off := 0x380068, msb := 63, lsb := 0, acc := .rh, kept := 24, cls := .status,
    view := true }
/-- SNP_CAIRNS_PLACED.cairns_placed (R315). -/
def SNP_cairns_placed : Field :=
  { name := "SNP_cairns_placed", block := 15, off := 0x380100, msb := 63, lsb := 0, acc := .rh, kept := 24, cls := .counter,
    item := some 0 }
/-- SNP_CAIRNS_CLOSED.cairns_closed (R315). -/
def SNP_cairns_closed : Field :=
  { name := "SNP_cairns_closed", block := 15, off := 0x380108, msb := 63, lsb := 0, acc := .rh, kept := 24, cls := .counter,
    item := some 1 }
/-- SNP_BYTECOUNT_CAIRNS.bytecount_cairns (R315). -/
def SNP_bytecount_cairns : Field :=
  { name := "SNP_bytecount_cairns", block := 15, off := 0x380110, msb := 63, lsb := 0, acc := .rh, kept := 24,
    cls := .counter, item := some 2 }
/-- SNP_TIMER_CAIRNS.timer_cairns (R315). -/
def SNP_timer_cairns : Field :=
  { name := "SNP_timer_cairns", block := 15, off := 0x380118, msb := 63, lsb := 0, acc := .rh, kept := 24, cls := .counter,
    item := some 3 }
/-- SNP_CARAVANS_SHIPPED.caravans_shipped (R315). -/
def SNP_caravans_shipped : Field :=
  { name := "SNP_caravans_shipped", block := 15, off := 0x380120, msb := 63, lsb := 0, acc := .rh, kept := 24,
    cls := .counter, item := some 4 }
/-- SNP_CARAVANS_LANDED.caravans_landed (R315). -/
def SNP_caravans_landed : Field :=
  { name := "SNP_caravans_landed", block := 15, off := 0x380128, msb := 63, lsb := 0, acc := .rh, kept := 24,
    cls := .counter, item := some 5 }
/-- SNP_CARAVAN_BYTES.caravan_bytes (R315). -/
def SNP_caravan_bytes : Field :=
  { name := "SNP_caravan_bytes", block := 15, off := 0x380130, msb := 63, lsb := 0, acc := .rh, kept := 24, cls := .counter,
    item := some 6 }
/-- SNP_CARAVAN_RECONNECTS.caravan_reconnects (R315). -/
def SNP_caravan_reconnects : Field :=
  { name := "SNP_caravan_reconnects", block := 15, off := 0x380138, msb := 63, lsb := 0, acc := .rh, kept := 24,
    cls := .counter, item := some 7 }
/-- SNP_DIGEST_MISMATCHES.digest_mismatches (R315). -/
def SNP_digest_mismatches : Field :=
  { name := "SNP_digest_mismatches", block := 15, off := 0x380140, msb := 63, lsb := 0, acc := .rh, kept := 24,
    cls := .counter, item := some 8 }
/-- SNP_LOST_SKIPPED.lost_skipped (R315). -/
def SNP_lost_skipped : Field :=
  { name := "SNP_lost_skipped", block := 15, off := 0x380148, msb := 63, lsb := 0, acc := .rh, kept := 24, cls := .counter,
    item := some 9 }
/-- FLX_L_STAT.state (R355). -/
def FLX_L_STAT_state : Field :=
  { name := "FLX_L_STAT_state", block := 16, off := 0x400000, msb := 2, lsb := 0, acc := .rh, kept := 24, cls := .status,
    count := 64, stride := 0x1000 }
/-- FLX_L_STAT.module (R355). -/
def FLX_L_STAT_module : Field :=
  { name := "FLX_L_STAT_module", block := 16, off := 0x400000, msb := 9, lsb := 4, acc := .ro, kept := 56, cls := .fixed,
    count := 64, stride := 0x1000 }
/-- FLX_L_STAT.module_port (R355). -/
def FLX_L_STAT_module_port : Field :=
  { name := "FLX_L_STAT_module_port", block := 16, off := 0x400000, msb := 10, lsb := 10, acc := .ro, kept := 56,
    cls := .fixed, count := 64, stride := 0x1000 }
/-- FLX_L_STAT.option_ok (R355). -/
def FLX_L_STAT_option_ok : Field :=
  { name := "FLX_L_STAT_option_ok", block := 16, off := 0x400000, msb := 11, lsb := 11, acc := .rh, kept := 24,
    cls := .status, count := 64, stride := 0x1000 }
/-- FLX_L_STAT.option_full (R355). -/
def FLX_L_STAT_option_full : Field :=
  { name := "FLX_L_STAT_option_full", block := 16, off := 0x400000, msb := 12, lsb := 12, acc := .rh, kept := 24,
    cls := .status, count := 64, stride := 0x1000 }
/-- FLX_L_STAT.die_count (R355). -/
def FLX_L_STAT_die_count : Field :=
  { name := "FLX_L_STAT_die_count", block := 16, off := 0x400000, msb := 22, lsb := 16, acc := .rh, kept := 24,
    cls := .status, count := 64, stride := 0x1000 }
/-- FLX_L_STAT.page_kib (R355). -/
def FLX_L_STAT_page_kib : Field :=
  { name := "FLX_L_STAT_page_kib", block := 16, off := 0x400000, msb := 29, lsb := 24, acc := .rh, kept := 24,
    cls := .status, count := 64, stride := 0x1000 }
/-- FLX_L_CTL.retrain (R355). -/
def FLX_L_CTL_retrain : Field :=
  { name := "FLX_L_CTL_retrain", block := 16, off := 0x400004, msb := 0, lsb := 0, acc := .w1p, kept := 0, cls := .action,
    count := 64, stride := 0x1000 }
/-- FLX_L_CTL.force_down (R355). -/
def FLX_L_CTL_force_down : Field :=
  { name := "FLX_L_CTL_force_down", block := 16, off := 0x400004, msb := 1, lsb := 1, acc := .rw, kept := 24, cls := .config,
    count := 64, stride := 0x1000 }
/-- FLX_L_PRESENT.dies (R355). -/
def FLX_L_PRESENT_dies : Field :=
  { name := "FLX_L_PRESENT_dies", block := 16, off := 0x400008, msb := 63, lsb := 0, acc := .rh, kept := 24, cls := .status,
    count := 64, stride := 0x1000, view := true }
/-- FLX_L_OWNED.dies (R355). -/
def FLX_L_OWNED_dies : Field :=
  { name := "FLX_L_OWNED_dies", block := 16, off := 0x400010, msb := 63, lsb := 0, acc := .rh, kept := 24, cls := .status,
    count := 64, stride := 0x1000, view := true }
/-- FLX_L_FAILED.dies (R355). -/
def FLX_L_FAILED_dies : Field :=
  { name := "FLX_L_FAILED_dies", block := 16, off := 0x400018, msb := 63, lsb := 0, acc := .rh, kept := 24, cls := .status,
    count := 64, stride := 0x1000, view := true }
/-- FLX_L_SUSP.dies (R355). -/
def FLX_L_SUSP_dies : Field :=
  { name := "FLX_L_SUSP_dies", block := 16, off := 0x400020, msb := 63, lsb := 0, acc := .rh, kept := 24, cls := .status,
    count := 64, stride := 0x1000, view := true }
/-- FLX_L_TEMP.temps (R355). -/
def FLX_L_TEMP_temps : Field :=
  { name := "FLX_L_TEMP_temps", block := 16, off := 0x400040, msb := 31, lsb := 0, acc := .rh, kept := 24, cls := .status,
    count := 64, stride := 0x1000, count2 := 4, stride2 := 4 }
/-- FLX_L_BAND.band (R355). -/
def FLX_L_BAND_band : Field :=
  { name := "FLX_L_BAND_band", block := 16, off := 0x400050, msb := 47, lsb := 0, acc := .rh, kept := 24, cls := .status,
    count := 64, stride := 0x1000 }
/-- FLX_L_TERM.term (R355). -/
def FLX_L_TERM_term : Field :=
  { name := "FLX_L_TERM_term", block := 16, off := 0x400058, msb := 63, lsb := 0, acc := .rh, kept := 24, cls := .status,
    count := 64, stride := 0x1000 }
/-- FLX_L_FRAMES_TX.frames_tx (R355). -/
def FLX_L_frames_tx : Field :=
  { name := "FLX_L_frames_tx", block := 16, off := 0x400100, msb := 63, lsb := 0, acc := .rh, kept := 24, cls := .counter,
    item := some 0, count := 64, stride := 0x1000 }
/-- FLX_L_FRAMES_RX.frames_rx (R355). -/
def FLX_L_frames_rx : Field :=
  { name := "FLX_L_frames_rx", block := 16, off := 0x400108, msb := 63, lsb := 0, acc := .rh, kept := 24, cls := .counter,
    item := some 1, count := 64, stride := 0x1000 }
/-- FLX_L_CRC_TRANSIENT.crc_transient (R355). -/
def FLX_L_crc_transient : Field :=
  { name := "FLX_L_crc_transient", block := 16, off := 0x400110, msb := 63, lsb := 0, acc := .rh, kept := 24,
    cls := .counter, item := some 2, count := 64, stride := 0x1000 }
/-- FLX_L_CRC_LASTING.crc_lasting (R355). -/
def FLX_L_crc_lasting : Field :=
  { name := "FLX_L_crc_lasting", block := 16, off := 0x400118, msb := 63, lsb := 0, acc := .rh, kept := 24, cls := .counter,
    item := some 3, count := 64, stride := 0x1000 }
/-- FLX_L_RETRAINS.retrains (R355). -/
def FLX_L_retrains : Field :=
  { name := "FLX_L_retrains", block := 16, off := 0x400120, msb := 63, lsb := 0, acc := .rh, kept := 24, cls := .counter,
    item := some 4, count := 64, stride := 0x1000 }
/-- FLX_L_READS.reads (R355). -/
def FLX_L_reads : Field :=
  { name := "FLX_L_reads", block := 16, off := 0x400128, msb := 63, lsb := 0, acc := .rh, kept := 24, cls := .counter,
    item := some 5, count := 64, stride := 0x1000 }
/-- FLX_L_PROGRAMS.programs (R355). -/
def FLX_L_programs : Field :=
  { name := "FLX_L_programs", block := 16, off := 0x400130, msb := 63, lsb := 0, acc := .rh, kept := 24, cls := .counter,
    item := some 6, count := 64, stride := 0x1000 }
/-- FLX_L_ERASES.erases (R355). -/
def FLX_L_erases : Field :=
  { name := "FLX_L_erases", block := 16, off := 0x400138, msb := 63, lsb := 0, acc := .rh, kept := 24, cls := .counter,
    item := some 7, count := 64, stride := 0x1000 }
/-- FLX_L_SUSPENDS.suspends (R355). -/
def FLX_L_suspends : Field :=
  { name := "FLX_L_suspends", block := 16, off := 0x400140, msb := 63, lsb := 0, acc := .rh, kept := 24, cls := .counter,
    item := some 8, count := 64, stride := 0x1000 }
/-- FLX_L_PROGS_IN_SUSPEND.progs_in_suspend (R355). -/
def FLX_L_progs_in_suspend : Field :=
  { name := "FLX_L_progs_in_suspend", block := 16, off := 0x400148, msb := 63, lsb := 0, acc := .rh, kept := 24,
    cls := .counter, item := some 9, count := 64, stride := 0x1000 }
/-- FLX_L_VERIFY_TRANSIENT.verify_transient (R355). -/
def FLX_L_verify_transient : Field :=
  { name := "FLX_L_verify_transient", block := 16, off := 0x400150, msb := 63, lsb := 0, acc := .rh, kept := 24,
    cls := .counter, item := some 10, count := 64, stride := 0x1000 }
/-- FLX_L_VERIFY_LASTING.verify_lasting (R355). -/
def FLX_L_verify_lasting : Field :=
  { name := "FLX_L_verify_lasting", block := 16, off := 0x400158, msb := 63, lsb := 0, acc := .rh, kept := 24,
    cls := .counter, item := some 11, count := 64, stride := 0x1000 }
/-- FLX_L_PROGRAM_FAILS.program_fails (R355). -/
def FLX_L_program_fails : Field :=
  { name := "FLX_L_program_fails", block := 16, off := 0x400160, msb := 63, lsb := 0, acc := .rh, kept := 24,
    cls := .counter, item := some 12, count := 64, stride := 0x1000 }
/-- FLX_L_ERASE_FAILS.erase_fails (R355). -/
def FLX_L_erase_fails : Field :=
  { name := "FLX_L_erase_fails", block := 16, off := 0x400168, msb := 63, lsb := 0, acc := .rh, kept := 24, cls := .counter,
    item := some 13, count := 64, stride := 0x1000 }
/-- FLX_L_DIE_TIMEOUTS.die_timeouts (R355). -/
def FLX_L_die_timeouts : Field :=
  { name := "FLX_L_die_timeouts", block := 16, off := 0x400170, msb := 63, lsb := 0, acc := .rh, kept := 24, cls := .counter,
    item := some 14, count := 64, stride := 0x1000 }
/-- FLX_L_READ_TRANSIENT.read_transient (R355). -/
def FLX_L_read_transient : Field :=
  { name := "FLX_L_read_transient", block := 16, off := 0x400178, msb := 63, lsb := 0, acc := .rh, kept := 24,
    cls := .counter, item := some 15, count := 64, stride := 0x1000 }
/-- FLX_L_DEPTH.reads (R355). -/
def FLX_L_DEPTH_reads : Field :=
  { name := "FLX_L_DEPTH_reads", block := 16, off := 0x400200, msb := 31, lsb := 0, acc := .rh, kept := 24, cls := .counter,
    count := 64, stride := 0x1000, count2 := 18, stride2 := 4 }
/-- FLX_STAT.lanes_up (R356). -/
def FLX_STAT_lanes_up : Field :=
  { name := "FLX_STAT_lanes_up", block := 16, off := 0x440000, msb := 6, lsb := 0, acc := .rh, kept := 24, cls := .status,
    view := true }
/-- FLX_STAT.deep_busy (R356). -/
def FLX_STAT_deep_busy : Field :=
  { name := "FLX_STAT_deep_busy", block := 16, off := 0x440000, msb := 11, lsb := 8, acc := .rh, kept := 24, cls := .status }
/-- FLX_CFG.ers_susp_max (R356). -/
def FLX_CFG_ers_susp_max : Field :=
  { name := "FLX_CFG_ers_susp_max", block := 16, off := 0x440004, msb := 7, lsb := 0, acc := .ro, reset := 0x10, kept := 56,
    cls := .config }
/-- FLX_CTL.thr_sample_s (R356). -/
def FLX_CTL_thr_sample_s : Field :=
  { name := "FLX_CTL_thr_sample_s", block := 16, off := 0x440008, msb := 11, lsb := 0, acc := .rw, reset := 0x3c, kept := 24,
    cls := .config, lo := 1, hi := some 3600 }
/-- FLX_LANES_UP.up (R356). -/
def FLX_LANES_UP_up : Field :=
  { name := "FLX_LANES_UP_up", block := 16, off := 0x440010, msb := 63, lsb := 0, acc := .rh, kept := 24, cls := .status,
    view := true }
/-- FLX_DEEP_DECODES.deep_decodes (R356). -/
def FLX_deep_decodes : Field :=
  { name := "FLX_deep_decodes", block := 16, off := 0x440100, msb := 63, lsb := 0, acc := .rh, kept := 24, cls := .counter,
    item := some 16 }
/-- FLX_DEEP_FAILURES.deep_failures (R356). -/
def FLX_deep_failures : Field :=
  { name := "FLX_deep_failures", block := 16, off := 0x440108, msb := 63, lsb := 0, acc := .rh, kept := 24, cls := .counter,
    item := some 17 }
/-- FLX_LADDER_READS.ladder_reads (R356). -/
def FLX_ladder_reads : Field :=
  { name := "FLX_ladder_reads", block := 16, off := 0x440110, msb := 63, lsb := 0, acc := .rh, kept := 24, cls := .counter,
    item := some 18 }
/-- FLX_STARVED_ERASES.starved_erases (R356). -/
def FLX_starved_erases : Field :=
  { name := "FLX_starved_erases", block := 16, off := 0x440118, msb := 63, lsb := 0, acc := .rh, kept := 24, cls := .counter,
    item := some 19 }
/-- FLX_ERASE_INCOMPLETE.erase_incomplete (R356). -/
def FLX_erase_incomplete : Field :=
  { name := "FLX_erase_incomplete", block := 16, off := 0x440120, msb := 63, lsb := 0, acc := .rh, kept := 24,
    cls := .counter, item := some 20 }
/-- FLX_GROWN_BAD_BLOCKS.grown_bad_blocks (R356). -/
def FLX_grown_bad_blocks : Field :=
  { name := "FLX_grown_bad_blocks", block := 16, off := 0x440128, msb := 63, lsb := 0, acc := .rh, kept := 24,
    cls := .counter, item := some 21 }
/-- FLX_DIES_FAILED.dies_failed (R356). -/
def FLX_dies_failed : Field :=
  { name := "FLX_dies_failed", block := 16, off := 0x440130, msb := 63, lsb := 0, acc := .rh, kept := 24, cls := .counter,
    item := some 22 }
/-- FLX_THR_BOUND_HITS.thr_bound_hits (R356). -/
def FLX_thr_bound_hits : Field :=
  { name := "FLX_thr_bound_hits", block := 16, off := 0x440138, msb := 63, lsb := 0, acc := .rh, kept := 24, cls := .counter,
    item := some 23 }
/-- FLX_OPTION_UPDATES.option_updates (R356). -/
def FLX_option_updates : Field :=
  { name := "FLX_option_updates", block := 16, off := 0x440140, msb := 63, lsb := 0, acc := .rh, kept := 24, cls := .counter,
    item := some 24 }
/-- FLX_OPTION_LOADS.option_loads (R356). -/
def FLX_option_loads : Field :=
  { name := "FLX_option_loads", block := 16, off := 0x440148, msb := 63, lsb := 0, acc := .rh, kept := 24, cls := .counter,
    item := some 25 }
/-- FTL_STAT.health_valid (R380). -/
def FTL_STAT_health_valid : Field :=
  { name := "FTL_STAT_health_valid", block := 17, off := 0x500000, msb := 0, lsb := 0, acc := .rh, kept := 24,
    cls := .status }
/-- FTL_STAT.any_read_only (R380). -/
def FTL_STAT_any_read_only : Field :=
  { name := "FTL_STAT_any_read_only", block := 17, off := 0x500000, msb := 1, lsb := 1, acc := .rh, kept := 24,
    cls := .status, view := true }
/-- FTL_STAT.any_eol (R380). -/
def FTL_STAT_any_eol : Field :=
  { name := "FTL_STAT_any_eol", block := 17, off := 0x500000, msb := 2, lsb := 2, acc := .rh, kept := 24, cls := .status,
    view := true }
/-- FTL_STAT.reclaiming (R380). -/
def FTL_STAT_reclaiming : Field :=
  { name := "FTL_STAT_reclaiming", block := 17, off := 0x500000, msb := 3, lsb := 3, acc := .rh, kept := 24, cls := .status,
    view := true }
/-- FTL_STAT.relocating (R380). -/
def FTL_STAT_relocating : Field :=
  { name := "FTL_STAT_relocating", block := 17, off := 0x500000, msb := 4, lsb := 4, acc := .rh, kept := 24, cls := .status,
    view := true }
/-- FTL_STAT.wl_active (R380). -/
def FTL_STAT_wl_active : Field :=
  { name := "FTL_STAT_wl_active", block := 17, off := 0x500000, msb := 5, lsb := 5, acc := .rh, kept := 24, cls := .status,
    view := true }
/-- FTL_CTL.recl_start_pm (R380). -/
def FTL_CTL_recl_start_pm : Field :=
  { name := "FTL_CTL_recl_start_pm", block := 17, off := 0x500004, msb := 7, lsb := 0, acc := .rw, reset := 0x32, kept := 24,
    cls := .config, lo := 20, hi := some 200 }
/-- FTL_CTL.reloc_bits (R380). -/
def FTL_CTL_reloc_bits : Field :=
  { name := "FTL_CTL_reloc_bits", block := 17, off := 0x500004, msb := 15, lsb := 8, acc := .rw, reset := 0x60, kept := 24,
    cls := .config, lo := 1, hi := some 255 }
/-- FTL_CTL.reloc_depth (R380). -/
def FTL_CTL_reloc_depth : Field :=
  { name := "FTL_CTL_reloc_depth", block := 17, off := 0x500004, msb := 20, lsb := 16, acc := .rw, reset := 4, kept := 24,
    cls := .config, lo := 1, hi := some 17 }
/-- FTL_CTL.wl_budget_pct (R380). -/
def FTL_CTL_wl_budget_pct : Field :=
  { name := "FTL_CTL_wl_budget_pct", block := 17, off := 0x500004, msb := 31, lsb := 24, acc := .rw, reset := 2, kept := 24,
    cls := .config, lo := 0, hi := some 20 }
/-- FTL_CFG.wl_spread (R380). -/
def FTL_CFG_wl_spread : Field :=
  { name := "FTL_CFG_wl_spread", block := 17, off := 0x500008, msb := 10, lsb := 0, acc := .ro, reset := 0xc8, kept := 56,
    cls := .config }
/-- FTL_CFG.spare_ro_pm (R380). -/
def FTL_CFG_spare_ro_pm : Field :=
  { name := "FTL_CFG_spare_ro_pm", block := 17, off := 0x500008, msb := 23, lsb := 16, acc := .ro, reset := 0x14, kept := 56,
    cls := .config }
/-- FTL_LIFE.life_used_pct (R380). -/
def FTL_LIFE_life_used_pct : Field :=
  { name := "FTL_LIFE_life_used_pct", block := 17, off := 0x50000c, msb := 7, lsb := 0, acc := .rh, kept := 24,
    cls := .status }
/-- FTL_LIFE.eol (R380). -/
def FTL_LIFE_eol : Field :=
  { name := "FTL_LIFE_eol", block := 17, off := 0x50000c, msb := 8, lsb := 8, acc := .rh, kept := 24, cls := .status }
/-- FTL_POOL_SEL.pool (R380). -/
def FTL_POOL_SEL_pool : Field :=
  { name := "FTL_POOL_SEL_pool", block := 17, off := 0x500010, msb := 3, lsb := 0, acc := .rw, kept := 24, cls := .pointer }
/-- FTL_P_STAT.read_only (R380). -/
def FTL_P_STAT_read_only : Field :=
  { name := "FTL_P_STAT_read_only", block := 17, off := 0x500014, msb := 0, lsb := 0, acc := .rh, kept := 24, cls := .status,
    view := true }
/-- FTL_P_STAT.eol_warning (R380). -/
def FTL_P_STAT_eol_warning : Field :=
  { name := "FTL_P_STAT_eol_warning", block := 17, off := 0x500014, msb := 1, lsb := 1, acc := .rh, kept := 24,
    cls := .status, view := true }
/-- FTL_P_STAT.reclaiming (R380). -/
def FTL_P_STAT_reclaiming : Field :=
  { name := "FTL_P_STAT_reclaiming", block := 17, off := 0x500014, msb := 2, lsb := 2, acc := .rh, kept := 24,
    cls := .status, view := true }
/-- FTL_P_STAT.writes_held (R380). -/
def FTL_P_STAT_writes_held : Field :=
  { name := "FTL_P_STAT_writes_held", block := 17, off := 0x500014, msb := 3, lsb := 3, acc := .rh, kept := 24,
    cls := .status, view := true }
/-- FTL_P_STAT.free_pm (R380). -/
def FTL_P_STAT_free_pm : Field :=
  { name := "FTL_P_STAT_free_pm", block := 17, off := 0x500014, msb := 13, lsb := 4, acc := .rh, kept := 24, cls := .status,
    view := true }
/-- FTL_P_STAT.spare_pm (R380). -/
def FTL_P_STAT_spare_pm : Field :=
  { name := "FTL_P_STAT_spare_pm", block := 17, off := 0x500014, msb := 23, lsb := 14, acc := .rh, kept := 24,
    cls := .status, view := true }
/-- FTL_P_STAT.wear_used_pct (R380). -/
def FTL_P_STAT_wear_used_pct : Field :=
  { name := "FTL_P_STAT_wear_used_pct", block := 17, off := 0x500014, msb := 31, lsb := 24, acc := .rh, kept := 24,
    cls := .status, view := true }
/-- FTL_P_PE.pe_min (R380). -/
def FTL_P_PE_pe_min : Field :=
  { name := "FTL_P_PE_pe_min", block := 17, off := 0x500018, msb := 23, lsb := 0, acc := .rh, kept := 24, cls := .status,
    view := true }
/-- FTL_P_PE.pe_max (R380). -/
def FTL_P_PE_pe_max : Field :=
  { name := "FTL_P_PE_pe_max", block := 17, off := 0x500018, msb := 47, lsb := 24, acc := .rh, kept := 24, cls := .status,
    view := true }
/-- FTL_P_PE_MEAN.pe_mean (R380). -/
def FTL_P_PE_MEAN_pe_mean : Field :=
  { name := "FTL_P_PE_MEAN_pe_mean", block := 17, off := 0x500020, msb := 23, lsb := 0, acc := .rh, kept := 24,
    cls := .status, view := true }
/-- FTL_P_GROWN.grown_bad (R380). -/
def FTL_P_GROWN_grown_bad : Field :=
  { name := "FTL_P_GROWN_grown_bad", block := 17, off := 0x500024, msb := 31, lsb := 0, acc := .rh, kept := 24,
    cls := .status, view := true }
/-- FTL_P_FREE.free_blocks (R380). -/
def FTL_P_FREE_free_blocks : Field :=
  { name := "FTL_P_FREE_free_blocks", block := 17, off := 0x500028, msb := 31, lsb := 0, acc := .rh, kept := 24,
    cls := .status, view := true }
/-- FTL_P_TEMP.hours (R380). -/
def FTL_P_TEMP_hours : Field :=
  { name := "FTL_P_TEMP_hours", block := 17, off := 0x500030, msb := 31, lsb := 0, acc := .rh, kept := 24, cls := .status,
    count := 5, stride := 0x4, view := true }
/-- FTL_P_TMAX.tmax (R380). -/
def FTL_P_TMAX_tmax : Field :=
  { name := "FTL_P_TMAX_tmax", block := 17, off := 0x500044, msb := 7, lsb := 0, acc := .rh, kept := 24, cls := .status,
    view := true }
/-- FTL_P_TMAX.hot_entries (R380). -/
def FTL_P_TMAX_hot_entries : Field :=
  { name := "FTL_P_TMAX_hot_entries", block := 17, off := 0x500044, msb := 31, lsb := 16, acc := .rh, kept := 24,
    cls := .status, view := true }
/-- FTL_P_UNREC.blocks (R380). -/
def FTL_P_UNREC_blocks : Field :=
  { name := "FTL_P_UNREC_blocks", block := 17, off := 0x500048, msb := 63, lsb := 0, acc := .rh, kept := 24, cls := .status,
    view := true }
/-- FTL_P_LIVE.bytes (R380). -/
def FTL_P_LIVE_bytes : Field :=
  { name := "FTL_P_LIVE_bytes", block := 17, off := 0x500050, msb := 63, lsb := 0, acc := .rh, kept := 24, cls := .status,
    view := true }
/-- FTL_MAP_HIT_SRAM.map_hit_sram (R380). -/
def FTL_map_hit_sram : Field :=
  { name := "FTL_map_hit_sram", block := 17, off := 0x500100, msb := 63, lsb := 0, acc := .rh, kept := 24, cls := .counter,
    item := some 0 }
/-- FTL_MAP_HIT_HBM.map_hit_hbm (R380). -/
def FTL_map_hit_hbm : Field :=
  { name := "FTL_map_hit_hbm", block := 17, off := 0x500108, msb := 63, lsb := 0, acc := .rh, kept := 24, cls := .counter,
    item := some 1 }
/-- FTL_MAP_MISS_FLASH.map_miss_flash (R380). -/
def FTL_map_miss_flash : Field :=
  { name := "FTL_map_miss_flash", block := 17, off := 0x500110, msb := 63, lsb := 0, acc := .rh, kept := 24, cls := .counter,
    item := some 2 }
/-- FTL_MAP_WRITEBACKS.map_writebacks (R380). -/
def FTL_map_writebacks : Field :=
  { name := "FTL_map_writebacks", block := 17, off := 0x500118, msb := 63, lsb := 0, acc := .rh, kept := 24, cls := .counter,
    item := some 3 }
/-- FTL_PAGES_EXTENT_FORM.pages_extent_form (R380). -/
def FTL_pages_extent_form : Field :=
  { name := "FTL_pages_extent_form", block := 17, off := 0x500120, msb := 63, lsb := 0, acc := .rh, kept := 24,
    cls := .counter, item := some 4 }
/-- FTL_PAGES_BLOCK_FORM.pages_block_form (R380). -/
def FTL_pages_block_form : Field :=
  { name := "FTL_pages_block_form", block := 17, off := 0x500128, msb := 63, lsb := 0, acc := .rh, kept := 24,
    cls := .counter, item := some 5 }
/-- FTL_RECL_VICTIMS.recl_victims (R380). -/
def FTL_recl_victims : Field :=
  { name := "FTL_recl_victims", block := 17, off := 0x500130, msb := 63, lsb := 0, acc := .rh, kept := 24, cls := .counter,
    item := some 6 }
/-- FTL_RECL_SLOTS_COPIED.recl_slots_copied (R380). -/
def FTL_recl_slots_copied : Field :=
  { name := "FTL_recl_slots_copied", block := 17, off := 0x500138, msb := 63, lsb := 0, acc := .rh, kept := 24,
    cls := .counter, item := some 7 }
/-- FTL_RECL_BYTES_COPIED.recl_bytes_copied (R380). -/
def FTL_recl_bytes_copied : Field :=
  { name := "FTL_recl_bytes_copied", block := 17, off := 0x500140, msb := 63, lsb := 0, acc := .rh, kept := 24,
    cls := .counter, item := some 8 }
/-- FTL_RECL_STALE_AT_SEAL.recl_stale_at_seal (R380). -/
def FTL_recl_stale_at_seal : Field :=
  { name := "FTL_recl_stale_at_seal", block := 17, off := 0x500148, msb := 63, lsb := 0, acc := .rh, kept := 24,
    cls := .counter, item := some 9 }
/-- FTL_COPY_TARGET_FAILS.copy_target_fails (R380). -/
def FTL_copy_target_fails : Field :=
  { name := "FTL_copy_target_fails", block := 17, off := 0x500150, msb := 63, lsb := 0, acc := .rh, kept := 24,
    cls := .counter, item := some 10 }
/-- FTL_STATIC_WL_VICTIMS.static_wl_victims (R380). -/
def FTL_static_wl_victims : Field :=
  { name := "FTL_static_wl_victims", block := 17, off := 0x500158, msb := 63, lsb := 0, acc := .rh, kept := 24,
    cls := .counter, item := some 11 }
/-- FTL_RELOCATIONS.relocations (R380). -/
def FTL_relocations : Field :=
  { name := "FTL_relocations", block := 17, off := 0x500160, msb := 63, lsb := 0, acc := .rh, kept := 24, cls := .counter,
    item := some 12 }
/-- FTL_RELOC_UNREADABLE.reloc_unreadable (R380). -/
def FTL_reloc_unreadable : Field :=
  { name := "FTL_reloc_unreadable", block := 17, off := 0x500168, msb := 63, lsb := 0, acc := .rh, kept := 24,
    cls := .counter, item := some 13 }
/-- FTL_RESERVE_GRANTS.reserve_grants (R380). -/
def FTL_reserve_grants : Field :=
  { name := "FTL_reserve_grants", block := 17, off := 0x500170, msb := 63, lsb := 0, acc := .rh, kept := 24, cls := .counter,
    item := some 14 }
/-- FTL_DISCARD_BLOCKS.discard_blocks (R380). -/
def FTL_discard_blocks : Field :=
  { name := "FTL_discard_blocks", block := 17, off := 0x500178, msb := 63, lsb := 0, acc := .rh, kept := 24, cls := .counter,
    item := some 15 }
/-- FTL_ZERO_READS.zero_reads (R380). -/
def FTL_zero_reads : Field :=
  { name := "FTL_zero_reads", block := 17, off := 0x500180, msb := 63, lsb := 0, acc := .rh, kept := 24, cls := .counter,
    item := some 16 }
/-- FTL_UNRECOVERED_READS.unrecovered_reads (R380). -/
def FTL_unrecovered_reads : Field :=
  { name := "FTL_unrecovered_reads", block := 17, off := 0x500188, msb := 63, lsb := 0, acc := .rh, kept := 24,
    cls := .counter, item := some 17 }
/-- EVR_STAT.buffered (R457). -/
def EVR_STAT_buffered : Field :=
  { name := "EVR_STAT_buffered", block := 18, off := 0x580000, msb := 12, lsb := 0, acc := .rh, kept := 63, cls := .status,
    view := true }
/-- EVR_STAT.flushing (R457). -/
def EVR_STAT_flushing : Field :=
  { name := "EVR_STAT_flushing", block := 18, off := 0x580000, msb := 13, lsb := 13, acc := .rh, kept := 24, cls := .status,
    view := true }
/-- EVR_STAT.clearing (R457). -/
def EVR_STAT_clearing : Field :=
  { name := "EVR_STAT_clearing", block := 18, off := 0x580000, msb := 14, lsb := 14, acc := .rh, kept := 24, cls := .status,
    view := true }
/-- EVR_STAT.area_full (R457). -/
def EVR_STAT_area_full : Field :=
  { name := "EVR_STAT_area_full", block := 18, off := 0x580000, msb := 15, lsb := 15, acc := .rh, kept := 63, cls := .status,
    view := true }
/-- EVR_CTL.flush (R457). -/
def EVR_CTL_flush : Field :=
  { name := "EVR_CTL_flush", block := 18, off := 0x580004, msb := 0, lsb := 0, acc := .w1p, kept := 0, cls := .action }
/-- EVR_CTL.clear (R457). -/
def EVR_CTL_clear : Field :=
  { name := "EVR_CTL_clear", block := 18, off := 0x580004, msb := 1, lsb := 1, acc := .w1p, kept := 0, cls := .action }
/-- EVR_CTL.key (R457). -/
def EVR_CTL_key : Field :=
  { name := "EVR_CTL_key", block := 18, off := 0x580004, msb := 31, lsb := 16, acc := .rw, kept := 0, cls := .pointer,
    view := true }
/-- EVR_AREA.records (R457). -/
def EVR_AREA_records : Field :=
  { name := "EVR_AREA_records", block := 18, off := 0x580008, msb := 63, lsb := 0, acc := .rh, kept := 63, cls := .status,
    view := true }
/-- EVR_DROPPED.dropped (R457). -/
def EVR_DROPPED_dropped : Field :=
  { name := "EVR_DROPPED_dropped", block := 18, off := 0x580010, msb := 63, lsb := 0, acc := .rh, kept := 63, cls := .status,
    view := true }
/-- EVR_RD_IDX.index (R457). -/
def EVR_RD_IDX_index : Field :=
  { name := "EVR_RD_IDX_index", block := 18, off := 0x580018, msb := 63, lsb := 0, acc := .rw, kept := 24, cls := .pointer }
/-- EVR_RD_STAT.ready (R457). -/
def EVR_RD_STAT_ready : Field :=
  { name := "EVR_RD_STAT_ready", block := 18, off := 0x580020, msb := 0, lsb := 0, acc := .rh, kept := 24, cls := .status,
    view := true }
/-- EVR_RD_STAT.valid (R457). -/
def EVR_RD_STAT_valid : Field :=
  { name := "EVR_RD_STAT_valid", block := 18, off := 0x580020, msb := 1, lsb := 1, acc := .rh, kept := 24, cls := .status,
    view := true }
/-- EVR_RD_DATA.data (R457). -/
def EVR_RD_DATA_data : Field :=
  { name := "EVR_RD_DATA_data", block := 18, off := 0x580040, msb := 31, lsb := 0, acc := .rh, kept := 24, cls := .status,
    count := 16, stride := 0x4, view := true }
/-- EVR_CAT_SEL.code (R457). -/
def EVR_CAT_SEL_code : Field :=
  { name := "EVR_CAT_SEL_code", block := 18, off := 0x580080, msb := 15, lsb := 0, acc := .rw, kept := 24, cls := .pointer }
/-- EVR_CAT.severity (R457). -/
def EVR_CAT_severity : Field :=
  { name := "EVR_CAT_severity", block := 18, off := 0x580084, msb := 2, lsb := 0, acc := .ro, kept := 63, cls := .fixed,
    view := true }
/-- EVR_CAT.defined (R457). -/
def EVR_CAT_defined : Field :=
  { name := "EVR_CAT_defined", block := 18, off := 0x580084, msb := 3, lsb := 3, acc := .ro, kept := 63, cls := .fixed,
    view := true }
/-- EVR_CAT_NAME.name (R457). -/
def EVR_CAT_NAME_name : Field :=
  { name := "EVR_CAT_NAME_name", block := 18, off := 0x5800c0, msb := 31, lsb := 0, acc := .ro, kept := 63, cls := .fixed,
    count := 12, stride := 0x4, view := true }
/-- EVR_RECORDS_TAKEN.records_taken (R457). -/
def EVR_records_taken : Field :=
  { name := "EVR_records_taken", block := 18, off := 0x580100, msb := 63, lsb := 0, acc := .rh, kept := 24, cls := .counter,
    item := some 0 }
/-- EVR_FLUSHES.flushes (R457). -/
def EVR_flushes : Field :=
  { name := "EVR_flushes", block := 18, off := 0x580108, msb := 63, lsb := 0, acc := .rh, kept := 24, cls := .counter,
    item := some 1 }
/-- EVR_BUFFER_DROPS.buffer_drops (R457). -/
def EVR_buffer_drops : Field :=
  { name := "EVR_buffer_drops", block := 18, off := 0x580110, msb := 63, lsb := 0, acc := .rh, kept := 24, cls := .counter,
    item := some 2 }
/-- CNT_SEL.source (R458). -/
def CNT_SEL_source : Field :=
  { name := "CNT_SEL_source", block := 19, off := 0x590000, msb := 10, lsb := 0, acc := .rw, kept := 63, cls := .config,
    count := 256, stride := 0x4, view := true }
/-- CNT_SEL.instance (R458). -/
def CNT_SEL_instance : Field :=
  { name := "CNT_SEL_instance", block := 19, off := 0x590000, msb := 23, lsb := 16, acc := .rw, reset := 0xff, kept := 63,
    cls := .config, count := 256, stride := 0x4, view := true }
/-- CNT_FRZ.freeze (R458). -/
def CNT_FRZ_freeze : Field :=
  { name := "CNT_FRZ_freeze", block := 19, off := 0x590800, msb := 31, lsb := 0, acc := .rw, kept := 24, cls := .pointer,
    count := 8, stride := 0x4 }
/-- CNT_CLR.clear_all (R458). -/
def CNT_CLR_clear_all : Field :=
  { name := "CNT_CLR_clear_all", block := 19, off := 0x590820, msb := 0, lsb := 0, acc := .w1p, kept := 0, cls := .action }
/-- CNT_VAL.value (R458). -/
def CNT_VAL_value : Field :=
  { name := "CNT_VAL_value", block := 19, off := 0x591000, msb := 63, lsb := 0, acc := .rh, kept := 24, cls := .counter,
    count := 256, stride := 0x8, view := true }
/-- TRC_CTL.enable (R459). -/
def TRC_CTL_enable : Field :=
  { name := "TRC_CTL_enable", block := 20, off := 0x5a0000, msb := 0, lsb := 0, acc := .rw, kept := 16, cls := .pointer }
/-- TRC_CTL.port_on (R459). -/
def TRC_CTL_port_on : Field :=
  { name := "TRC_CTL_port_on", block := 20, off := 0x5a0000, msb := 1, lsb := 1, acc := .rw, kept := 16, cls := .pointer }
/-- TRC_CTL.stop_on_full (R459). -/
def TRC_CTL_stop_on_full : Field :=
  { name := "TRC_CTL_stop_on_full", block := 20, off := 0x5a0000, msb := 2, lsb := 2, acc := .rw, kept := 16,
    cls := .pointer }
/-- TRC_CTL.clear (R459). -/
def TRC_CTL_clear : Field :=
  { name := "TRC_CTL_clear", block := 20, off := 0x5a0000, msb := 3, lsb := 3, acc := .w1p, kept := 0, cls := .action }
/-- TRC_KINDS.kinds (R459). -/
def TRC_KINDS_kinds : Field :=
  { name := "TRC_KINDS_kinds", block := 20, off := 0x5a0004, msb := 15, lsb := 0, acc := .rw, kept := 16, cls := .pointer }
/-- TRC_BLOCKS.blocks (R459). -/
def TRC_BLOCKS_blocks : Field :=
  { name := "TRC_BLOCKS_blocks", block := 20, off := 0x5a0008, msb := 22, lsb := 0, acc := .rw, kept := 16, cls := .pointer }
/-- TRC_STAT.running (R459). -/
def TRC_STAT_running : Field :=
  { name := "TRC_STAT_running", block := 20, off := 0x5a0010, msb := 0, lsb := 0, acc := .rh, kept := 16, cls := .status,
    view := true }
/-- TRC_STAT.stopped_full (R459). -/
def TRC_STAT_stopped_full : Field :=
  { name := "TRC_STAT_stopped_full", block := 20, off := 0x5a0010, msb := 1, lsb := 1, acc := .rh, kept := 16,
    cls := .status, view := true }
/-- TRC_STAT.fill (R459). -/
def TRC_STAT_fill : Field :=
  { name := "TRC_STAT_fill", block := 20, off := 0x5a0010, msb := 31, lsb := 14, acc := .rh, kept := 16, cls := .status,
    view := true }
/-- TRC_LOST.lost (R459). -/
def TRC_LOST_lost : Field :=
  { name := "TRC_LOST_lost", block := 20, off := 0x5a0018, msb := 63, lsb := 0, acc := .rh, kept := 16, cls := .status,
    view := true }
/-- TRC_RD_IDX.index (R459). -/
def TRC_RD_IDX_index : Field :=
  { name := "TRC_RD_IDX_index", block := 20, off := 0x5a0020, msb := 16, lsb := 0, acc := .rw, kept := 16, cls := .pointer }
/-- TRC_RD_DATA.data (R459). -/
def TRC_RD_DATA_data : Field :=
  { name := "TRC_RD_DATA_data", block := 20, off := 0x5a0030, msb := 31, lsb := 0, acc := .rh, kept := 16, cls := .status,
    count := 4, stride := 0x4, view := true }
/-- FWU_CTL.chunk (R456). -/
def FWU_CTL_chunk : Field :=
  { name := "FWU_CTL_chunk", block := 21, off := 0x5c0000, msb := 0, lsb := 0, acc := .w1p, kept := 0, cls := .action }
/-- FWU_CTL.commit (R456). -/
def FWU_CTL_commit : Field :=
  { name := "FWU_CTL_commit", block := 21, off := 0x5c0000, msb := 1, lsb := 1, acc := .w1p, kept := 0, cls := .action }
/-- FWU_CTL.abort (R456). -/
def FWU_CTL_abort : Field :=
  { name := "FWU_CTL_abort", block := 21, off := 0x5c0000, msb := 2, lsb := 2, acc := .w1p, kept := 0, cls := .action }
/-- FWU_CTL.owner_lock (R456). -/
def FWU_CTL_owner_lock : Field :=
  { name := "FWU_CTL_owner_lock", block := 21, off := 0x5c0000, msb := 3, lsb := 3, acc := .rwlk, kept := 63,
    cls := .pointer }
/-- FWU_SRC.source (R456). -/
def FWU_SRC_source : Field :=
  { name := "FWU_SRC_source", block := 21, off := 0x5c0004, msb := 0, lsb := 0, acc := .rw, kept := 24, cls := .pointer }
/-- FWU_SRC.target (R456). -/
def FWU_SRC_target : Field :=
  { name := "FWU_SRC_target", block := 21, off := 0x5c0004, msb := 1, lsb := 1, acc := .rw, kept := 24, cls := .pointer }
/-- FWU_CHUNK_OFF.off_4k (R456). -/
def FWU_CHUNK_OFF_off_4k : Field :=
  { name := "FWU_CHUNK_OFF_off_4k", block := 21, off := 0x5c0008, msb := 11, lsb := 0, acc := .rw, kept := 24,
    cls := .pointer }
/-- FWU_CHUNK_LEN.len (R456). -/
def FWU_CHUNK_LEN_len : Field :=
  { name := "FWU_CHUNK_LEN_len", block := 21, off := 0x5c000c, msb := 21, lsb := 0, acc := .rw, kept := 24, cls := .pointer,
    lo := 0, hi := some 2097152 }
/-- FWU_STAT.state (R456). -/
def FWU_STAT_state : Field :=
  { name := "FWU_STAT_state", block := 21, off := 0x5c0010, msb := 2, lsb := 0, acc := .rh, kept := 24, cls := .status }
/-- FWU_STAT.active_slot (R456). -/
def FWU_STAT_active_slot : Field :=
  { name := "FWU_STAT_active_slot", block := 21, off := 0x5c0010, msb := 3, lsb := 3, acc := .rh, kept := 63, cls := .status }
/-- FWU_STAT.result (R456). -/
def FWU_STAT_result : Field :=
  { name := "FWU_STAT_result", block := 21, off := 0x5c0010, msb := 15, lsb := 8, acc := .rh, kept := 63, cls := .status }
/-- FWU_STAT.img_err (R456). -/
def FWU_STAT_img_err : Field :=
  { name := "FWU_STAT_img_err", block := 21, off := 0x5c0010, msb := 31, lsb := 16, acc := .rh, kept := 63, cls := .status }
/-- FWU_SLOT_VER.version (R456). -/
def FWU_SLOT_VER_version : Field :=
  { name := "FWU_SLOT_VER_version", block := 21, off := 0x5c0020, msb := 31, lsb := 0, acc := .rh, kept := 56,
    cls := .status, count := 2, stride := 0x8, view := true }
/-- FWU_SLOT_STAT.state (R456). -/
def FWU_SLOT_STAT_state : Field :=
  { name := "FWU_SLOT_STAT_state", block := 21, off := 0x5c0024, msb := 2, lsb := 0, acc := .rh, kept := 56, cls := .status,
    count := 2, stride := 0x8, view := true }
/-- FWU_SLOT_STAT.security (R456). -/
def FWU_SLOT_STAT_security : Field :=
  { name := "FWU_SLOT_STAT_security", block := 21, off := 0x5c0024, msb := 23, lsb := 8, acc := .rh, kept := 56,
    cls := .status, count := 2, stride := 0x8, view := true }
/-- FWU_FUSE.program_owner (R456). -/
def FWU_FUSE_program_owner : Field :=
  { name := "FWU_FUSE_program_owner", block := 21, off := 0x5c0040, msb := 0, lsb := 0, acc := .w1p, kept := 0,
    cls := .action }
/-- FWU_FUSE.program_kfuse (R456). -/
def FWU_FUSE_program_kfuse : Field :=
  { name := "FWU_FUSE_program_kfuse", block := 21, off := 0x5c0040, msb := 1, lsb := 1, acc := .w1p, kept := 0,
    cls := .action }
/-- FWU_FUSE.owner_blank (R456). -/
def FWU_FUSE_owner_blank : Field :=
  { name := "FWU_FUSE_owner_blank", block := 21, off := 0x5c0040, msb := 2, lsb := 2, acc := .rh, kept := 63, cls := .status,
    view := true }
/-- FWU_FUSE.kfuse_blank (R456). -/
def FWU_FUSE_kfuse_blank : Field :=
  { name := "FWU_FUSE_kfuse_blank", block := 21, off := 0x5c0040, msb := 3, lsb := 3, acc := .rh, kept := 63, cls := .status,
    view := true }
/-- FWU_CHUNKS.chunks (R456). -/
def FWU_chunks : Field :=
  { name := "FWU_chunks", block := 21, off := 0x5c0100, msb := 63, lsb := 0, acc := .rh, kept := 24, cls := .counter,
    item := some 0 }
/-- FWU_COMMITS.commits (R456). -/
def FWU_commits : Field :=
  { name := "FWU_commits", block := 21, off := 0x5c0108, msb := 63, lsb := 0, acc := .rh, kept := 24, cls := .counter,
    item := some 1 }
/-- FWU_REFUSALS.refusals (R456). -/
def FWU_refusals : Field :=
  { name := "FWU_refusals", block := 21, off := 0x5c0110, msb := 63, lsb := 0, acc := .rh, kept := 24, cls := .counter,
    item := some 2 }
/-- FWU_BOOT_FALLBACKS.boot_fallbacks (R456). -/
def FWU_boot_fallbacks : Field :=
  { name := "FWU_boot_fallbacks", block := 21, off := 0x5c0118, msb := 63, lsb := 0, acc := .rh, kept := 24, cls := .counter,
    item := some 3 }
/-- SIM_CTL.submit (R78). -/
def SIM_CTL_submit : Field :=
  { name := "SIM_CTL_submit", block := 22, off := 0x600000, msb := 0, lsb := 0, acc := .w1p, kept := 0, cls := .action }
/-- SIM_CTL.activate (R78). -/
def SIM_CTL_activate : Field :=
  { name := "SIM_CTL_activate", block := 22, off := 0x600000, msb := 1, lsb := 1, acc := .w1p, kept := 0, cls := .action }
/-- SIM_CTL.discard (R78). -/
def SIM_CTL_discard : Field :=
  { name := "SIM_CTL_discard", block := 22, off := 0x600000, msb := 2, lsb := 2, acc := .w1p, kept := 0, cls := .action }
/-- SIM_SRC.source (R78). -/
def SIM_SRC_source : Field :=
  { name := "SIM_SRC_source", block := 22, off := 0x600004, msb := 0, lsb := 0, acc := .rw, kept := 56, cls := .pointer }
/-- SIM_ACT_NS.anchor_nsid (R78). -/
def SIM_ACT_NS_anchor_nsid : Field :=
  { name := "SIM_ACT_NS_anchor_nsid", block := 22, off := 0x600008, msb := 12, lsb := 0, acc := .rw, kept := 56,
    cls := .pointer, lo := 0, hi := some 4096 }
/-- SIM_STATUS.state (R78). -/
def SIM_STATUS_state : Field :=
  { name := "SIM_STATUS_state", block := 22, off := 0x60000c, msb := 2, lsb := 0, acc := .rh, kept := 24, cls := .status }
/-- SIM_STATUS.lock_active (R78). -/
def SIM_STATUS_lock_active : Field :=
  { name := "SIM_STATUS_lock_active", block := 22, off := 0x60000c, msb := 3, lsb := 3, acc := .rh, kept := 56,
    cls := .status }
/-- SIM_STATUS.boot_only (R78). -/
def SIM_STATUS_boot_only : Field :=
  { name := "SIM_STATUS_boot_only", block := 22, off := 0x60000c, msb := 4, lsb := 4, acc := .rh, kept := 56, cls := .status }
/-- SIM_STATUS.roll (R78). -/
def SIM_STATUS_roll : Field :=
  { name := "SIM_STATUS_roll", block := 22, off := 0x60000c, msb := 5, lsb := 5, acc := .rh, kept := 56, cls := .status }
/-- SIM_STATUS.timer_cairns (R78). -/
def SIM_STATUS_timer_cairns : Field :=
  { name := "SIM_STATUS_timer_cairns", block := 22, off := 0x60000c, msb := 6, lsb := 6, acc := .rh, kept := 56,
    cls := .status }
/-- SIM_STATUS.no_peer (R78). -/
def SIM_STATUS_no_peer : Field :=
  { name := "SIM_STATUS_no_peer", block := 22, off := 0x60000c, msb := 7, lsb := 7, acc := .rh, kept := 24, cls := .status }
/-- SIM_ERR.code (R78). -/
def SIM_ERR_code : Field :=
  { name := "SIM_ERR_code", block := 22, off := 0x600010, msb := 15, lsb := 0, acc := .rh, kept := 24, cls := .status }
/-- SIM_ERR.record (R78). -/
def SIM_ERR_record : Field :=
  { name := "SIM_ERR_record", block := 22, off := 0x600010, msb := 31, lsb := 16, acc := .rh, kept := 24, cls := .status }
/-- SIM_ERR_OFF.offset (R78). -/
def SIM_ERR_OFF_offset : Field :=
  { name := "SIM_ERR_OFF_offset", block := 22, off := 0x600014, msb := 22, lsb := 0, acc := .rh, kept := 24, cls := .status }
/-- SIM_GEN_ACT.generation (R78). -/
def SIM_GEN_ACT_generation : Field :=
  { name := "SIM_GEN_ACT_generation", block := 22, off := 0x600018, msb := 63, lsb := 0, acc := .rh, kept := 56,
    cls := .status }
/-- SIM_GEN_STG.generation (R78). -/
def SIM_GEN_STG_generation : Field :=
  { name := "SIM_GEN_STG_generation", block := 22, off := 0x600020, msb := 63, lsb := 0, acc := .rh, kept := 24,
    cls := .status }
/-- SIM_GEN_PEER.generation (R78). -/
def SIM_GEN_PEER_generation : Field :=
  { name := "SIM_GEN_PEER_generation", block := 22, off := 0x600028, msb := 63, lsb := 0, acc := .rh, kept := 24,
    cls := .status }
/-- SIM_DIGEST.digest (R78). -/
def SIM_DIGEST_digest : Field :=
  { name := "SIM_DIGEST_digest", block := 22, off := 0x600040, msb := 31, lsb := 0, acc := .rh, kept := 56, cls := .status,
    count := 12, stride := 0x4, view := true }

end Sys2Proof.Machine.F

namespace Sys2Proof.Machine

/-- Fields of block SYS, part 0. -/
def mapSYS0 : List Field := [F.SYS_ID_part, F.SYS_ID_stepping, F.SYS_FW_minor, F.SYS_FW_major, F.SYS_STATUS_head,
  F.SYS_STATUS_regs_ready, F.SYS_STATUS_rom_mode, F.SYS_ARRAY_ID_array_id, F.SYS_SERIAL_serial, F.SYS_MODE_capture,
  F.SYS_MODE_mirror, F.SYS_MODE_reduce, F.SYS_MODE_seal, F.SYS_MODE_freeze, F.SYS_MODE_replicate, F.SYS_MODE_rebuild,
  F.SYS_MODE_reshape, F.SYS_MODE_trans, F.SYS_MODE_REQ_capture, F.SYS_MODE_REQ_mirror, F.SYS_MODE_REQ_reduce,
  F.SYS_MODE_REQ_seal, F.SYS_MODE_REQ_replicate, F.SYS_MODE_REQ_reshape, F.SYS_MODE_CTL_rbld_pause,
  F.SYS_MODE_CTL_reshape_cancel, F.SYS_MODE_CTL_rbld_floor, F.SYS_MODE_STAT_pending, F.SYS_MODE_STAT_cause,
  F.SYS_MODE_STAT_cause_mode, F.SYS_MODE_STAT_rbld_paused, F.SYS_MODE_STAT_reshape_phase, F.SYS_CFG_COMMIT_commit,
  F.SYS_CFG_COMMIT_accept_all, F.SYS_CFG_COMMIT_reapply, F.SYS_CFG_POLICY_policy, F.SYS_CFG_POLICY_commit_window_ms,
  F.SYS_CFG_STAT_pending, F.SYS_CFG_STAT_committing, F.SYS_CFG_STAT_drift]
/-- Fields of block SYS, part 1. -/
def mapSYS1 : List Field := [F.SYS_CFG_STAT_frozen, F.SYS_CFG_STAT_commit_failed, F.SYS_CFG_STAT_reapplying,
  F.SYS_CFG_TOUCHED_blocks, F.SYS_CFG_DRIFT_blocks, F.SYS_CFG_CRC_REF_crc, F.SYS_CFG_CRC_CUR_crc, F.SYS_CFG_sweeps,
  F.SYS_INT_STAT_cfg_drift, F.SYS_INT_STAT_mode_changed, F.SYS_INT_STAT_mode_held, F.SYS_INT_STAT_image_done,
  F.SYS_INT_STAT_peer, F.SYS_INT_STAT_ownership, F.SYS_INT_STAT_thermal, F.SYS_INT_STAT_power, F.SYS_INT_STAT_keys,
  F.SYS_INT_STAT_redundancy, F.SYS_INT_STAT_pool_limit, F.SYS_INT_STAT_watchdog, F.SYS_INT_STAT_clamp, F.SYS_INT_STAT_budget,
  F.SYS_INT_STAT_frames, F.SYS_INT_STAT_event, F.SYS_INT_STAT_seq, F.SYS_INT_EN_enable, F.SYS_INT_CFG_vector,
  F.SYS_INT_CFG_msg_on, F.SYS_SUMMARY_SEQ_snap_seq]
/-- Fields of block RST. -/
def mapRST : List Field := [F.RST_STAT_last_reset, F.RST_STAT_ps, F.RST_STAT_recovering, F.RST_STAT_pwr_fail_n,
  F.RST_STAT_holdup_ok, F.RST_STAT_drain_state, F.RST_STAT_drain_limited, F.RST_STAT_holdup_low_active, F.RST_CTL_warm_reset,
  F.RST_CTL_l3_req, F.RST_CTL_holdup_low_mib, F.RST_L3_RES_result, F.RST_DRAIN_CAP_budget_eff_mib, F.RST_DRAIN_CAP_drain_gbs,
  F.RST_CYCLES_cycles, F.RST_DRAIN_TIME_duration_ns, F.RST_DRAIN_BYTES_bytes, F.RST_DRAIN_LOST_slots, F.RST_pwr_fail_events,
  F.RST_pwr_fail_glitches, F.RST_drains, F.RST_drains_cut_short, F.RST_warm_resets, F.RST_watchdog_resets,
  F.RST_takeover_resets, F.RST_l3_entries, F.RST_holdup_low_ns]
/-- Fields of block THM. -/
def mapTHM : List Field := [F.THM_STAT_latch, F.THM_STAT_drain, F.THM_STAT_over_max, F.THM_STAT_tj_band,
  F.THM_STAT_remote_fault, F.THM_DIE0_temps, F.THM_DIE1_temps, F.THM_TJ_MAX_tj_max, F.THM_BANDS_bands, F.THM_T_temp,
  F.THM_T_valid, F.THM_T_fault, F.THM_T_high, F.THM_T_crit, F.THM_T_band, F.THM_T_CFG_high_c, F.THM_T_CFG_crit_c,
  F.THM_T_CFG_crit_drain, F.THM_thermal_drains, F.THM_thermal_drain_ns, F.THM_over_max_events, F.THM_remote_high_events,
  F.THM_remote_faults, F.THM_band_changes]
/-- Fields of block WDT. -/
def mapWDT : List Field := [F.WDT_CFG_timeout_ms, F.WDT_STAT_stage, F.WDT_STAT_last_reset, F.WDT_SE_OUT_se, F.WDT_CC_OUT_cc,
  F.WDT_UNITS_OUT_codec, F.WDT_UNITS_OUT_hash, F.WDT_UNITS_OUT_aes, F.WDT_UNITS_OUT_parity, F.WDT_UNITS_OUT_deep,
  F.WDT_LOOP_STAT_pinned, F.WDT_LOOP_STAT_clamped, F.WDT_LOOP_STAT_source, F.WDT_LOOP_VALUE_value, F.WDT_LOOP_LOWER_lower,
  F.WDT_LOOP_UPPER_upper, F.WDT_LOOP_PIN_pin, F.WDT_LOOP_CLAMPS_clamps, F.WDT_wdt_stage1, F.WDT_wdt_held,
  F.WDT_engine_resets, F.WDT_engines_retired, F.WDT_units_retired, F.WDT_unit_transient, F.WDT_cfg_crc_transient,
  F.WDT_drain_priority_waits]
/-- Fields of block IPT. -/
def mapIPT : List Field := [F.IPT_STAT_active, F.IPT_STAT_standby, F.IPT_STAT_ipclk_ok, F.IPT_IPCLK_MEAS_khz,
  F.IPT_CH_CTL_ready_level, F.IPT_CH_CTL_force_low, F.IPT_CH_STAT_role, F.IPT_CH_STAT_ready, F.IPT_CH_STAT_hold,
  F.IPT_CH_SLOTS_slots, F.IPT_CH_SLOT_ADJ_amount, F.IPT_CH_SLOT_ADJ_apply, F.IPT_CH_FNUM_BASE_base, F.IPT_CH_FNUM_NEXT_next,
  F.IPT_CH_strobes, F.IPT_CH_glitches, F.IPT_CH_too_close, F.IPT_CH_overrun, F.IPT_CH_arrived, F.IPT_CH_late,
  F.IPT_CH_missing, F.IPT_CH_unstrobed, F.IPT_CH_duplicate, F.IPT_CH_completion_first, F.IPT_CH_idx_lost,
  F.IPT_CH_ready_low_ns, F.IPT_CH_ready_low_events, F.IPT_CH_flash_discards, F.IPT_CH_HIST_CFG_strobe_shift,
  F.IPT_CH_HIST_CFG_arrival_shift, F.IPT_CH_HIST_CFG_clear, F.IPT_CH_LAST_TS_stamp, F.IPT_CH_HIST_S_bin, F.IPT_CH_HIST_A_bin]
/-- Fields of block TMB. -/
def mapTMB : List Field := [F.TMB_STAT_state, F.TMB_STAT_source, F.TMB_STAT_ever_locked, F.TMB_STAT_step_count,
  F.TMB_NOW_now, F.TMB_OFFSET_offset_ns, F.TMB_FREQ_freq_ppb, F.TMB_HOLD_LEFT_hold_left_s, F.TMB_SEC_SET_seconds,
  F.TMB_SEC_CTL_apply, F.TMB_SEC_CTL_pending, F.TMB_TRIG_STAT_enabled, F.TMB_TRIG_STAT_level, F.TMB_TRIG_ISSUED_issued,
  F.TMB_TRIG_SKIPPED_skipped, F.TMB_TRIG_NEXT_next_ns]
/-- Fields of block NET. -/
def mapNET : List Field := [F.NET_LINK_up, F.NET_P_CFG_split, F.NET_P_CFG_enabled, F.NET_P_CFG_pfc_mask, F.NET_P_STAT_up,
  F.NET_P_STAT_xoff_tx, F.NET_P_STAT_xoff_rx, F.NET_P_CTL_force_down, F.NET_P_CTL_miss_pfc_kib, F.NET_P_rx_packets,
  F.NET_P_rx_bytes, F.NET_P_tx_packets, F.NET_P_tx_bytes, F.NET_P_fcs_err, F.NET_P_icrc_err, F.NET_P_xoff_sent,
  F.NET_P_xoff_rcvd, F.NET_P_cnp_sent, F.NET_P_cnp_rcvd, F.NET_P_miss_drops, F.NET_P_paused_ns]
/-- Fields of block RDM, part 0. -/
def mapRDM0 : List Field := [F.RDM_STAT_qps_open, F.RDM_CACHE_cached, F.RDM_CACHE_pinned, F.RDM_MISS_occ_kib,
  F.RDM_MISS_trackers, F.RDM_CTL_credit_refresh_us, F.RDM_CTL_rnr_code, F.RDM_CTL_cnp_interval_us, F.RDM_CTL2_auto_reopen,
  F.RDM_QP_SEL_qpn, F.RDM_QP_STATE_state, F.RDM_QP_STATE_uc, F.RDM_QP_STATE_spray, F.RDM_QP_STATE_protected,
  F.RDM_QP_STATE_single_path, F.RDM_QP_STATE_cached, F.RDM_QP_STATE_windows, F.RDM_QP_STATE_err_cause, F.RDM_QP_EPSN_epsn,
  F.RDM_QP_CTL_to_error, F.RDM_WIN_SEL_window, F.RDM_WIN_STAT_state, F.RDM_WIN_STAT_adopted, F.RDM_WIN_STAT_hold,
  F.RDM_WIN_CTL_revoke, F.RDM_WIN_CTL_reopen, F.RDM_WIN_QP_qpn, F.RDM_WIN_HORIZON_offset, F.RDM_WIN_LIMIT_offset,
  F.RDM_WIN_SPAN_span_kib, F.RDM_ctx_hits, F.RDM_ctx_misses, F.RDM_evictions, F.RDM_miss_waits, F.RDM_psn_seq_naks,
  F.RDM_beyond_window, F.RDM_duplicates, F.RDM_out_of_order, F.RDM_invalid_req_naks, F.RDM_remote_access_naks]
/-- Fields of block RDM, part 1. -/
def mapRDM1 : List Field := [F.RDM_horizon_refusals, F.RDM_flush_completions, F.RDM_credit_msgs, F.RDM_sacks,
  F.RDM_uc_abandoned, F.RDM_no_tracker, F.RDM_unknown_qp]
/-- Fields of block NVQ. -/
def mapNVQ : List Field := [F.NVQ_STAT_fabric_ctrls, F.NVQ_STAT_local_ready, F.NVQ_STAT_fabric_qps, F.NVQ_PS_current,
  F.NVQ_PS_target, F.NVQ_PS_entering, F.NVQ_PS_held, F.NVQ_CTL_accept_off, F.NVQ_reads, F.NVQ_writes, F.NVQ_bytes_read,
  F.NVQ_bytes_written, F.NVQ_flushes, F.NVQ_aborts_caught, F.NVQ_aborts_missed, F.NVQ_ps_reversals, F.NVQ_data_xfer_errors,
  F.NVQ_ana_transitions, F.NVQ_kato_expiries, F.NVQ_keys_refusals]
/-- Fields of block RED, part 0. -/
def mapRED0 : List Field := [F.RED_STAT_ctx_busy, F.RED_STAT_rings_on, F.RED_STAT_reduce_active, F.RED_CTL_defer_us,
  F.RED_CTL_verify_all, F.RED_CTX_STAT_state, F.RED_CTX_STAT_bits_pending, F.RED_CTX_STAT_ring, F.RED_CTX_STAT_running,
  F.RED_CTX_TOTAL_stream_total, F.RED_fp_computed, F.RED_fp_hit_sram, F.RED_fp_hit_hbm, F.RED_fp_hit_flash,
  F.RED_fp_deferred, F.RED_refs_made, F.RED_verify_compares, F.RED_verify_collisions, F.RED_class0, F.RED_class1,
  F.RED_class2, F.RED_class3, F.RED_class4, F.RED_logical_bytes, F.RED_stored_bytes, F.RED_decode_errors,
  F.RED_codec_recodes, F.RED_close_wait_ns, F.RED_jobs_done, F.RED_jobs_output_full, F.RED_jobs_preempted, F.RED_ctx_saves,
  F.RED_ctx_restores, F.RED_RING_SQ_BASE_sq_base, F.RED_RING_CQ_BASE_cq_base, F.RED_RING_CFG_enable,
  F.RED_RING_CFG_size_log2, F.RED_RING_CFG_class, F.RED_RING_CFG_vector, F.RED_RING_SQ_TAIL_sq_tail]
/-- Fields of block RED, part 1. -/
def mapRED1 : List Field := [F.RED_RING_SQ_HEAD_sq_head, F.RED_RING_CQ_HEAD_cq_head, F.RED_RING_STAT_busy,
  F.RED_RING_STAT_cq_full, F.RED_RING_STAT_fetch_error]
/-- Fields of block CIP. -/
def mapCIP : List Field := [F.CIP_STAT_keys_loaded, F.CIP_STAT_zeroized, F.CIP_STAT_repl_loaded, F.CIP_STAT_last_alarm,
  F.CIP_STAT_tamper_active, F.CIP_STAT_ctx_busy, F.CIP_CTL_zeroize, F.CIP_CTL_share_load, F.CIP_SHARE_ADDR_addr,
  F.CIP_SHARE_RES_result, F.CIP_KCV_kcv, F.CIP_RKCV_kcv, F.CIP_TAMPER_CFG_enable, F.CIP_TAMPER_CFG_active_high,
  F.CIP_seal_blocks, F.CIP_unseal_blocks, F.CIP_tag_failures, F.CIP_derivations, F.CIP_zeroizations, F.CIP_share_loads,
  F.CIP_share_refusals, F.CIP_jobs_done, F.CIP_ctx_saves, F.CIP_ctx_restores, F.CIP_RING_SQ_BASE_sq_base,
  F.CIP_RING_CQ_BASE_cq_base, F.CIP_RING_CFG_enable, F.CIP_RING_CFG_size_log2, F.CIP_RING_CFG_class, F.CIP_RING_CFG_vector,
  F.CIP_RING_SQ_TAIL_sq_tail, F.CIP_RING_SQ_HEAD_sq_head, F.CIP_RING_CQ_HEAD_cq_head, F.CIP_RING_STAT_busy,
  F.CIP_RING_STAT_cq_full, F.CIP_RING_STAT_fetch_error]
/-- Fields of block STG. -/
def mapSTG : List Field := [F.STG_STAT_budget_reached, F.STG_STAT_over_budget, F.STG_STAT_mirror_live, F.STG_DIRTY_bytes,
  F.STG_MIRROR_bytes, F.STG_CFG_budget_mib, F.STG_CFG_own_mib, F.STG_INPROG_used_mib, F.STG_SC_CTL_enable,
  F.STG_SC_CTL_invalidate, F.STG_SC_CTL_writeback, F.STG_SC_CTL_seq_bypass_off, F.STG_SC_STAT_state, F.STG_SC_STAT_busy,
  F.STG_SC_STAT_dirty_lines, F.STG_SC_WAYS_ways_out, F.STG_SC_WAYS_degraded, F.STG_HBM_RET_retired,
  F.STG_HBM_RET_spares_left, F.STG_SCRUB_scrub_hours, F.STG_sc_hits, F.STG_sc_misses, F.STG_sc_writebacks, F.STG_sc_bypassed,
  F.STG_sc_check_transient, F.STG_sc_check_lasting, F.STG_sc_tag_parity, F.STG_repair_hbm, F.STG_repair_ingest,
  F.STG_repair_peer, F.STG_repair_recompute, F.STG_repair_flash, F.STG_slots_lost, F.STG_hbm_corrected,
  F.STG_hbm_ue_transient, F.STG_hbm_ue_lasting, F.STG_mirror_resends, F.STG_budget_ns, F.STG_nvme_budget_waits,
  F.STG_limit_cuts]
/-- Fields of block HHL. -/
def mapHHL : List Field := [F.HHL_STAT_link_up, F.HHL_STAT_lanes_up, F.HHL_STAT_peer_silent, F.HHL_STAT_resync,
  F.HHL_STAT_peer_in_service, F.HHL_LANES_up, F.HHL_CAP_mirror_gbs, F.HHL_RESYNC_bytes, F.HHL_ST_CFG_die_check_off,
  F.HHL_ST_STAT_last_fault_module, F.HHL_ST_STAT_fault_present, F.HHL_ST_STAT_faulty, F.HHL_ST_PERIOD_seconds,
  F.HHL_tx_packets, F.HHL_rx_packets, F.HHL_mirror_bytes, F.HHL_crc_transient, F.HHL_crc_lasting, F.HHL_lane_drops,
  F.HHL_link_resets, F.HHL_silences, F.HHL_resync_bytes, F.HHL_st_path_checks, F.HHL_st_die_checks, F.HHL_st_skipped,
  F.HHL_st_faults]
/-- Fields of block ARB. -/
def mapARB : List Field := [F.ARB_STAT_role, F.ARB_STAT_fence_pin, F.ARB_STAT_peer_lost, F.ARB_STAT_phase, F.ARB_STAT_owned,
  F.ARB_TERM_term, F.ARB_CTL_release, F.ARB_CTL_handback, F.ARB_CTL_auto_handback, F.ARB_CTL_link_loss_policy,
  F.ARB_CTL_verdict_wait_ms, F.ARB_LAST_duration_us, F.ARB_LAST_reason, F.ARB_verdict_reqs, F.ARB_verdicts_accepted,
  F.ARB_verdicts_ignored, F.ARB_takeovers, F.ARB_transfers_given, F.ARB_transfers_taken, F.ARB_fence_events, F.ARB_msgs_rx,
  F.ARB_msgs_bad]
/-- Fields of block STR, part 0. -/
def mapSTR0 : List Field := [F.STR_STAT_rebuild_active, F.STR_STAT_rebuild_paused, F.STR_STAT_reshape_phase,
  F.STR_STAT_lost_present, F.STR_STAT_unplaceable, F.STR_STAT_writes_held, F.STR_CTL_fill_us, F.STR_POOL_SEL_pool,
  F.STR_P_GEOM_data_members, F.STR_P_GEOM_parity_members, F.STR_P_GEOM_target_data, F.STR_P_GEOM_target_parity,
  F.STR_P_GEOM_page_kib, F.STR_P_STAT_dies_failed, F.STR_P_STAT_modules_out, F.STR_P_STAT_oasis_left_pct,
  F.STR_P_DEG_stripes, F.STR_P_REBUILD_LEFT_rebuild_left, F.STR_P_RESHAPE_POS_position, F.STR_P_RESHAPE_LEFT_reshape_left,
  F.STR_P_RESHAPE_NEED_need_bytes, F.STR_P_NEXT_SEQ_next_seq, F.STR_LOST_COUNT_entries, F.STR_LOST_IDX_index,
  F.STR_LOST_SEQ_stripe_seq, F.STR_LOST_MASK_lost_mask, F.STR_LOST_MASK_pool, F.STR_LOST_TIME_time_ns, F.STR_JOURNAL_open,
  F.STR_JOURNAL_single_copy, F.STR_stripes_sealed, F.STR_stripes_abandoned, F.STR_fill_timeouts, F.STR_member_failures,
  F.STR_readaround_reads, F.STR_readaround_waits, F.STR_pages_rebuilt, F.STR_unreadable_pages, F.STR_stripes_lost,
  F.STR_blocks_lost]
/-- Fields of block STR, part 1. -/
def mapSTR1 : List Field := [F.STR_lost_unlisted, F.STR_reshape_stripes_copied, F.STR_switchovers, F.STR_journal_pages,
  F.STR_journal_rewrites]
/-- Fields of block SNP. -/
def mapSNP : List Field := [F.SNP_STAT_retained, F.SNP_STAT_caravans, F.SNP_CTL_car_max_epochs, F.SNP_DEV_device_id,
  F.SNP_NS_SEL_nsid, F.SNP_NS_STAT_retained, F.SNP_NS_STAT_outside_guarantee, F.SNP_NS_STAT_replica, F.SNP_NS_STAT_bc_wait,
  F.SNP_NS_STAT_placed, F.SNP_NS_CLOSED_cairn, F.SNP_NS_PLACED_cairn, F.SNP_RET_CAIRN_cairn, F.SNP_RET_CTL_retain,
  F.SNP_RET_CTL_release, F.SNP_RET_CTL_result, F.SNP_CAR_SEL_target, F.SNP_CAR_STAT_state, F.SNP_CAR_STAT_full,
  F.SNP_CAR_STAT_err, F.SNP_CAR_CTL_skip_lost, F.SNP_CAR_CTL_restart, F.SNP_CAR_CTL_full, F.SNP_CAR_NUM_value,
  F.SNP_CAR_BASE_value, F.SNP_CAR_END_value, F.SNP_CAR_REC_value, F.SNP_cairns_placed, F.SNP_cairns_closed,
  F.SNP_bytecount_cairns, F.SNP_timer_cairns, F.SNP_caravans_shipped, F.SNP_caravans_landed, F.SNP_caravan_bytes,
  F.SNP_caravan_reconnects, F.SNP_digest_mismatches, F.SNP_lost_skipped]
/-- Fields of block FLX, part 0. -/
def mapFLX0 : List Field := [F.FLX_L_STAT_state, F.FLX_L_STAT_module, F.FLX_L_STAT_module_port, F.FLX_L_STAT_option_ok,
  F.FLX_L_STAT_option_full, F.FLX_L_STAT_die_count, F.FLX_L_STAT_page_kib, F.FLX_L_CTL_retrain, F.FLX_L_CTL_force_down,
  F.FLX_L_PRESENT_dies, F.FLX_L_OWNED_dies, F.FLX_L_FAILED_dies, F.FLX_L_SUSP_dies, F.FLX_L_TEMP_temps, F.FLX_L_BAND_band,
  F.FLX_L_TERM_term, F.FLX_L_frames_tx, F.FLX_L_frames_rx, F.FLX_L_crc_transient, F.FLX_L_crc_lasting, F.FLX_L_retrains,
  F.FLX_L_reads, F.FLX_L_programs, F.FLX_L_erases, F.FLX_L_suspends, F.FLX_L_progs_in_suspend, F.FLX_L_verify_transient,
  F.FLX_L_verify_lasting, F.FLX_L_program_fails, F.FLX_L_erase_fails, F.FLX_L_die_timeouts, F.FLX_L_read_transient,
  F.FLX_L_DEPTH_reads, F.FLX_STAT_lanes_up, F.FLX_STAT_deep_busy, F.FLX_CFG_ers_susp_max, F.FLX_CTL_thr_sample_s,
  F.FLX_LANES_UP_up, F.FLX_deep_decodes, F.FLX_deep_failures]
/-- Fields of block FLX, part 1. -/
def mapFLX1 : List Field := [F.FLX_ladder_reads, F.FLX_starved_erases, F.FLX_erase_incomplete, F.FLX_grown_bad_blocks,
  F.FLX_dies_failed, F.FLX_thr_bound_hits, F.FLX_option_updates, F.FLX_option_loads]
/-- Fields of block FTL, part 0. -/
def mapFTL0 : List Field := [F.FTL_STAT_health_valid, F.FTL_STAT_any_read_only, F.FTL_STAT_any_eol, F.FTL_STAT_reclaiming,
  F.FTL_STAT_relocating, F.FTL_STAT_wl_active, F.FTL_CTL_recl_start_pm, F.FTL_CTL_reloc_bits, F.FTL_CTL_reloc_depth,
  F.FTL_CTL_wl_budget_pct, F.FTL_CFG_wl_spread, F.FTL_CFG_spare_ro_pm, F.FTL_LIFE_life_used_pct, F.FTL_LIFE_eol,
  F.FTL_POOL_SEL_pool, F.FTL_P_STAT_read_only, F.FTL_P_STAT_eol_warning, F.FTL_P_STAT_reclaiming, F.FTL_P_STAT_writes_held,
  F.FTL_P_STAT_free_pm, F.FTL_P_STAT_spare_pm, F.FTL_P_STAT_wear_used_pct, F.FTL_P_PE_pe_min, F.FTL_P_PE_pe_max,
  F.FTL_P_PE_MEAN_pe_mean, F.FTL_P_GROWN_grown_bad, F.FTL_P_FREE_free_blocks, F.FTL_P_TEMP_hours, F.FTL_P_TMAX_tmax,
  F.FTL_P_TMAX_hot_entries, F.FTL_P_UNREC_blocks, F.FTL_P_LIVE_bytes, F.FTL_map_hit_sram, F.FTL_map_hit_hbm,
  F.FTL_map_miss_flash, F.FTL_map_writebacks, F.FTL_pages_extent_form, F.FTL_pages_block_form, F.FTL_recl_victims,
  F.FTL_recl_slots_copied]
/-- Fields of block FTL, part 1. -/
def mapFTL1 : List Field := [F.FTL_recl_bytes_copied, F.FTL_recl_stale_at_seal, F.FTL_copy_target_fails,
  F.FTL_static_wl_victims, F.FTL_relocations, F.FTL_reloc_unreadable, F.FTL_reserve_grants, F.FTL_discard_blocks,
  F.FTL_zero_reads, F.FTL_unrecovered_reads]
/-- Fields of block EVR. -/
def mapEVR : List Field := [F.EVR_STAT_buffered, F.EVR_STAT_flushing, F.EVR_STAT_clearing, F.EVR_STAT_area_full,
  F.EVR_CTL_flush, F.EVR_CTL_clear, F.EVR_CTL_key, F.EVR_AREA_records, F.EVR_DROPPED_dropped, F.EVR_RD_IDX_index,
  F.EVR_RD_STAT_ready, F.EVR_RD_STAT_valid, F.EVR_RD_DATA_data, F.EVR_CAT_SEL_code, F.EVR_CAT_severity, F.EVR_CAT_defined,
  F.EVR_CAT_NAME_name, F.EVR_records_taken, F.EVR_flushes, F.EVR_buffer_drops]
/-- Fields of block CNT. -/
def mapCNT : List Field := [F.CNT_SEL_source, F.CNT_SEL_instance, F.CNT_FRZ_freeze, F.CNT_CLR_clear_all, F.CNT_VAL_value]
/-- Fields of block TRC. -/
def mapTRC : List Field := [F.TRC_CTL_enable, F.TRC_CTL_port_on, F.TRC_CTL_stop_on_full, F.TRC_CTL_clear, F.TRC_KINDS_kinds,
  F.TRC_BLOCKS_blocks, F.TRC_STAT_running, F.TRC_STAT_stopped_full, F.TRC_STAT_fill, F.TRC_LOST_lost, F.TRC_RD_IDX_index,
  F.TRC_RD_DATA_data]
/-- Fields of block FWU. -/
def mapFWU : List Field := [F.FWU_CTL_chunk, F.FWU_CTL_commit, F.FWU_CTL_abort, F.FWU_CTL_owner_lock, F.FWU_SRC_source,
  F.FWU_SRC_target, F.FWU_CHUNK_OFF_off_4k, F.FWU_CHUNK_LEN_len, F.FWU_STAT_state, F.FWU_STAT_active_slot, F.FWU_STAT_result,
  F.FWU_STAT_img_err, F.FWU_SLOT_VER_version, F.FWU_SLOT_STAT_state, F.FWU_SLOT_STAT_security, F.FWU_FUSE_program_owner,
  F.FWU_FUSE_program_kfuse, F.FWU_FUSE_owner_blank, F.FWU_FUSE_kfuse_blank, F.FWU_chunks, F.FWU_commits, F.FWU_refusals,
  F.FWU_boot_fallbacks]
/-- Fields of block SIM. -/
def mapSIM : List Field := [F.SIM_CTL_submit, F.SIM_CTL_activate, F.SIM_CTL_discard, F.SIM_SRC_source,
  F.SIM_ACT_NS_anchor_nsid, F.SIM_STATUS_state, F.SIM_STATUS_lock_active, F.SIM_STATUS_boot_only, F.SIM_STATUS_roll,
  F.SIM_STATUS_timer_cairns, F.SIM_STATUS_no_peer, F.SIM_ERR_code, F.SIM_ERR_record, F.SIM_ERR_OFF_offset,
  F.SIM_GEN_ACT_generation, F.SIM_GEN_STG_generation, F.SIM_GEN_PEER_generation, F.SIM_DIGEST_digest]
/-- Every field of every block. -/
def regMap : List Field :=
  mapSYS0 ++ mapSYS1 ++ mapRST ++ mapTHM ++ mapWDT ++ mapIPT ++ mapTMB ++ mapNET ++ mapRDM0 ++ mapRDM1 ++ mapNVQ ++
    mapRED0 ++ mapRED1 ++ mapCIP ++ mapSTG ++ mapHHL ++ mapARB ++ mapSTR0 ++ mapSTR1 ++ mapSNP ++ mapFLX0 ++ mapFLX1 ++
    mapFTL0 ++ mapFTL1 ++ mapEVR ++ mapCNT ++ mapTRC ++ mapFWU ++ mapSIM

end Sys2Proof.Machine
end

