-- ==== Sys2Proof/Machine/State.lean ====
section
/-! DEFINITION. The state of the device, the reasons a step may stop, and the state after reset. -/
namespace Sys2Proof.Machine

/-- Everything of the head but its fuses and its command queue. `regs` holds the fields of the register maps whose value differs
from the reset value, by key (`Field.key`); the other parts are the blocks' own state. `free` counts the values the spec leaves
open (Config.freeNat) that the model has used: the model's own field. `txHeld` are the packets that PFC holds back, in order (R130).
`out` is everything the device has sent since reset. -/
structure Dev where
  regs : List (Nat × Nat) := []
  heldLow : Tab (Nat × Nat) := []
  int : IntState := {}
  msix : MsixState := {}
  evr : EvrState := {}
  cnt : CntState := {}
  trc : TrcState := {}
  summary : List Nat := []
  snapSeq : Nat := 0
  boot : BootFlash := {}
  sim : SimState := {}
  fwu : FwuState := {}
  cfg : CfgState := {}
  mgmt : List MgmtReply := []
  modes : ModeState := {}
  pow : PowState := {}
  pins : Pins := {}
  ipt : IptState := {}
  net : NetState := {}
  txHeld : List TxHeld := []
  nv : NvState := {}
  red : RedState := {}
  cip : CipState := {}
  stg : StgState := {}
  head : HeadState := {}
  snp : SnpState := {}
  fl : FlashState := {}
  free : Nat := 0
  out : List Output := []
  deriving DecidableEq, Repr

/-- The device: the commands that wait, first in first out; the fuses; everything else. -/
structure State where
  pending : List Instr := []
  fuses : Fuses := {}
  dev : Dev := {}
  deriving DecidableEq, Repr

/-- Reasons to stop with a fault. No meaning of this model raises one: every command of the table has an effect the spec gives.
`none_` exists so that the type is a closed inductive; nothing answers with it (safe). [DESIGN CHOICE: log 111] -/
inductive Fault where
  | none_
  deriving DecidableEq, Repr

/-- Reasons to refuse a command. [DESIGN CHOICE: log 111] -/
inductive Refusal where
  /-- The model has no meaning for the command yet; raised by the dispatcher alone (safe). -/
  | notModelled (mnemonic : String)
  deriving DecidableEq, Repr

/-- The device after power-on reset with blank fuses and blank boot flash, before a start has run: every register field at the
reset value of its map, every store empty, no command waiting. [DESIGN CHOICE: log 5] -/
def State.reset : State := {}

end Sys2Proof.Machine
end

