-- ==== Sys2Proof/Machine/Ops.lean ====
section
/-! DEFINITION. Named operations over the state: register fields, counters, interrupt status, events, trace, sending, free values.
Everything a meaning does to a register or to the record of what happened goes through one of these. -/
namespace Sys2Proof.Machine

/-! ### Register fields -/

/-- The value of a stored field: its entry, or its reset value. -/
def regGet (rs : List (Nat × Nat)) (f : Field) : Nat := (Tab.find? f.key rs).getD f.reset

/-- Store a field's value, cut to its width; a value equal to the reset value takes the entry out. -/
def regSet (rs : List (Nat × Nat)) (f : Field) (v : Nat) : List (Nat × Nat) :=
  let v := v % 2 ^ f.width
  if v = f.reset then Tab.del f.key rs else Tab.put f.key v rs

/-- Read a stored field. -/
def Dev.get (d : Dev) (f : Field) : Nat := regGet d.regs f
/-- Read a stored one-bit field. -/
def Dev.on (d : Dev) (f : Field) : Bool := regGet d.regs f == 1
/-- Write a stored field. -/
def Dev.set (d : Dev) (f : Field) (v : Nat) : Dev := { d with regs := regSet d.regs f v }
/-- Write a stored one-bit field. -/
def Dev.setB (d : Dev) (f : Field) (b : Bool) : Dev := { d with regs := regSet d.regs f (b2n b) }
/-- Read a signed field. -/
def Dev.getI (d : Dev) (f : Field) : Int := signedOf f.width (d.get f)
/-- Write a signed field. -/
def Dev.setI (d : Dev) (f : Field) (i : Int) : Dev := d.set f (fieldOfInt f.width i)

/-! ### Counters (R454) -/

/-- Whether event counter `i` is frozen (CNT_FRZ, R458). -/
def frozenCnt (rs : List (Nat × Nat)) (i : Nat) : Bool := tb (regGet rs (F.CNT_FRZ_freeze.at (i / 32))) (i % 32)

/-- Add `n` to every event counter that counts `source` and takes instance `inst` (R454). -/
def cntAdd (c : CntState) (rs : List (Nat × Nat)) (source inst n : Nat) : CntState :=
  { c with val := (List.range 256).map (fun i =>
      let s := c.sel.getD i 0xFF0000
      let v := c.val.getD i 0
      if bits s 10 0 = source && (bits s 23 16 = 0xFF || bits s 23 16 = inst) && !frozenCnt rs i
      then (v + n) % 2 ^ 64 else v) }

/-- A counter of a register map counts `n` more, modulo 2^64, and with it the event counters that count it. [DEDUCED: log 103] -/
def Dev.bump (d : Dev) (f : Field) (n : Nat := 1) : Dev :=
  { d with
    regs := regSet d.regs f (regGet d.regs f + n)
    cnt := match f.item with
      | some i => cntAdd d.cnt d.regs (64 * f.block + i) f.inst n
      | none => d.cnt }

/-! ### Sending and open values -/

/-- Something leaves the device. [DESIGN CHOICE: log 3] -/
def Dev.emit (d : Dev) (o : Output) : Dev := { d with out := d.out ++ [o] }

/-- A value the manual leaves open, and the state in which it is used up. [DESIGN CHOICE: log 4] -/
def Dev.fresh (d : Dev) : Nat × Dev := (Config.freeNat d.free, { d with free := d.free + 1 })

/-! ### Where the device stands -/

/-- The image in effect; before one is loaded, an image with no record. -/
def Dev.img (d : Dev) : Image := d.sim.active.getD {}
/-- The head's number (R466). -/
def Dev.headNo (d : Dev) : Nat := b2n d.pins.headSel
/-- The TIME count; 0 before the TIME domain runs. -/
def Dev.now (d : Dev) : Nat := if d.ipt.time.running then d.ipt.time.now else 0
/-- The head is in service: started, not parked, not in ROM. -/
def Dev.up (d : Dev) : Bool := d.pow.run == .up
/-- Fenced: by the pin (R256), or as a head in ROM recovery is treated (R448). -/
def Dev.fenced (d : Dev) : Bool := !d.pins.fenceN || d.pow.run == .rom || d.pow.run == .latched
/-- A mode bit of SYS_MODE as 0 to 7 (R37). -/
def modeField : Nat → Field
  | 0 => F.SYS_MODE_capture
  | 1 => F.SYS_MODE_mirror
  | 2 => F.SYS_MODE_reduce
  | 3 => F.SYS_MODE_seal
  | 4 => F.SYS_MODE_freeze
  | 5 => F.SYS_MODE_replicate
  | 6 => F.SYS_MODE_rebuild
  | _ => F.SYS_MODE_reshape
/-- Whether a mode is in effect. -/
def Dev.mode (d : Dev) (m : Nat) : Bool := d.on (modeField m)

/-! ### Trace (R455) -/

/-- Whether trace takes packets now. -/
def Dev.tracing (d : Dev) : Bool := d.on F.TRC_CTL_enable && !d.trc.stopped

/-- The trace buffer after one more packet: stopping at the last place, or overwriting the oldest. [DEDUCED: log 77] -/
def trcPush (t : TrcState) (stopOnFull : Bool) (p : TrcPacket) : TrcState :=
  if t.held.length < 131072 then
    { t with held := t.held ++ [p], stopped := stopOnFull && t.held.length + 1 == 131072 }
  else { t with held := t.held.drop 1 ++ [p] }

/-- A packet that finds the port or the buffer busy is dropped and counted; the next one that is not goes out behind a loss marker with
the count dropped (R455). Answers what is sent. [DESIGN CHOICE: log 126] -/
def trcOffer (t : TrcState) (stopOnFull : Bool) (p : TrcPacket) : TrcState × List TrcPacket :=
  let u := { t with offered := t.offered + 1 }
  if Config.traceBusy t.offered then ({ u with lost := (t.lost + 1) % 2 ^ 64, owed := t.owed + 1 }, [])
  else if t.owed = 0 then (trcPush u stopOnFull p, [p])
  else
    let m : TrcPacket := { timeNs := p.timeNs, kind := 15, block := 20, inst := 0, data := t.owed % 2 ^ 32 }
    let v := trcPush { u with owed := 0 } stopOnFull m
    if v.stopped then (v, [m]) else (trcPush v stopOnFull p, [m, p])

/-- A happening of a trace kind in a block. [DESIGN CHOICE: log 17] -/
def Dev.trace (d : Dev) (kind block inst : Nat) (info : List Nat) : Dev :=
  let p : TrcPacket := { timeNs := d.now, kind := kind, block := block, inst := inst,
                         data := (Config.traceData kind info).toNat }
  let take := d.tracing && tb (d.get F.TRC_KINDS_kinds) kind && tb (d.get F.TRC_BLOCKS_blocks) block
  let r := trcOffer d.trc (d.on F.TRC_CTL_stop_on_full) p
  { d with
    trc := if take then r.1 else d.trc
    out := if take && d.on F.TRC_CTL_port_on then d.out ++ r.2.map .trace else d.out }

/-! ### Interrupt status (R426, R427) -/

/-- The status register after one of its conditions arises. -/
def intRaise (s : IntState) (b : Nat) : IntState :=
  let n := (s.seq + 1) % 4096
  { seq := n, set := Tab.put b n s.set }

/-- Whether messages are sent for a status bit. -/
def Dev.intEnabled (d : Dev) (b : Nat) : Bool := d.on F.SYS_INT_CFG_msg_on && tb (d.get F.SYS_INT_EN_enable) b

/-- Reset value of a dword of the MSI-X table, by offset within the NVQ block: a vector's control dword masks it. -/
def msixReset (r : Nat) : Nat := if r % 16 = 12 then 1 else 0

/-- A dword of the MSI-X table. -/
def MsixState.dword (m : MsixState) (r : Nat) : Nat := Tab.getD m.table r (msixReset r)

/-- Whether a vector is masked. -/
def MsixState.masked (m : MsixState) (v : Nat) : Bool := tb (m.dword (0x4000 + 16 * v + 12)) 0

/-- A vector is to be signalled while it is masked: its pending bit. -/
def MsixState.pend (m : MsixState) (v : Nat) : MsixState :=
  if m.pending.contains v then m else { m with pending := v :: m.pending }

/-- Signal a vector: its message leaves, or its pending bit is set while it is masked (R166). [PRESUMED: log 97] -/
def Dev.message (d : Dev) (v : Nat) : Dev :=
  { d with
    out := if d.msix.masked v then d.out else d.out ++ [.msix v]
    msix := if d.msix.masked v then d.msix.pend v else d.msix }

/-- A condition of SYS_INT_STAT arises: the bit's set number moves, and a message goes out where an enabled bit rises. [PRESUMED: log 97] -/
def Dev.raise (d : Dev) (b : Nat) : Dev :=
  let v := d.get F.SYS_INT_CFG_vector
  let rises := d.intEnabled b && !Tab.has b d.int.set
  { d with
    int := intRaise d.int b
    out := if rises && !d.msix.masked v then d.out ++ [.msix v] else d.out
    msix := if rises && d.msix.masked v then d.msix.pend v else d.msix }

/-! ### Events (R451, R452) -/

/-- Append the buffered records to the event area, dropping them where it is full. -/
def flushTo (area : List EvRec) (buf : List EvRec) : List EvRec × Nat :=
  let room := 1048576 - area.length
  (area ++ buf.take room, buf.length - room)

/-- A flush (R452). While the area is being erased the records wait (R453). -/
def Dev.flushEvents (d : Dev) : Dev :=
  if d.evr.clearing then { d with evr := { d.evr with flushing := true } } else
  let r := flushTo d.boot.area d.evr.buffer
  { d with
    boot := { d.boot with area := r.1, areaDropped := d.boot.areaDropped + r.2 }
    evr := { d.evr with buffer := [], flushing := false } }

/-- Severity 3 or 4. -/
def isErrorEvent (k : EvKind) : Bool := decide (3 ≤ (Config.eventSeverity k).val)

/-- The code of an event (R451). -/
def eventCode (block : Nat) (k : EvKind) : Nat := block * 1024 + (Config.eventCause k).toNat

/-- The recorder after one more record is taken, or dropped where the buffer is full. -/
def evrTake (e : EvrState) (r : EvRec) : EvrState :=
  if e.buffer.length < 4096 then { e with buffer := e.buffer ++ [r], nextSeq := (e.nextSeq + 1) % 2 ^ 32 }
  else { e with nextSeq := (e.nextSeq + 1) % 2 ^ 32 }

/-- An event is recorded in a block: the record is taken, counted (item 63 of the block), traced, and flushed where its severity or
the number waiting asks for it; a record of error severity raises SYS_INT_STAT.event. -/
def Dev.event (d : Dev) (block : Nat) (k : EvKind) (info : List Nat := []) : Dev :=
  let r : EvRec := { block := block, kind := k, info := info, seq := d.evr.nextSeq, head := d.pins.headSel,
                     cycles := d.get F.RST_CYCLES_cycles % 2 ^ 32, opSeconds := d.boot.settings.opSeconds, timeNs := d.now,
                     inRom := d.pow.run == .rom || d.pow.run == .latched, inDrain := d.pow.drainGate }
  let full := decide (4096 ≤ d.evr.buffer.length)
  let d1 := (d.trace 1 block 0 [eventCode block k, r.seq])
  let d2 : Dev := { d1 with evr := evrTake d.evr r, cnt := cntAdd d.cnt d.regs (64 * block + 63) 0 1 }
  let d3 := if full then ({ d2 with boot := { d2.boot with areaDropped := d2.boot.areaDropped + 1 } } : Dev).bump F.EVR_buffer_drops
            else d2.bump F.EVR_records_taken
  let d4 := if isErrorEvent k then d3.raise 15 else d3
  if isErrorEvent k || decide (1024 ≤ d4.evr.buffer.length) then (d4.bump F.EVR_flushes).flushEvents else d4

/-- The octets of a record (R451). -/
def EvRec.bytes (r : EvRec) : Bytes :=
  let a := (Config.eventArgs r.kind r.info).map (·.toNat)
  let body := leBytes 2 (eventCode r.block r.kind) ++ leBytes 1 (Config.eventSeverity r.kind).val ++
    leBytes 1 (b2n r.head + 2 * b2n r.inRom + 4 * b2n r.inDrain) ++ leBytes 4 r.seq ++ leBytes 4 r.cycles ++
    leBytes 4 r.opSeconds ++ leBytes 8 r.timeNs ++
    (List.range 4).flatMap (fun i => leBytes 8 (a.getD i 0)) ++ zeros 4
  body ++ leBytes 4 (crc32c body)

/-! ### Lifting -/

/-- The outcome of a command whose effect falls on everything but fuses and queue. -/
def State.on (s : State) (f : Dev → Dev) : Host.Outcome State Fault Refusal := .next { s with dev := f s.dev }

/-- An effect that only a head in service has. [DEDUCED: log 9] -/
def Dev.whenUp (d : Dev) (f : Dev → Dev) : Dev := if d.up then f d else d

end Sys2Proof.Machine
end

