-- ==== Sys2Proof/Machine/Inflate.lean ====
section
/-! DEFINITION. DEFLATE decoding for the job service (RFC 1951 with the wrappers of RFC 1950 and RFC 1952), stoppable after any number of
output octets, and the wrappers' headers, trailers and checks (R187, R190, R191). -/
namespace Sys2Proof.Machine

/-! ### Bits -/

/-- The bits of octets, least significant first. -/
def bitsOf (bs : Bytes) : List Bool := bs.flatMap (fun b => (List.range 8).map (fun i => tb b.toNat i))

/-- Octets of complete groups of eight bits, and the bits left. -/
def packBits : Nat → List Bool → Bytes × List Bool
  | 0, l => ([], l)
  | f + 1, l =>
    if l.length < 8 then ([], l)
    else
      let v := (List.zipWith (fun (b : Bool) (i : Nat) => b2n b * 2 ^ i) (l.take 8) (List.range 8)).sum
      let r := packBits f (l.drop 8)
      (b8 v :: r.1, r.2)

/-- What taking an element from the input gives: the element and the bits left, too few bits, or an error. -/
inductive Take (α : Type) where
  | ok (a : α) (rest : List Bool)
  | short
  | bad
  deriving Repr

/-- Continue after an element. -/
def Take.bind {α β : Type} (t : Take α) (f : α → List Bool → Take β) : Take β :=
  match t with
  | .ok a r => f a r
  | .short => .short
  | .bad => .bad

/-- A number of `n` bits, least significant first. -/
def takeNum (n : Nat) (l : List Bool) : Take Nat :=
  if l.length < n then .short
  else .ok ((List.zipWith (fun (b : Bool) (i : Nat) => b2n b * 2 ^ i) (l.take n) (List.range n)).sum) (l.drop n)

/-! ### Codes -/

/-- Code lengths give canonical codes: for a length, its first code. -/
def firstCode (lens : List Nat) : Nat → Nat
  | 0 => 0
  | l + 1 => (firstCode lens l + (if l = 0 then 0 else (lens.filter (· == l)).length)) * 2

/-- Whether code lengths are over-subscribed. -/
def overSubscribed (lens : List Nat) : Bool :=
  decide (2 ^ 15 < ((lens.filter (· != 0)).map (fun l => 2 ^ (15 - l))).sum)

/-- The symbol of a code of a length: the k-th symbol of that length. -/
def symbolAt (lens : List Nat) (len k : Nat) : Option Nat := (((indexed lens).filter (fun e => e.2 == len)).map (·.1))[k]?

/-- Decode one symbol, most significant code bit first, up to 15 bits. -/
def takeSym (lens : List Nat) : Nat → Nat → Nat → List Bool → Take Nat
  | 0, _, _, _ => .bad
  | f + 1, len, code, l =>
    match l with
    | [] => .short
    | b :: r =>
      let len := len + 1
      let code := code * 2 + b2n b
      let first := firstCode lens len
      let n := (lens.filter (· == len)).length
      if first ≤ code ∧ code < first + n then
        match symbolAt lens len (code - first) with
        | some s => .ok s r
        | none => .bad
      else takeSym lens f len code r

/-- The code lengths of fixed blocks. -/
def fixedLit : List Nat := List.replicate 144 8 ++ List.replicate 112 9 ++ List.replicate 24 7 ++ List.replicate 8 8
/-- The distance lengths of fixed blocks. -/
def fixedDist : List Nat := List.replicate 30 5

/-- Order of the code length codes. -/
def lenOrder : List Nat := [16, 17, 18, 0, 8, 7, 9, 6, 10, 5, 11, 4, 12, 3, 13, 2, 14, 1, 15]

/-- The lengths of the code length code. -/
def takeClen : Nat → List Bool → List Nat → Take (List Nat)
  | 0, l, acc => .ok acc l
  | f + 1, l, acc => (takeNum 3 l).bind (fun v r => takeClen f r (acc ++ [v]))

/-- Literal and distance lengths under the code length code, `want` in all. -/
def takeLens (cl : List Nat) (want : Nat) : Nat → List Bool → List Nat → Take (List Nat)
  | 0, _, _ => .bad
  | f + 1, l, acc =>
    if want = acc.length then .ok acc l
    else if want < acc.length then .bad
    else (takeSym cl 15 0 0 l).bind (fun s r =>
      if s < 16 then takeLens cl want f r (acc ++ [s])
      else if s = 16 then
        match acc.getLast? with
        | none => .bad
        | some p => (takeNum 2 r).bind (fun n r => takeLens cl want f r (acc ++ List.replicate (n + 3) p))
      else if s = 17 then (takeNum 3 r).bind (fun n r => takeLens cl want f r (acc ++ List.replicate (n + 3) 0))
      else (takeNum 7 r).bind (fun n r => takeLens cl want f r (acc ++ List.replicate (n + 11) 0)))

/-- The tables of a dynamic block. -/
def takeTables (l : List Bool) : Take (List Nat × List Nat) :=
  (takeNum 5 l).bind (fun hlit l => (takeNum 5 l).bind (fun hdist l => (takeNum 4 l).bind (fun hclen l =>
    (takeClen (hclen + 4) l []).bind (fun raw l =>
      let cl := (List.range 19).map (fun i => match lenOrder.findIdx? (· == i) with | some k => raw.getD k 0 | none => 0)
      if overSubscribed cl then .bad
      else (takeLens cl (hlit + 257 + hdist + 1) 400 l []).bind (fun lens l =>
        let lit := lens.take (hlit + 257)
        let dist := lens.drop (hlit + 257)
        if overSubscribed lit || overSubscribed dist || lit.getD 256 0 == 0 || decide (286 < hlit + 257) || decide (30 < hdist + 1)
        then .bad else .ok (lit, dist) l)))))

/-- Base and extra bits of a length symbol (257 to 285). -/
def lenBase (s : Nat) : Option (Nat × Nat) :=
  if s < 257 ∨ 285 < s then none
  else if s = 285 then some (258, 0)
  else if s < 265 then some (s - 254, 0)
  else let e := (s - 261) / 4; some (3 + (4 + (s - 261) % 4) * 2 ^ e, e)

/-- Base and extra bits of a distance symbol (0 to 29). -/
def distBase (s : Nat) : Option (Nat × Nat) :=
  if 29 < s then none
  else if s < 4 then some (s + 1, 0)
  else let e := s / 2 - 1; some (1 + (2 + s % 2) * 2 ^ e, e)

/-! ### The decoder -/

/-- How a run of the decoder ends: input used up, output limit reached, stream ended, error. -/
inductive InfEnd where
  | more | full | done | bad
  deriving DecidableEq, Repr

/-- A run: state, input bits left, bits used, output so far newest first, its length. -/
structure InfRun where
  st : InfState
  left : List Bool
  used : Nat
  out : Bytes
  n : Nat
  deriving Repr

/-- The octet a distance back, in the output or the history before it. -/
def InfRun.back (r : InfRun) (history : Bytes) (d : Nat) : Option Byte :=
  if d = 0 then none
  else if d ≤ r.n then r.out[d - 1]?
  else if d - r.n ≤ history.length then history[history.length - (d - r.n)]? else none

/-- Take an element: the state moves and the bits count as used. -/
def InfRun.take (r : InfRun) (rest : List Bool) (st : InfState) : InfRun :=
  { r with st := st, left := rest, used := r.used + (r.left.length - rest.length) }

/-- One octet of output. -/
def InfRun.put (r : InfRun) (b : Byte) (st : InfState) : InfRun := { r with st := st, out := b :: r.out, n := r.n + 1 }

/-- The block header, with its tables or stored length. Bits to the octet boundary before a stored length are dropped; `phase` counts
the bits used since the stream's octet boundary. -/
def infBlock (r : InfRun) (align : Nat) : Take InfState :=
  (takeNum 1 r.left).bind (fun last l => (takeNum 2 l).bind (fun typ l =>
    match typ with
    | 0 =>
      let used := r.left.length - l.length
      let pad := (8 - (align + used) % 8) % 8
      (takeNum pad l).bind (fun _ l => (takeNum 16 l).bind (fun len l => (takeNum 16 l).bind (fun nlen l =>
        if len + nlen = 65535 then .ok { r.st with phase := 2, last := last == 1, stored := len } l else .bad)))
    | 1 => .ok { r.st with phase := 3, last := last == 1, lit := fixedLit, dist := fixedDist } l
    | 2 => (takeTables l).bind (fun t l => .ok { r.st with phase := 3, last := last == 1, lit := t.1, dist := t.2 } l)
    | _ => .bad))

/-- A code of a block: a literal, the end of the block, or a match. -/
def infCode (r : InfRun) : Take (Option Byte × InfState) :=
  (takeSym r.st.lit 15 0 0 r.left).bind (fun s l =>
    if s < 256 then .ok (some (b8 s), r.st) l
    else if s = 256 then .ok (none, { r.st with phase := if r.st.last then 4 else 1, lit := [], dist := [] }) l
    else match lenBase s with
      | none => .bad
      | some lb => (takeNum lb.2 l).bind (fun x l => (takeSym r.st.dist 15 0 0 l).bind (fun ds l =>
          match distBase ds with
          | none => .bad
          | some db => (takeNum db.2 l).bind (fun y l => .ok (none, { r.st with copyLen := lb.1 + x, copyDist := db.1 + y }) l))))

/-- Run the decoder until `limit` octets of output, the end of the input or of the stream, or an error. `start` is how many bits of the
first octet were used before. -/
def infLoop (history : Bytes) (limit start : Nat) : Nat → InfRun → InfRun × InfEnd
  | 0, r => (r, .more)
  | f + 1, r =>
    let st := r.st
    if st.copyLen ≠ 0 then
      if limit ≤ r.n then (r, .full)
      else match r.back history st.copyDist with
        | none => (r, .bad)
        | some b => infLoop history limit start f (r.put b { st with copyLen := st.copyLen - 1 })
    else match st.phase with
      | 1 => match infBlock r (start + r.used) with
        | .ok s l => infLoop history limit start f (r.take l s)
        | .short => (r, .more)
        | .bad => (r, .bad)
      | 2 =>
        if st.stored = 0 then infLoop history limit start f { r with st := { st with phase := if st.last then 4 else 1 } }
        else if limit ≤ r.n then (r, .full)
        else match takeNum 8 r.left with
          | .ok b l => infLoop history limit start f ((r.take l { st with stored := st.stored - 1 }).put (b8 b) { st with stored := st.stored - 1 })
          | .short => (r, .more)
          | .bad => (r, .bad)
      | 3 => match infCode r with
        | .ok (some b, s) l => if limit ≤ r.n then (r, .full) else infLoop history limit start f ((r.take l s).put b s)
        | .ok (none, s) l => infLoop history limit start f (r.take l s)
        | .short => (r, .more)
        | .bad => (r, .bad)
      | _ => (r, .done)

/-! ### Wrappers -/

/-- One step of the Adler-32 sum of RFC 1950. -/
def adlerStep (x : Nat) (b : Byte) : Nat :=
  let a := (x % 65536 + b.toNat) % 65521
  a + (x / 65536 + a) % 65521 * 65536

/-- One step of the CRC-32 of RFC 1952, on the inverted register. -/
def crc32Step (c : Nat) (b : Byte) : Nat :=
  (List.range 8).foldl (fun c _ => if c % 2 = 1 then c / 2 ^^^ 0xEDB88320 else c / 2) (c ^^^ b.toNat)

/-- The running check of a wrapper, started. -/
def wrapStart (format : Nat) : Nat := if format = 1 then 1 else if format = 2 then 0xFFFFFFFF else 0
/-- The running check over more octets. -/
def wrapRun (format c : Nat) (bs : Bytes) : Nat :=
  if format = 1 then bs.foldl adlerStep c else if format = 2 then bs.foldl crc32Step c else c

/-- A wrapper's trailer (RFC 1950, RFC 1952). -/
def wrapTrailer (format check total : Nat) : Bytes :=
  if format = 1 then beBytes 4 check else if format = 2 then leBytes 4 (check ^^^ 0xFFFFFFFF) ++ leBytes 4 total else []

/-- A wrapper's header as a codec unit writes it: 32 KiB window, no dictionary; no optional gzip field. [DESIGN CHOICE: log 20] -/
def wrapHeader (format : Nat) : Bytes :=
  if format = 1 then
    let flg := Config.wrapperInfo 1 % 4 * 64
    [b8 0x78, b8 (flg + (31 - (0x7800 + flg) % 31) % 31)]
  else if format = 2 then [b8 0x1F, b8 0x8B, b8 8, 0] ++ leBytes 6 (Config.wrapperInfo 2)
  else []

/-- Octets up to and with a zero octet. -/
def zeroEnd : Bytes → Option Nat
  | [] => none
  | b :: t => if b = 0 then some 1 else (zeroEnd t).map (· + 1)

/-- A zero-terminated field of a gzip header, where its flag is set. -/
def gzString (flag : Bool) (bs : Bytes) (at_ : Nat) : Option Nat := if flag then (zeroEnd (bs.drop at_)).map (at_ + ·) else some at_

/-- Length of a wrapper's header at the start of the input; an error where it is none; short where its end is not there yet. -/
def headerLen (format : Nat) (bs : Bytes) : Take Nat :=
  let get (i : Nat) : Nat := (bs.getD i 0).toNat
  if format = 1 then
    if bs.length < 2 then .short
    else if get 0 % 16 = 8 ∧ get 0 / 16 ≤ 7 ∧ (get 0 * 256 + get 1) % 31 = 0 ∧ !tb (get 1) 5 then .ok 2 [] else .bad
  else if format = 2 then
    if bs.length < 10 then .short
    else if get 0 ≠ 0x1F ∨ get 1 ≠ 0x8B ∨ get 2 ≠ 8 ∨ 32 ≤ get 3 then .bad
    else
      let extra := if tb (get 3) 2 then (if bs.length < 12 then none else some (12 + leAt bs 10 2)) else some 10
      match (extra.bind (gzString (tb (get 3) 3) bs)).bind (gzString (tb (get 3) 4) bs) with
      | none => .short
      | some n =>
        if !tb (get 3) 1 then (if bs.length < n then .short else .ok n [])
        else if bs.length < n + 2 then .short
        else if leAt bs n 2 = ((bs.take n).foldl crc32Step 0xFFFFFFFF ^^^ 0xFFFFFFFF) % 65536 then .ok (n + 2) [] else .bad
  else .ok 0 []

end Sys2Proof.Machine
end

