-- ==== Sys2Proof/Machine/Aes.lean ====
section
/-! DEFINITION. AES-128 and AES-256 (FIPS 197) and the modes the cipher engine gives (R200, R205, R206, R212, R213): ECB block,
CBC, CTR, CFB-128, OFB, GCM and GMAC, CMAC, the CMAC key derivation and the key wrap. -/
namespace Sys2Proof.Machine

/-- The substitution box. -/
def aesSbox : List Nat :=
  [99, 124, 119, 123, 242, 107, 111, 197, 48, 1, 103, 43, 254, 215, 171, 118] ++
  [202, 130, 201, 125, 250, 89, 71, 240, 173, 212, 162, 175, 156, 164, 114, 192] ++
  [183, 253, 147, 38, 54, 63, 247, 204, 52, 165, 229, 241, 113, 216, 49, 21] ++
  [4, 199, 35, 195, 24, 150, 5, 154, 7, 18, 128, 226, 235, 39, 178, 117] ++
  [9, 131, 44, 26, 27, 110, 90, 160, 82, 59, 214, 179, 41, 227, 47, 132] ++
  [83, 209, 0, 237, 32, 252, 177, 91, 106, 203, 190, 57, 74, 76, 88, 207] ++
  [208, 239, 170, 251, 67, 77, 51, 133, 69, 249, 2, 127, 80, 60, 159, 168] ++
  [81, 163, 64, 143, 146, 157, 56, 245, 188, 182, 218, 33, 16, 255, 243, 210] ++
  [205, 12, 19, 236, 95, 151, 68, 23, 196, 167, 126, 61, 100, 93, 25, 115] ++
  [96, 129, 79, 220, 34, 42, 144, 136, 70, 238, 184, 20, 222, 94, 11, 219] ++
  [224, 50, 58, 10, 73, 6, 36, 92, 194, 211, 172, 98, 145, 149, 228, 121] ++
  [231, 200, 55, 109, 141, 213, 78, 169, 108, 86, 244, 234, 101, 122, 174, 8] ++
  [186, 120, 37, 46, 28, 166, 180, 198, 232, 221, 116, 31, 75, 189, 139, 138] ++
  [112, 62, 181, 102, 72, 3, 246, 14, 97, 53, 87, 185, 134, 193, 29, 158] ++
  [225, 248, 152, 17, 105, 217, 142, 148, 155, 30, 135, 233, 206, 85, 40, 223] ++
  [140, 161, 137, 13, 191, 230, 66, 104, 65, 153, 45, 15, 176, 84, 187, 22]

/-- The inverse substitution box. -/
def aesInvSbox : List Nat :=
  [82, 9, 106, 213, 48, 54, 165, 56, 191, 64, 163, 158, 129, 243, 215, 251] ++
  [124, 227, 57, 130, 155, 47, 255, 135, 52, 142, 67, 68, 196, 222, 233, 203] ++
  [84, 123, 148, 50, 166, 194, 35, 61, 238, 76, 149, 11, 66, 250, 195, 78] ++
  [8, 46, 161, 102, 40, 217, 36, 178, 118, 91, 162, 73, 109, 139, 209, 37] ++
  [114, 248, 246, 100, 134, 104, 152, 22, 212, 164, 92, 204, 93, 101, 182, 146] ++
  [108, 112, 72, 80, 253, 237, 185, 218, 94, 21, 70, 87, 167, 141, 157, 132] ++
  [144, 216, 171, 0, 140, 188, 211, 10, 247, 228, 88, 5, 184, 179, 69, 6] ++
  [208, 44, 30, 143, 202, 63, 15, 2, 193, 175, 189, 3, 1, 19, 138, 107] ++
  [58, 145, 17, 65, 79, 103, 220, 234, 151, 242, 207, 206, 240, 180, 230, 115] ++
  [150, 172, 116, 34, 231, 173, 53, 133, 226, 249, 55, 232, 28, 117, 223, 110] ++
  [71, 241, 26, 113, 29, 41, 197, 137, 111, 183, 98, 14, 170, 24, 190, 27] ++
  [252, 86, 62, 75, 198, 210, 121, 32, 154, 219, 192, 254, 120, 205, 90, 244] ++
  [31, 221, 168, 51, 136, 7, 199, 49, 177, 18, 16, 89, 39, 128, 236, 95] ++
  [96, 81, 127, 169, 25, 181, 74, 13, 45, 229, 122, 159, 147, 201, 156, 239] ++
  [160, 224, 59, 77, 174, 42, 245, 176, 200, 235, 187, 60, 131, 83, 153, 97] ++
  [23, 43, 4, 126, 186, 119, 214, 38, 225, 105, 20, 99, 85, 33, 12, 125]

/-- Substitute one octet. -/
def subByte (b : Byte) : Byte := b8 (aesSbox.getD b.toNat 0)

/-- Substitute one octet back. -/
def invSubByte (b : Byte) : Byte := b8 (aesInvSbox.getD b.toNat 0)

/-- Multiply by x in the AES field. -/
def xtime (n : Nat) : Nat := if n < 128 then 2 * n else (2 * n) % 256 ^^^ 0x1b

/-- Multiply in the AES field (the multipliers of the two column mixes have four bits). -/
def aesMul (k : Nat) (b : Byte) : Nat :=
  let x1 := b.toNat
  let x2 := xtime x1
  let x4 := xtime x2
  let x8 := xtime x4
  (if tb k 0 then x1 else 0) ^^^ (if tb k 1 then x2 else 0) ^^^ (if tb k 2 then x4 else 0) ^^^ (if tb k 3 then x8 else 0)

/-- Next words of the key schedule (newest word first), `n` of them; `i` is the index of the next word, `nk` the key's words. -/
def aesExpand (nk : Nat) : Nat → Nat → Nat → List Bytes → List Bytes
  | 0, _, _, ws => ws
  | n + 1, i, rc, ws =>
    let t := ws.headD []
    let t' := if i % nk = 0 then
        match (t.drop 1 ++ t.take 1).map subByte with
        | [] => []
        | x :: r => (x ^^^ b8 rc) :: r
      else if nk > 6 ∧ i % nk = 4 then t.map subByte
      else t
    aesExpand nk n (i + 1) (if i % nk = 0 then xtime rc else rc) (xorBytes (ws.getD (nk - 1) []) t' :: ws)

/-- The round keys of a 16- or 32-octet key, 16 octets each, first first. -/
def aesKeys (key : Bytes) : List Bytes :=
  let nk := key.length / 4
  let total := 4 * (nk + 7)
  let ws := aesExpand nk (total - nk) nk 1 (chunks 4 key).reverse
  chunks 16 (ws.reverse.flatten)

/-- Row shift by an index map of the column-major block. -/
def aesPermute (ix : List Nat) (st : Bytes) : Bytes := ix.map (fun i => st.getD i 0)

/-- Index map of the forward row shift. -/
def aesShiftIx : List Nat := [0, 5, 10, 15, 4, 9, 14, 3, 8, 13, 2, 7, 12, 1, 6, 11]

/-- Index map of the inverse row shift. -/
def aesInvShiftIx : List Nat := [0, 13, 10, 7, 4, 1, 14, 11, 8, 5, 2, 15, 12, 9, 6, 3]

/-- One column mixed with a circulant row of multipliers. -/
def aesMixCol (m : List Nat) (c : Bytes) : Bytes :=
  (List.range 4).map (fun r => b8 ((List.range 4).foldl (fun a j => a ^^^ aesMul (m.getD ((j + 4 - r) % 4) 0) (c.getD j 0)) 0))

/-- All four columns mixed. -/
def aesMix (m : List Nat) (st : Bytes) : Bytes := ((chunks 4 st).map (aesMixCol m)).flatten

/-- Rounds after the first key addition; the last round mixes no column. -/
def aesEncRounds : List Bytes → Bytes → Bytes
  | [], st => st
  | [k], st => xorBytes (aesPermute aesShiftIx (st.map subByte)) k
  | k :: k' :: ks, st => aesEncRounds (k' :: ks) (xorBytes (aesMix [2, 3, 1, 1] (aesPermute aesShiftIx (st.map subByte))) k)

/-- Encrypt one 16-octet block. -/
def aesEnc (key blk : Bytes) : Bytes :=
  match aesKeys key with
  | [] => blk
  | k :: ks => aesEncRounds ks (xorBytes blk k)

/-- Inverse rounds, keys last first; the last round mixes no column. -/
def aesDecRounds : List Bytes → Bytes → Bytes
  | [], st => st
  | [k], st => xorBytes ((aesPermute aesInvShiftIx st).map invSubByte) k
  | k :: k' :: ks, st => aesDecRounds (k' :: ks) (aesMix [14, 11, 13, 9] (xorBytes ((aesPermute aesInvShiftIx st).map invSubByte) k))

/-- Decrypt one 16-octet block. -/
def aesDec (key blk : Bytes) : Bytes :=
  match (aesKeys key).reverse with
  | [] => blk
  | k :: ks => aesDecRounds ks (xorBytes blk k)

/-- Add one to the low `n` octets of a block, modulo their range. -/
def incLow (n : Nat) (blk : Bytes) : Bytes :=
  let k := blk.length - n
  blk.take k ++ beBytes n ((beNat (blk.drop k) + 1) % 256 ^ n)

/-- Counter-mode stream over groups of 16; answers the output and the next counter block. -/
def ctrRun (n : Nat) (key : Bytes) (ctr : Bytes) (bs : Bytes) : Bytes × Bytes :=
  (chunks 16 bs).foldl (fun a g => (a.1 ++ xorBytes g (aesEnc key a.2), incLow n a.2)) ([], ctr)

/-- CBC encryption of whole blocks; answers the output and the next chaining block. -/
def cbcEnc (key iv bs : Bytes) : Bytes × Bytes :=
  (chunks 16 bs).foldl (fun a g => let c := aesEnc key (xorBytes g a.2); (a.1 ++ c, c)) ([], iv)

/-- CBC decryption of whole blocks. -/
def cbcDec (key iv bs : Bytes) : Bytes × Bytes :=
  (chunks 16 bs).foldl (fun a g => (a.1 ++ xorBytes (aesDec key g) a.2, g)) ([], iv)

/-- One bit step of the GHASH multiplication: (accumulator, shifted operand). -/
def gfStep (x : Nat) (a : Nat × Nat) (i : Nat) : Nat × Nat :=
  ((if tb x (127 - i) then a.1 ^^^ a.2 else a.1),
   if a.2 % 2 = 1 then (a.2 / 2) ^^^ (0xE1 <<< 120) else a.2 / 2)

/-- The GHASH product of two 128-bit numbers (bit 127 is the first bit). -/
def gfMul (x y : Nat) : Nat := ((List.range 128).foldl (gfStep x) (0, y)).1

/-- GHASH of octets (the last group padded with zeros) continued from an accumulator. -/
def ghash (h acc : Nat) (bs : Bytes) : Nat :=
  (chunks 16 bs).foldl (fun a g => gfMul (a ^^^ beNat (sliceZ g 0 16)) h) acc

/-- The GHASH key of an AES key. -/
def ghashKey (key : Bytes) : Nat := beNat (aesEnc key (zeros 16))

/-- The first counter block of a 96-bit nonce. -/
def gcmJ0 (iv : Bytes) : Bytes := iv ++ [0, 0, 0, 1]

/-- The 16-octet GCM tag over associated data and ciphertext. -/
def gcmTag (key iv aad ct : Bytes) : Bytes :=
  let h := ghashKey key
  let s := ghash h (ghash h 0 aad) ct
  let l := (8 * aad.length) * 2 ^ 64 + 8 * ct.length
  xorBytes (beBytes 16 (gfMul (s ^^^ l) h)) (aesEnc key (gcmJ0 iv))

/-- GCM encryption: ciphertext and tag. -/
def gcmEnc (key iv aad pt : Bytes) : Bytes × Bytes :=
  let ct := (ctrRun 4 key (incLow 4 (gcmJ0 iv)) pt).1
  (ct, gcmTag key iv aad ct)

/-- Doubling in the CMAC field. -/
def cmacDbl (n : Nat) : Nat := if tb n 127 then ((2 * n) % 2 ^ 128) ^^^ 0x87 else 2 * n

/-- AES-CMAC (SP 800-38B) of octets. -/
def cmac (key bs : Bytes) : Bytes :=
  let l := beNat (aesEnc key (zeros 16))
  let k1 := cmacDbl l
  let k2 := cmacDbl k1
  let gs := chunks 16 bs
  let last := gs.getLastD []
  let m := if last.length = 16 then xorBytes last (beBytes 16 k1)
    else xorBytes (sliceZ (last ++ [b8 0x80]) 0 16) (beBytes 16 k2)
  aesEnc key (xorBytes m ((gs.dropLast).foldl (fun x g => aesEnc key (xorBytes x g)) (zeros 16)))

/-- Key derivation in counter mode with CMAC (SP 800-108): `n` octets from a fixed input laid between a 32-bit counter's octets
and the end; `mk i` is the whole input block of counter `i`. -/
def kdfCtr (key : Bytes) (mk : Nat → Bytes) (n : Nat) : Bytes :=
  (((List.range (ceilDiv n 16)).map (fun i => cmac key (mk (i + 1)))).flatten).take n

/-- One pass of the key wrap (RFC 3394): (A, R list) stepped with counter t. -/
def wrapPass (key : Bytes) (a : Bytes) (rs : List Bytes) (t0 : Nat) : Bytes × List Bytes × Nat :=
  rs.foldl (fun st r =>
    let b := aesEnc key (st.1 ++ r)
    (xorBytes (b.take 8) (beBytes 8 st.2.2), st.2.1 ++ [b.drop 8], st.2.2 + 1)) (a, [], t0)

/-- Six wrap passes. -/
def wrapPasses (key : Bytes) : Nat → Bytes → List Bytes → Nat → Bytes
  | 0, a, rs, _ => a ++ rs.flatten
  | n + 1, a, rs, t => let p := wrapPass key a rs t; wrapPasses key n p.1 p.2.1 p.2.2

/-- AES key wrap: eight octets longer than its input. -/
def keyWrap (kek pt : Bytes) : Bytes := wrapPasses kek 6 (List.replicate 8 (b8 0xA6)) (chunks 8 pt) 1

/-- One unwrap pass, last register first. -/
def unwrapPass (key : Bytes) (a : Bytes) (rs : List Bytes) (t0 : Nat) : Bytes × List Bytes × Nat :=
  rs.reverse.foldl (fun st r =>
    let b := aesDec key (xorBytes st.1 (beBytes 8 st.2.2) ++ r)
    (b.take 8, b.drop 8 :: st.2.1, st.2.2 - 1)) (a, [], t0)

/-- Six unwrap passes. -/
def unwrapPasses (key : Bytes) : Nat → Bytes → List Bytes → Nat → Bytes × Bytes
  | 0, a, rs, _ => (a, rs.flatten)
  | n + 1, a, rs, t => let p := unwrapPass key a rs t; unwrapPasses key n p.1 p.2.1 p.2.2

/-- AES key unwrap: the key where the integrity value agrees. -/
def keyUnwrap (kek ct : Bytes) : Option Bytes :=
  let gs := chunks 8 ct
  let rs := gs.drop 1
  let r := unwrapPasses kek 6 (gs.headD []) rs (6 * rs.length)
  if r.1 = List.replicate 8 (b8 0xA6) then some r.2 else none

end Sys2Proof.Machine
end

