-- ==== Sys2Proof/Machine/CfgCrc.lean ====
section
/-! DEFINITION. The configuration CRC as numbers (R425, R432, R433): the class-C registers of a block, their CRC-32C, the references. -/
namespace Sys2Proof.Machine

/-- A field's instances and elements. -/
def Field.insts (f : Field) : List Field :=
  (List.range f.count).flatMap (fun i => (List.range f.count2).map (fun j => (f.at i).sub j))

/-- The class-C fields of a block (R425). -/
def classC (block : Nat) : List Field := (regMap.filter (fun f => f.cls == .config && f.block == block)).flatMap Field.insts

/-- A class-C field's value: counter selections are held with the counters (R458). -/
def Dev.cfgValue (d : Dev) (f : Field) : Nat :=
  if f.block = 19 then bits (d.cnt.sel.getD f.inst 0xFF0000) f.msb f.lsb else d.get f

/-- The class-C registers of a block: offset and value masked to the class-C fields, in ascending offset. -/
def Dev.cfgWords (d : Dev) (block : Nat) : Tab Nat :=
  (classC block).foldl (fun t f => Tab.updD f.off 0 (fun v => v + d.cfgValue f * 2 ^ f.lsb) t) []

/-- The CRC of a block (R432). -/
def Dev.cfgCrc (d : Dev) (block : Nat) : Nat :=
  crc32c ((d.cfgWords block).flatMap (fun e => leBytes 4 e.1 ++ leBytes 4 e.2))

/-- The CRC over the 23 block CRCs (R432). -/
def crcOver (l : List Nat) : Nat := crc32c (l.flatMap (leBytes 4))

/-- The references become `l`, and SYS_CFG_CRC_REF shows them. -/
def Dev.setRefs (d : Dev) (l : List Nat) : Dev :=
  ({ d with cfg := { d.cfg with refs := l } } : Dev).set F.SYS_CFG_CRC_REF_crc (crcOver l)

/-- A class-C change made by the device updates the reference of its block in the same step (R433). -/
def Dev.refBlock (d : Dev) (block : Nat) : Dev := d.setRefs (d.cfg.refs.set block (d.cfgCrc block))

/-- The references of every block are taken from the present values (R71 step 4, R433). -/
def Dev.refAll (d : Dev) : Dev := d.setRefs ((List.range 23).map d.cfgCrc)

/-- Software changed a class-C field of a block (R434). -/
def Dev.touch (d : Dev) (block : Nat) : Dev :=
  let m := d.get F.SYS_CFG_TOUCHED_blocks
  if tb m block then d
  else ({ d with cfg := { d.cfg with touchedAt := Tab.put block d.pow.aon d.cfg.touchedAt } } : Dev).set F.SYS_CFG_TOUCHED_blocks (m + 2 ^ block)

/-- Software writes a class-C field; a write of the value it holds touches nothing (R434). -/
def Dev.softC (d : Dev) (f : Field) (v : Nat) : Dev := if d.get f = v % 2 ^ f.width then d else (d.set f v).touch f.block

/-- The device writes a class-C field (R433). -/
def Dev.setC (d : Dev) (f : Field) (v : Nat) : Dev := (d.set f v).refBlock f.block

end Sys2Proof.Machine
end

