-- ==== Sys2Proof/Machine/Time.lean ====
section
/-! DEFINITION. The TIME domain: count, lock, holdover, steps and slews (R94, R95), and the trigger outputs (R96). -/
namespace Sys2Proof.Machine

/-- Change the TIME domain. -/
def Dev.onTime (d : Dev) (f : TimeDom → TimeDom) : Dev := { d with ipt := { d.ipt with time := f d.ipt.time } }

/-- TMB_STAT.state by name (R98): 0 not locked since reset, 1 acquiring, 2 locked, 3 holdover, 4 unlocked, 5 free-run. -/
def Dev.timeState (d : Dev) : Nat := d.get F.TMB_STAT_state

/-- The source of TIME as loaded from the image (R94). -/
def Dev.timeSource (d : Dev) : Nat := (d.img.timeSrc d.headNo).source

/-- The count moved by a signed amount, not below 0. -/
def moveCount (n : Nat) (by_ : Int) : Nat := (Int.ofNat n + by_).toNat

/-- The time quality of R91: 0 locked, 1 holdover, 2 unlocked, 3 free-run. -/
def Dev.quality (d : Dev) : Nat :=
  match d.timeState with
  | 2 => 0
  | 3 => 1
  | 5 => 3
  | _ => 2

/-- Pulse index of a schedule's first pulse at or after a time (R96). -/
def firstPulse (t : Trig) (now : Nat) : Nat :=
  if now ≤ t.start then 0 else if t.period = 0 then 1 else ceilDiv (now - t.start) t.period

/-- The time of a schedule's next pulse, where one is left (R96: period 0 issues pulse 0 only). -/
def Trig.nextAt (t : Trig) : Option Nat :=
  if !t.enabled then none
  else if t.period = 0 then (if t.nextK = 0 then some t.start else none)
  else some (t.start + t.nextK * t.period)

/-- Skip the pulses whose time has passed, and say how many. -/
def Trig.skipTo (t : Trig) (now : Nat) : Trig × Nat :=
  if !t.enabled then (t, 0) else
  let k := firstPulse t now
  let last := if t.period = 0 then min k 1 else k
  if t.nextK < last then ({ t with nextK := last }, last - t.nextK) else (t, 0)

/-- Add to a saturating 32-bit register field. -/
def Dev.bumpSat (d : Dev) (f : Field) (n : Nat) : Dev := d.set f (min (d.get f + n) (2 ^ f.width - 1))

/-- A schedule's pulses whose time lies before TIME are counted as skipped. -/
def Dev.skipPulses (d : Dev) (i : Nat) : Dev :=
  let r := (Tab.getD d.ipt.time.trigs i ({} : Trig)).skipTo d.now
  (d.onTime (fun t => { t with trigs := Tab.upd i (fun _ => r.1) t.trigs })).bumpSat (F.TMB_TRIG_SKIPPED_skipped.at i) r.2

/-- All four outputs look for skipped pulses. -/
def Dev.skipAllPulses (d : Dev) : Dev := (List.range 4).foldl Dev.skipPulses d

/-- The count moves by a signed amount: the previous strobes of the channels keep their distance to it (R79), since the 20 ns between
strobes are time that passes. -/
def Dev.shiftTime (d : Dev) (by_ : Int) : Dev :=
  let d := d.onTime (fun t => { t with now := moveCount t.now by_ })
  { d with ipt := { d.ipt with chans := Tab.mapV (fun (c : Chan) => { c with prevStrobe := c.prevStrobe.map (· + by_) }) d.ipt.chans } }

/-- A step of TIME (R95): the count moves, step_count rises, and each channel's next record carries the step flag. -/
def Dev.stepTime (d : Dev) (by_ : Int) : Dev :=
  let d := (d.shiftTime by_).onTime (fun t => { t with slewLeft := 0 })
  let d := d.bumpSat F.TMB_STAT_step_count 1
  let d := { d with ipt := { d.ipt with chans := Tab.mapV (fun (c : Chan) => { c with stepped := true }) d.ipt.chans } }
  (d.event 5 .timeStepped [fieldOfInt 64 by_]).skipAllPulses

/-- An alignment before the first lock (R95): the count moves and nothing records it. [DEDUCED: log 24] -/
def Dev.alignTime (d : Dev) (by_ : Int) : Dev :=
  (d.shiftTime by_).skipAllPulses

/-- Remove an offset after the first lock: by slewing up to 1 ms, by a step beyond (R95). -/
def Dev.correctTime (d : Dev) (offset : Int) : Dev :=
  if offset.natAbs ≤ 1000000 then d.onTime (fun t => { t with slewLeft := -offset }) else d.stepTime (-offset)

/-- Lock is reached (R94): state locked, ever_locked set. -/
def Dev.lockTime (d : Dev) : Dev :=
  ((d.set F.TMB_STAT_state 2).set F.TMB_STAT_ever_locked 1).set F.TMB_HOLD_LEFT_hold_left_s 0

/-- The state a good edge or Sync message leads to: acquiring from not locked and unlocked; holdover goes on (R95). -/
def Dev.acquireTime (d : Dev) : Dev :=
  match d.timeState with
  | 0 | 4 => d.set F.TMB_STAT_state 1
  | 3 => d.onTime (fun t => { t with back := true })
  | _ => d

/-- Discipline by one measured offset of the reference, with the lock window and the number of consecutive good ones that lock
(R94): the offset is shown; a good one counts toward lock; another one aligns, slews or steps. The frequency correction that
results is the device's own and stays open. [DESIGN CHOICE: log 23] -/
def Dev.discipline (d : Dev) (offset : Int) (window need : Nat) : Dev :=
  let d := (d.setI F.TMB_OFFSET_offset_ns offset).acquireTime
  let d := (d.fresh.2).set F.TMB_FREQ_freq_ppb d.fresh.1
  if offset.natAbs ≤ window then
    let d := d.onTime (fun t => { t with good := t.good + 1 })
    if need ≤ d.ipt.time.good ∧ d.timeState ≠ 2 then d.lockTime else d
  else
    let d := d.onTime (fun t => { t with good := 0 })
    if d.on F.TMB_STAT_ever_locked then d.correctTime offset else d.alignTime (-offset)

/-- A seconds value takes effect (R94): an alignment before the first lock, a step after it where the count changes. A count that it leaves
where it was keeps its run of good edges. -/
def Dev.applySeconds (d : Dev) : Dev :=
  match d.ipt.time.secLatch with
  | none => d
  | some s =>
    let by_ : Int := Int.ofNat (s * 10 ^ 9) - Int.ofNat d.ipt.time.now
    let d := (d.onTime (fun t => { t with secLatch := none })).set F.TMB_SEC_CTL_pending 0
    if by_ = 0 then d else
    let d := d.onTime (fun t => { t with good := 0, slewLeft := 0 })
    if d.on F.TMB_STAT_ever_locked then d.stepTime by_ else d.alignTime by_

/-- SEC_SET_APPLY (R94): the value of TMB_SEC_SET at the pulse waits for the next PPS_IN edge or TIME second; PTP ignores it. -/
def Dev.secSetApply (d : Dev) : Dev :=
  if d.timeSource = 1 then d.event 5 .badAccess [F.TMB_SEC_CTL_apply.off]
  else (d.onTime (fun t => { t with secLatch := some (d.get F.TMB_SEC_SET_seconds) })).set F.TMB_SEC_CTL_pending 1

/-- The pending seconds value would leave the count where it is. -/
def Dev.secondsFit (d : Dev) : Bool := d.ipt.time.secLatch.all (fun s => s * 10 ^ 9 == d.ipt.time.now)

/-- PPS_IN_EDGE (R94, R95): under source 0, a pending seconds value that moves the count applies; otherwise the edge's offset disciplines
TIME. [DEDUCED: log 24] -/
def Dev.ppsEdge (d : Dev) (offset : Int) : Dev :=
  if d.timeSource ≠ 0 then d
  else if d.secondsFit then d.applySeconds.discipline offset 2 8
  else d.applySeconds.acquireTime

/-- A PTP message comes on the port, subport and domain that the TIME_SOURCE record names (R60, R94). -/
def Dev.ptpOurs (d : Dev) (p : PtpPort) : Bool :=
  let r := d.img.timeSrc d.headNo
  p.domain == r.ptpDomain && 16 * p.port + p.sub == r.ptpPort

/-- PTP_SYNC (R94): under source 1, the offset to the master disciplines TIME; a Sync of another port or domain is not for this clock. -/
def Dev.ptpSync (d : Dev) (m : PtpSync) : Dev := if d.timeSource ≠ 1 || !d.ptpOurs m.from_ then d else d.discipline m.offset 100 16

/-- The reference is lost (R95): from locked to holdover, or to unlocked with holdover_s 0; from acquiring back to what it was.
[DESIGN CHOICE: log 116] -/
def Dev.referenceLost (d : Dev) (source : Nat) : Dev :=
  if d.timeSource ≠ source then d else
  let d := d.onTime (fun t => { t with good := 0, back := false })
  let hold := (d.img.timeSrc d.headNo).holdoverS
  match d.timeState with
  | 2 =>
    let d := d.event 5 .timeRefLost [source]
    if hold = 0 then (d.set F.TMB_STAT_state 4).event 5 .timeUnlocked
    else (d.set F.TMB_STAT_state 3).set F.TMB_HOLD_LEFT_hold_left_s hold
  | 1 => d.set F.TMB_STAT_state (if d.on F.TMB_STAT_ever_locked then 4 else 0)
  | _ => d

/-- HOLDOVER_EXPIRY (R95): holdover turns unlocked, or acquiring where the reference has returned. -/
def Dev.holdoverExpiry (d : Dev) : Dev :=
  if d.timeState ≠ 3 then d else
  let d := d.set F.TMB_HOLD_LEFT_hold_left_s 0
  if d.ipt.time.back then d.set F.TMB_STAT_state 1 else (d.set F.TMB_STAT_state 4).event 5 .timeUnlocked

/-- PTP_ANNOUNCE (R95): the master and its Sync interval; a change of master restarts lock. -/
def Dev.ptpAnnounce (d : Dev) (m : PtpMaster) (intervalNs : Nat) : Dev :=
  if d.timeSource ≠ 1 || !d.ptpOurs m.from_ then d else
  let master := m.id
  let changed := d.ipt.time.master.isSome && d.ipt.time.master != some master
  let d := d.onTime (fun t => { t with master := some master, syncNs := intervalNs })
  if !changed then d else
  let d := (d.onTime (fun t => { t with good := 0 })).event 5 .ptpMasterChanged [master]
  if d.timeState = 2 then d.set F.TMB_STAT_state 1 else d

/-- TIME_SECOND (R94): under free-run a pending seconds value takes effect. -/
def Dev.timeSecond (d : Dev) : Dev := if d.timeSource = 2 then d.applySeconds else d

/-- Start the TIME domain after a reset (R94, R95): free-run locks at once, from 0; the others wait for their reference. -/
def Dev.startTime (d : Dev) : Dev :=
  let src := d.timeSource
  let d := d.onTime (fun t => { t with running := true, now := 0, good := 0, back := false, secLatch := none, slewLeft := 0 })
  let d := d.set F.TMB_STAT_source src
  if src = 2 then (d.set F.TMB_STAT_state 5).set F.TMB_STAT_ever_locked 1 else d

/-- TIME reaches a count that a command from outside carries (a strobe's stamp). It never runs back. -/
def Dev.reachTime (d : Dev) (t : Nat) : Dev :=
  if d.ipt.time.running then d.onTime (fun x => { x with now := max x.now t }) else d

/-! ### Trigger outputs (R96) -/

/-- Put a trigger schedule of the image in force: a pulse in progress ends as it would, and the schedule starts at its first pulse
time from now on. Pulses already past are skipped. -/
def Dev.loadTrig (d : Dev) (i : Nat) : Dev :=
  let old := Tab.getD d.ipt.time.trigs i ({} : Trig)
  match d.img.trig? d.headNo i with
  | none => d.onTime (fun t => { t with trigs := Tab.put i { pulseEnd := old.pulseEnd } t.trigs })
  | some r =>
    let new : Trig := { enabled := tb r.trigFlags 0, activeLow := tb r.trigFlags 1, width := r.widthNs, start := r.startNs,
                        period := r.periodNs, nextK := 0, pulseEnd := old.pulseEnd }
    (d.onTime (fun t => { t with trigs := Tab.put i new t.trigs })).skipPulses i

/-- TRIG_PULSE (R96): the output issues its next pulse if its time has come; TIME then stands at the pulse's start. A head outside
L0 and L1 holds the output inactive and the pulse is skipped. -/
def Dev.trigPulse (d : Dev) (i : Nat) : Dev :=
  let t := Tab.getD d.ipt.time.trigs i ({} : Trig)
  match t.nextAt with
  | none => d
  | some at_ =>
    let d := d.reachTime at_
    let issue := d.up && decide (d.get F.RST_STAT_ps < 2) && decide (d.now ≤ at_) && !d.fenced
    let d := d.onTime (fun x => { x with trigs := Tab.upd i (fun t =>
      { t with nextK := t.nextK + 1, pulseEnd := if issue then some (at_ + t.width) else t.pulseEnd }) x.trigs })
    if issue then (d.bumpSat (F.TMB_TRIG_ISSUED_issued.at i) 1).emit (.trig i at_ t.width (!t.activeLow))
    else d.bumpSat (F.TMB_TRIG_SKIPPED_skipped.at i) 1

/-- The level a TRIG output is driven to: its active level, which trig_flags selects, during a pulse, else the other (R96). -/
def Trig.level (t : Trig) (now : Nat) : Bool := (t.pulseEnd.any (fun e => decide (now < e))) != t.activeLow

/-- Whether an output stands at its active level. -/
def Dev.trigActive (d : Dev) (i : Nat) : Bool :=
  match (Tab.getD d.ipt.time.trigs i ({} : Trig)).pulseEnd with
  | some e => decide (d.now < e)
  | none => false

end Sys2Proof.Machine
end

