-- ==== Sys2Proof/Machine/Flags.lean ====
section
/-! DEFINITION. Status the device computes from the rest of its state: who owns a pool, which gates of R84 and R113 are closed, the
dirty figures of R221, and the sequence rule of an SC register (R426). -/
namespace Sys2Proof.Machine

/-! ### SC registers (R426) -/

/-- A set number lies at or before a written sequence number where their difference modulo 4,096 is below 2,048. -/
def atOrBefore (n s : Nat) : Bool := decide ((s + 4096 - n % 4096) % 4096 < 2048)

/-- The status register after a write-back of sequence number `s` and mask `m`. -/
def intWriteBack (st : IntState) (s m : Nat) : IntState :=
  { st with set := st.set.filter (fun e => !(tb m e.1 && atOrBefore e.2 s)) }

/-- The value SYS_INT_STAT reads as. -/
def IntState.value (st : IntState) : Nat := st.set.foldl (fun a e => a + 2 ^ e.1) 0 + st.seq * 2 ^ 20

/-! ### Ownership, keys, safety -/

/-- Whether this head owns a pool (ARB_STAT.owned, R266). -/
def Dev.owns (d : Dev) (pool : Nat) : Bool := tb (d.get F.ARB_STAT_owned) pool

/-- The pools this head owns that the image defines. -/
def Dev.ownedPools (d : Dev) : List PoolRec := d.img.pools.filter (fun p => d.owns p.poolId)

/-- The pool of a namespace; 16 (no pool) for a namespace the image does not hold. -/
def Dev.poolOf (d : Dev) (nsid : Nat) : Nat :=
  match d.img.ns? nsid with
  | some n => n.poolId
  | none => 16

/-- What the head keeps of a pool. -/
def Dev.pool (d : Dev) (p : Nat) : Pool := Tab.getD d.fl.pools p {}
/-- The image whose epoch-bound records (R58) a namespace runs under: the active one, or until the namespace's first Cairn closed at or
after the activation point the one its epoch is coded under (R71). [DEDUCED: log 55] -/
def Dev.imgFor (d : Dev) (nsid : Nat) : Image :=
  let g := (Tab.getD d.snp.nss nsid {}).epochGen
  (d.sim.inForce.find? (fun m => m.generation == g && g != d.img.generation && (m.ns? nsid).isSome)).getD d.img

/-- Change what the head keeps of a pool. -/
def Dev.onPool (d : Dev) (p : Nat) (f : Pool → Pool) : Dev := { d with fl := { d.fl with pools := Tab.updD p {} f d.fl.pools } }
/-- A namespace's state. -/
def Dev.ns (d : Dev) (n : Nat) : Ns := Tab.getD d.snp.nss n {}
/-- Change a namespace's state. -/
def Dev.onNs (d : Dev) (n : Nat) (f : Ns → Ns) : Dev := { d with snp := { d.snp with nss := Tab.updD n {} f d.snp.nss } }
/-- A channel's state. -/
def Dev.chan (d : Dev) (c : Nat) : Chan := Tab.getD d.ipt.chans c {}
/-- Change a channel's state. -/
def Dev.onChan (d : Dev) (c : Nat) (f : Chan → Chan) : Dev := { d with ipt := { d.ipt with chans := Tab.updD c {} f d.ipt.chans } }
/-- A window's state. -/
def Dev.win (d : Dev) (w : Nat) : Win := Tab.getD d.net.wins w {}
/-- Change a window's state. -/
def Dev.onWin (d : Dev) (w : Nat) (f : Win → Win) : Dev := { d with net := { d.net with wins := Tab.updD w {} f d.net.wins } }
/-- A queue pair; one that does not exist is in Reset. -/
def Dev.qp (d : Dev) (q : Nat) : Qp := Tab.getD d.net.qps q {}
/-- Change a queue pair. -/
def Dev.onQp (d : Dev) (q : Nat) (f : Qp → Qp) : Dev := { d with net := { d.net with qps := Tab.updD q {} f d.net.qps } }

/-- A root key share is loaded and keys are not zeroized (R203, R204). -/
def Dev.keysUsable (d : Dev) : Bool := d.cip.kRoot.isSome

/-- The safety gate (R84 bit 7): a Wadi drain, recovery from one, a thermal drain or the thermal latch. -/
def Dev.safetyClosed (d : Dev) : Bool :=
  d.pow.drainGate || d.on F.RST_STAT_recovering || d.pow.thermDrain || d.pow.latch

/-- The admission gate of a pool (R84 bit 5): dirty budget reached, capture writes stopped for want of space, or a freeze (R436). -/
def Dev.admissionClosed (d : Dev) (pool : Nat) : Bool :=
  d.stg.budgetReached || (d.pool pool).hostHeld || (d.pool pool).writesHeld || (d.pool pool).readOnly ||
    d.on F.SYS_CFG_STAT_frozen

/-- The keys gate of a namespace (R84 bit 6): sealed, and no key. -/
def Dev.keysClosed (d : Dev) (nsid : Nat) : Bool := (d.ns nsid).codeSeal && !d.keysUsable

/-- The window gate (R84 bit 4): the window is not open, or its queue pair is in Error. -/
def Dev.windowClosed (d : Dev) (w : Nat) : Bool :=
  let x := d.win w
  x.state == .absent || x.state == .revoked || (x.state == .bound && (d.qp x.qpn).state == .error)

/-- Hold bits from named gates. -/
def holdBits (notActive noSlot forced ipclk window admission keys safety : Bool) : Nat :=
  b2n notActive + 2 * b2n noSlot + 4 * b2n forced + 8 * b2n ipclk + 16 * b2n window + 32 * b2n admission + 64 * b2n keys +
    128 * b2n safety

/-- The closed gates of a window, numbered as in R84 (R113). -/
def Dev.winHold (d : Dev) (w : WindowRec) : Nat :=
  holdBits (!d.mode 0 || !d.owns (d.poolOf w.nsid)) false false false (d.windowClosed w.windowId)
    (d.admissionClosed (d.poolOf w.nsid)) (d.keysClosed w.nsid) d.safetyClosed

/-- The closed gates of a channel (R84). -/
def Dev.chanHold (d : Dev) (c : Nat) : Nat :=
  let x := d.chan c
  match d.img.chan? d.headNo c with
  | none => holdBits true (decide (x.slots < Int.ofNat (d.get (F.IPT_CH_CTL_ready_level.at c)))) (d.on (F.IPT_CH_CTL_force_low.at c))
      (!d.on F.IPT_STAT_ipclk_ok) false false false d.safetyClosed
  | some r =>
    let nsid := ((d.img.window? r.windowId).map (·.nsid)).getD 0
    holdBits (x.role != .active || !d.mode 0) (decide (x.slots < Int.ofNat (d.get (F.IPT_CH_CTL_ready_level.at c))))
      (d.on (F.IPT_CH_CTL_force_low.at c)) (!d.on F.IPT_STAT_ipclk_ok) (d.windowClosed r.windowId)
      (d.admissionClosed (d.poolOf nsid)) (d.keysClosed nsid) d.safetyClosed

/-- The level READY of a channel is driven to (R84, R85, R256): high with every gate open; low in L2 and L3, when fenced, and unless
the head is in service. -/
def Dev.readyLevel (d : Dev) (c : Nat) : Bool :=
  d.up && !d.fenced && decide (d.get F.RST_STAT_ps < 2) && d.chanHold c == 0

/-! ### Mirror -/

/-- Mirror is requested. -/
def Dev.mirrorReq (d : Dev) : Bool := d.on F.SYS_MODE_REQ_mirror

/-- The peer is in service and its link carries Mirror traffic (R248, R249). -/
def Dev.peerUp (d : Dev) : Bool :=
  d.on F.HHL_STAT_link_up && d.on F.HHL_STAT_peer_in_service && !d.head.silent && !d.head.lost

/-- The heads' check values differ: both are held and not equal (R203). -/
def Dev.kcvDiffers (d : Dev) (h : Heartbeat) : Bool :=
  let own := d.get F.CIP_KCV_kcv % 2 ^ 32
  own != 0 && h.kcv != 0 && own != h.kcv

/-- The peer's effective Seal equals this head's, and its root key is no other (R41, R203). -/
def Dev.sealAgrees (d : Dev) : Bool := d.head.peerHb.any (fun h => h.sealOn == d.mode 3 && !d.kcvDiffers h)

/-- The peer requests Mirror as its latest heartbeat says (R41, R250). -/
def Dev.peerAsks (d : Dev) : Bool := d.head.peerHb.any (·.mirrorReq)

/-- New writes go to the peer (R40, R41): Mirror requested on both heads, the peer in service with an equal effective Seal and no other
root key. [DEDUCED: log 68] -/
def Dev.mirroring (d : Dev) : Bool := d.mirrorReq && d.peerUp && d.sealAgrees && d.peerAsks

/-- The peer is silent and not yet found lost (R255, policy 1): what waits for its confirmation goes on waiting. [DEDUCED: log 68] -/
def Dev.peerAwaited (d : Dev) : Bool := d.mirrorReq && d.head.silent && !d.head.lost

end Sys2Proof.Machine
end

