-- ==== Sys2Proof/Machine/Instrument.lean ====
section
/-! DEFINITION. Instrument channels: strobes, frame slots, matching, the frame index and histograms (R79 to R93), IPCLK (R85), and
the meanings of the commands of the instrument port and of TIME. -/
namespace Sys2Proof.Machine

/-- A channel's record in the image, for this head. -/
def Dev.chanRec (d : Dev) (c : Nat) : Option InstrChannelRec := (d.img.chan? d.headNo c).filter (fun r => tb r.chFlags 0)

/-- Record kinds of R90. -/
def kArrived : Nat := 1
/-- Kind 2. -/
def kLate : Nat := 2
/-- Kind 3. -/
def kMissing : Nat := 3
/-- Kind 4. -/
def kUnstrobed : Nat := 4
/-- Kind 5. -/
def kDuplicate : Nat := 5
/-- Kind 6. -/
def kGap : Nat := 6

/-- The ring holds 4,194,304 records (R92). -/
def ringCap : Nat := 4194304

/-- Whether the ring takes one more record: room is left, or its oldest record has been copied. -/
def Chan.hasRoom (c : Chan) : Bool := decide (c.ring.length < ringCap) || decide (0 < c.copied)

/-- Put a record into the ring, over the oldest copied one where the ring is full. -/
def Chan.push (c : Chan) (r : FrameRec) : Chan :=
  let r := { r with seq := c.indexSeq }
  let c := { c with indexSeq := (c.indexSeq + 1) % 2 ^ 32 }
  if c.ring.length < ringCap then { c with ring := c.ring ++ [r] }
  else { c with ring := c.ring.drop 1 ++ [r], copied := c.copied - 1 }

/-- The GAP record a channel owes (R88, R91, R92): lowest number missing, and how many, 0xFFFF_FFFF where the device cannot count. It has no
strobe, and strobe_ns is 0. [DESIGN CHOICE: log 116] -/
def Chan.gapRec (c : Chan) (window now quality : Nat) : Option FrameRec :=
  c.owed.map (fun o => { kind := kGap, num := o.1, completeNs := now, size := o.2.getD 0xFFFFFFFF, window := window,
                         stepped := c.stepped, quality := quality })

/-- Write an owed GAP record where there is room for it. -/
def Chan.payGap (c : Chan) (window now quality : Nat) : Chan :=
  match c.gapRec window now quality with
  | some g => if c.hasRoom then { c.push g with owed := none, stepped := false } else c
  | none => c

/-- One more record to write: the GAP owed first, then the record, or one more dropped where the ring is full (R92). -/
def Chan.write (c : Chan) (r : FrameRec) (now : Nat) : Chan :=
  let c := c.payGap r.window now r.quality
  if c.hasRoom && c.owed.isNone then { c.push { r with stepped := c.stepped } with stepped := false }
  else match c.owed with
    | none => { c with owed := some (r.num, some 1) }
    | some (n, k) => { c with owed := some (min n r.num, k.map (· + 1)) }

/-- Which counter counts a record kind (R97). -/
def kindCounter : Nat → Field
  | 1 => F.IPT_CH_arrived
  | 2 => F.IPT_CH_late
  | 3 => F.IPT_CH_missing
  | 4 => F.IPT_CH_unstrobed
  | _ => F.IPT_CH_duplicate

/-- Write the GAP record a channel owes, where there is room for it (R92). -/
def Dev.payGap (d : Dev) (c : Nat) : Dev :=
  let x := d.chan c
  if x.owed.isNone || !x.hasRoom then d
  else (d.onChan c (fun x => x.payGap (((d.chanRec c).map (·.windowId)).getD 0) d.now d.quality)).raise 14

/-- Copy a channel's uncopied records to the flash area, which keeps the newest 2^26 and counts what it discards; a GAP record owed is
written now that there is room (R92). -/
def Dev.copyIndex (d : Dev) (c : Nat) : Dev :=
  let x := d.chan c
  let all := x.flash ++ x.ring.drop x.copied
  let above := all.length - 2 ^ 26
  let d := (d.onChan c (fun x => { x with flash := all.drop above, copied := x.ring.length })).payGap c
  if above = 0 then d else d.bump (F.IPT_CH_flash_discards.at c) above

/-- More than 16 MiB of a channel's records are not yet on flash: they are copied (R409). -/
def Dev.keepIndexSmall (d : Dev) (c : Nat) : Dev :=
  if 2 ^ 19 < (d.chan c).ring.length - (d.chan c).copied then d.copyIndex c else d

/-- Write a frame index record (R90, R91): flags for overrun, size, step and quality, its counter, and SYS_INT_STAT.frames for a
MISSING, UNSTROBED, GAP or overrun record. -/
def Dev.frameRecord (d : Dev) (c kind num strobeNs completeNs size : Nat) (overrun : Bool) : Dev :=
  let frameBytes := ((d.chanRec c).map (·.frameBytes)).getD 0
  let x := d.chan c
  let window := ((d.chanRec c).map (·.windowId)).getD 0
  let r : FrameRec := { kind := kind, num := num, strobeNs := strobeNs, completeNs := completeNs, size := size, window := window,
                        overrun := overrun, sizeDiff := kind != kMissing && kind != kGap && size != frameBytes,
                        stepped := x.stepped, quality := d.quality }
  let dropped := !(x.payGap window d.now d.quality).hasRoom
  let d := (d.onChan c (fun x => x.write r d.now)).keepIndexSmall c
  let d := d.bump ((kindCounter kind).at c)
  let d := if dropped then d.bump (F.IPT_CH_idx_lost.at c) else d
  if kind = kMissing ∨ kind = kUnstrobed ∨ overrun = true ∨ x.owed.isSome then d.raise 14 else d

/-- Add one to a histogram bin, saturating (R93). -/
def Dev.histCount (d : Dev) (f : Field) (c shift interval : Nat) : Dev :=
  d.bumpSat ((f.at c).sub (min (interval / 2 ^ shift) 63)) 1

/-- Remember what was recorded of a frame number, forgetting numbers out of the matching range of R89. -/
def Chan.remember (c : Chan) (num : Nat) (o : FrameSeen) : Chan :=
  let near := c.outcomes.filter (fun e => decide ((e.1 + 2 ^ 32 - c.fnext) % 2 ^ 32 ≤ 2 ^ 20) ||
    decide ((c.fnext + 2 ^ 32 - e.1) % 2 ^ 32 ≤ 2 ^ 20))
  { c with outcomes := Tab.put num o near }

/-- The frame number lies within 2^20 of the channel's next frame number, above or below, modulo 2^32 (R89). -/
def inRange (next num : Nat) : Bool :=
  decide ((num + 2 ^ 32 - next) % 2 ^ 32 ≤ 2 ^ 20) || decide ((next + 2 ^ 32 - num) % 2 ^ 32 ≤ 2 ^ 20)

/-- A slot returns to the counter (R83). -/
def Dev.returnSlot (d : Dev) (c : Nat) : Dev := d.onChan c (fun x => { x with slots := x.slots + 1 })

/-- Whether a write is acknowledged: its record says so, or it has left the table of writes under way. -/
def Dev.writeAcked (d : Dev) (w : Nat) : Bool :=
  match Tab.find? w d.stg.writes with
  | some r => r.acked
  | none => true

/-- The slots of ARRIVED frames return once their last byte is acknowledged (R83): the message that ended the frame is, and every message
before it in the window's order. -/
def Dev.slotsBack (d : Dev) (c : Nat) : Dev :=
  let order : List Nat := match d.chanRec c with
    | some r => (d.win r.windowId).done.map (·.write)
    | none => []
  d.onChan c (fun x =>
    let back := x.toAck.filter (fun t : Nat × Nat => d.writeAcked t.2 && !order.contains t.2)
    { x with slots := x.slots + Int.ofNat back.length, toAck := x.toAck.filter (fun t => !back.contains t) })

/-- A strobe and its completion are matched: ARRIVED (R90), the arrival histogram and completion_first (R93), the slot's return once
the last byte is acknowledged (R83), and the last matched frame to be mirrored (R87). -/
def Dev.arrive (d : Dev) (c : Nat) (s : Strobe) (k : Completion) : Dev :=
  let d := d.frameRecord c kArrived s.num s.stamp k.time k.size s.overrun
  let shift := d.get (F.IPT_CH_HIST_CFG_arrival_shift.at c)
  let d := d.histCount F.IPT_CH_HIST_A_bin c shift (k.time - s.stamp)
  let d := if k.time < s.stamp then d.bump (F.IPT_CH_completion_first.at c) else d
  let d := d.onChan c (fun x => { x.remember s.num { outcome := .arrived, stamp := s.stamp, overrun := s.overrun } with
    mirroredLast := some (s.num, s.stamp), sayLast := true, toAck := x.toAck ++ [(s.num, k.write)] })
  d.slotsBack c

/-- A frame is recorded MISSING, which returns its slot. -/
def Dev.miss (d : Dev) (c : Nat) (s : Strobe) : Dev :=
  let d := d.frameRecord c kMissing s.num s.stamp 0 0 s.overrun
  (d.onChan c (fun x => x.remember s.num { outcome := .missing, stamp := s.stamp, overrun := s.overrun })).returnSlot c

/-- Record the oldest pending strobe MISSING where the store is full (R89). -/
def Dev.roomForStrobe (d : Dev) (c : Nat) : Dev :=
  match (d.chan c).pending with
  | s :: rest => if 65536 ≤ rest.length + 1 then (d.onChan c (fun x => { x with pending := rest })).miss c s else d
  | [] => d

/-- Record the oldest pending completion UNSTROBED where the store is full (R89). -/
def Dev.roomForCompletion (d : Dev) (c : Nat) : Dev :=
  match (d.chan c).waiting with
  | k :: rest =>
    if 4096 ≤ rest.length + 1 then
      (d.onChan c (fun x => { x with waiting := rest })).frameRecord c kUnstrobed k.num 0 k.time k.size false
    else d
  | [] => d

/-- The number the next accepted strobe receives: FNUM_BASE for the first after entry to the active role (R81). [DEDUCED: log 57] -/
def Dev.nextNum (d : Dev) (c : Nat) : Nat := if (d.chan c).fresh then d.get (F.IPT_CH_FNUM_BASE_base.at c) else (d.chan c).fnext

/-- FRAME_MATCH (R89, R90): a completion that carries an immediate meets its strobe, or waits, or is recorded at once. A LATE or DUPLICATE
record of a frame whose strobe is known carries its stamp and its overrun flag (R82, R91). -/
def Dev.matchCompletion (d : Dev) (c : Nat) (k : Completion) : Dev :=
  let x := d.chan c
  if x.role != .active then d
  else if !inRange (d.nextNum c) k.num then d.frameRecord c kUnstrobed k.num 0 k.time k.size false
  else if x.waiting.any (fun w => w.num == k.num) then d.frameRecord c kDuplicate k.num 0 k.time k.size false
  else match x.pending.find? (fun s => s.num == k.num) with
    | some s => (d.onChan c (fun x => { x with pending := x.pending.filter (fun t => t.num != k.num) })).arrive c s k
    | none =>
      match Tab.find? k.num x.outcomes with
      | some s => match s.outcome with
        | .arrived | .late => d.frameRecord c kDuplicate k.num s.stamp k.time k.size s.overrun
        | .missing =>
          (d.frameRecord c kLate k.num s.stamp k.time k.size s.overrun).onChan c (fun x => x.remember k.num { s with outcome := .late })
      | none => (d.roomForCompletion c).onChan c (fun x => { x with waiting := x.waiting ++ [k] })

/-- A strobe of a channel in the active role is numbered, takes a slot and becomes pending, or meets a completion that waits; while
Capture is not in effect it is recorded at once (R39, R81, R82, R87). -/
def Dev.activeStrobe (d : Dev) (c stamp : Nat) : Dev :=
  let x := d.chan c
  let above := decide (x.slots ≤ 0)
  let s : Strobe := { num := d.nextNum c, stamp := stamp, overrun := above }
  let d := d.onChan c (fun x => { x with fresh := false, fnext := (s.num + 1) % 2 ^ 32, slots := x.slots - 1 })
  let d := if above then (d.bump (F.IPT_CH_overrun.at c)).event 4 .strobeOverrun [c, s.num] else d
  match (d.chan c).waiting.find? (fun k => k.num == s.num) with
  | some k => (d.onChan c (fun x => { x with waiting := x.waiting.filter (fun w => w.num != s.num) })).arrive c s k
  | none =>
    if !d.mode 0 then d.miss c s
    else (d.roomForStrobe c).onChan c (fun x => { x with pending := x.pending ++ [s] })

/-- A strobe of a standby channel is numbered and kept in the ring of the last 65,536 (R87): as in the active role, the first one after
entry to the role takes FNUM_BASE. [DESIGN CHOICE: log 116] -/
def Chan.standbyStrobe (x : Chan) (num stamp : Nat) : Chan :=
  let ring := x.standbyRing ++ [{ num := num, stamp := stamp }]
  { x with fresh := false, fnext := (num + 1) % 2 ^ 32, standbyRing := ring.drop (ring.length - 65536) }

/-- STROBE (R79 to R82): the edge is filtered by width and spacing, stamped, and counted in either role; TIME stands at the stamp. A
pulse between 2 and 4 ns is accepted or rejected as an open value says. [DESIGN CHOICE: log 23] -/
def Dev.strobe (d : Dev) (c stamp width : Nat) : Dev :=
  let x := d.chan c
  if x.role == .disabled then d else
  let d := d.reachTime stamp
  let open_ := decide (2 ≤ width) && decide (width < 4)
  let accept := decide (4 ≤ width) || (open_ && d.fresh.1 % 2 == 1)
  let d := if open_ then d.fresh.2 else d
  if !accept then d.bump (F.IPT_CH_glitches.at c)
  else if (match x.prevStrobe with | some p => decide ((stamp : Int) - p < 20) | none => false) then d.bump (F.IPT_CH_too_close.at c)
  else
    let d := d.bump (F.IPT_CH_strobes.at c)
    let d := d.set (F.IPT_CH_LAST_TS_stamp.at c) stamp
    let d := match x.prevStrobe with
      | some p => d.histCount F.IPT_CH_HIST_S_bin c (d.get (F.IPT_CH_HIST_CFG_strobe_shift.at c)) ((stamp : Int) - p).toNat
      | none => d
    let d := d.onChan c (fun x => { x with prevStrobe := some stamp })
    if x.role == .active then d.activeStrobe c stamp else d.onChan c (fun x => x.standbyStrobe (d.nextNum c) stamp)

/-- STROBE_LATE_LIMIT (R90): a strobe that still waits is recorded MISSING. -/
def Dev.strobeLate (d : Dev) (c num : Nat) : Dev :=
  match (d.chan c).pending.find? (fun s => s.num == num) with
  | some s => (d.onChan c (fun x => { x with pending := x.pending.filter (fun t => t.num != num) })).miss c s
  | none => d

/-- COMPLETION_LATE_LIMIT (R90): a completion that still waits is recorded UNSTROBED. -/
def Dev.completionLate (d : Dev) (c num : Nat) : Dev :=
  match (d.chan c).waiting.find? (fun k => k.num == num) with
  | some k =>
    (d.onChan c (fun x => { x with waiting := x.waiting.filter (fun w => w.num != num) })).frameRecord c kUnstrobed num 0 k.time
      k.size false
  | none => d

/-- HIST_CLEAR (R93): both histograms of the channel go to 0. -/
def Dev.histClear (d : Dev) (c : Nat) : Dev :=
  { d with regs := d.regs.filter (fun e =>
      let o := e.1 / 64
      let b := (F.IPT_CH_HIST_S_bin.at c).off
      !(decide (b ≤ o) && decide (o < b + 0x200))) }

/-- SLOT_ADJ_APPLY (R83): the signed amount is added to the slot counter. An adjustment that takes it below zero strobes nothing. -/
def Dev.slotAdj (d : Dev) (c amount : Nat) : Dev :=
  let d := d.set (F.IPT_CH_SLOT_ADJ_amount.at c) amount
  d.onChan c (fun x => { x with slots := signedOf 32 (fieldOfInt 32 (x.slots + signedOf 16 amount)) })

/-- A channel enters the active role (R81, R82, R87): the slot counter loads from the image, numbering starts at FNUM_BASE. [DEDUCED: log 57] -/
def Dev.enterActive (d : Dev) (c : Nat) (slots : Nat) : Dev :=
  d.onChan c (fun x => { x with role := .active, slots := Int.ofNat slots, fresh := true,
                                pending := [], waiting := [], standbyRing := [], toAck := [], outcomes := [] })

/-- The role R87 gives a channel: active on the head that owns the pool of its window's namespace, standby on the other. -/
def Dev.roleOf (d : Dev) (c : Nat) : Role :=
  match d.chanRec c with
  | none => .disabled
  | some r =>
    match d.img.window? r.windowId with
    | none => .standby
    | some w => if d.owns (d.poolOf w.nsid) then .active else .standby

/-- Bring a channel into the role it now has, where that differs. -/
def Dev.settleRole (d : Dev) (c : Nat) : Dev :=
  let x := d.chan c
  let r := d.roleOf c
  if r = x.role then d
  else match r with
    | .active =>
      let d := d.enterActive c (((d.chanRec c).map (·.slots)).getD 0)
      if d.readyLevel c then d else d.bump (F.IPT_CH_ready_low_events.at c)
    | r => d.onChan c (fun x => { x with role := r, pending := [], waiting := [], toAck := [], fresh := true })

/-- Every channel takes its role. -/
def Dev.settleRoles (d : Dev) : Dev := (List.range 8).foldl Dev.settleRole d

/-- READY of a channel takes its level; a fall in the active role begins a low interval (R97 ready_low_events). -/
def Dev.settleReadyOf (d : Dev) (c : Nat) : Dev :=
  let was := d.pins.ready.getD c false
  let is_ := d.readyLevel c
  let d : Dev := { d with pins := { d.pins with ready := d.pins.ready.set c is_ } }
  if was && !is_ && (d.chan c).role == .active then d.bump (F.IPT_CH_ready_low_events.at c) else d

/-- READY of every channel takes its level. -/
def Dev.settleReady (d : Dev) : Dev := (List.range 8).foldl Dev.settleReadyOf d

/-- IPCLK_MEASUREMENT (R85): the window's frequency is shown; outside ±2 % of ipclk_khz the ipclk gate closes. -/
def Dev.ipclkMeasured (d : Dev) (khz : Nat) : Dev :=
  let want := (d.img.timeSrc d.headNo).ipclkKhz
  let d := d.set F.IPT_IPCLK_MEAS_khz khz
  let bad := decide (khz * 100 < want * 98) || decide (want * 102 < khz * 100)
  if bad && d.on F.IPT_STAT_ipclk_ok then (d.set F.IPT_STAT_ipclk_ok 0).event 4 .ipclkBad [khz]
  else if bad then d.set F.IPT_STAT_ipclk_ok 0 else d

/-- IPCLK_STOPPED (R85): the gate closes and the measured frequency reads 0. -/
def Dev.ipclkStopped (d : Dev) : Dev :=
  let d := if d.on F.IPT_STAT_ipclk_ok then d.event 4 .ipclkBad [0] else d
  (d.set F.IPT_STAT_ipclk_ok 0).set F.IPT_IPCLK_MEAS_khz 0

end Sys2Proof.Machine
end

