-- ==== Sys2Proof/Machine/Modes.lean ====
section
/-! DEFINITION. The mode word (R36 to R54): entry conditions and causes of each mode, held requests, transitions, and the step that
brings SYS_MODE and SYS_MODE_STAT to what the rest of the state implies. -/
namespace Sys2Proof.Machine

/-! ### Conditions -/

/-- Sum of Λ − H over the head's bound windows (R115, R116). -/
def Dev.granted (d : Dev) : Nat := (d.net.wins.map (fun e => if e.2.state == .bound then e.2.limit - e.2.horizon else 0)).sum

/-- How many windows are bound. -/
def Dev.boundCount (d : Dev) : Nat := (d.net.wins.filter (fun e => e.2.state == .bound)).length

/-- An own dirty slot has no copy at the peer yet (R40). -/
def Dev.unmirrored (d : Dev) : Bool := d.stg.slots.any (fun e => !e.2.peerOk && !e.2.adopted)

/-- Why Capture is held (R37): 0x05 no window or no channel, 0x06 TIME never locked, 0x0C recovery after a drain. A channel counts only
where its record names this head. [DESIGN CHOICE: log 113] -/
def Dev.captureCause (d : Dev) : Nat :=
  if d.img.window.isEmpty || !(d.img.channel.any (fun r => r.head == d.headNo)) then 0x05
  else if !d.on F.TMB_STAT_ever_locked then 0x06
  else if d.on F.RST_STAT_recovering then 0x0C
  else 0

/-- Why Mirror is held: 0x01 peer, 0x03 Seal differs, 0x02 resynchronization, a peer that does not request it yet, or at entry unmirrored
blocks (R40, R41, R250), 0x0B windows do not fit. [DEDUCED: log 61] -/
def Dev.mirrorCause (d : Dev) : Nat :=
  if d.mode 1 && d.peerAwaited then 0
  else if !d.peerUp then 0x01
  else if !d.sealAgrees then 0x03
  else if !d.peerAsks || d.head.resync || (d.unmirrored && !d.mode 1) then 0x02
  else if decide (14 * 2 ^ 20 < d.granted) || decide (224 < d.boundCount) then 0x0B
  else 0

/-- The owned namespaces that opt in to Reduce (bit 0 of ns_flags, or of st_flags of a stream) or Seal (bit 1 of ns_flags) (R60). -/
def Dev.optedIn (d : Dev) (bit_ : Nat) : List Nat :=
  (d.img.ns.filter (fun n => d.owns n.poolId &&
    (tb n.nsFlags bit_ || (bit_ == 0 && d.img.stream.any (fun s => s.nsid == n.nsid && tb s.stFlags 0))))).map (·.nsid)

/-- The setting a namespace's open epoch is coded under. -/
def Dev.nsCoded (d : Dev) (bit_ n : Nat) : Bool := if bit_ = 0 then (d.ns n).codeReduce else (d.ns n).codeSeal

/-- Whether Reduce (0) or Seal (1) is in effect, and why it is held (R42): entered once every namespace that opts in is coded so;
left once none is. Seal is entered only with keys, after a reset too; in effect, it stays in effect without them (R204). [DEDUCED: log 96] -/
def Dev.codedMode (d : Dev) (bit_ : Nat) (req was : Bool) : Bool × Nat :=
  let l := (d.optedIn bit_).map (d.nsCoded bit_)
  let keys := bit_ == 0 || d.keysUsable
  if !req then (l.any id, 0)
  else if l.all id && (keys || was) then (true, 0)
  else (false, if keys then 0x0A else 0x04)

/-- A stripe of an owned pool stands below its redundancy, or is being restored. [DEDUCED: log 31] -/
def Dev.belowRedundancy (d : Dev) : Bool :=
  d.fl.pools.any (fun e => d.owns e.1 && e.2.stripes.any (fun s => s.2.state == .degraded))

/-- A pool is reshaping, and not yet switched over. -/
def Dev.reshaping (d : Dev) : Bool := d.fl.pools.any (fun e => d.owns e.1 && e.2.reshape.isSome)

/-- A Caravan is under way to a target. -/
def Dev.shipping (d : Dev) : Bool := d.snp.cars.any (fun e => e.2.state != .idle && e.2.state != .refused)

/-- Retained Cairns of the array, the bases of Caravans in progress among them (R43). -/
def Dev.anyRetained (d : Dev) : Bool := d.snp.nss.any (fun e => !e.2.retained.isEmpty) || !d.head.store.retained.isEmpty

/-- A mode in effect and, where it is requested and not in effect, the cause that holds it. -/
def Dev.judge (d : Dev) (m : Nat) : Bool × Nat :=
  match m with
  | 0 => if d.on F.SYS_MODE_REQ_capture then (d.captureCause == 0, d.captureCause) else (false, 0)
  | 1 => if d.mirrorReq then (d.mirrorCause == 0, d.mirrorCause) else (false, 0)
  | 2 => d.codedMode 0 (d.on F.SYS_MODE_REQ_reduce) (d.mode 2)
  | 3 => d.codedMode 1 (d.on F.SYS_MODE_REQ_seal) (d.mode 3)
  | 4 => (d.anyRetained, 0)
  | 5 =>
    if d.on F.SYS_MODE_REQ_replicate then (!d.img.replTarget.isEmpty, if d.img.replTarget.isEmpty then 0x07 else 0)
    else (d.mode 5 && d.shipping, 0)
  | 6 => (d.belowRedundancy, 0)
  | _ =>
    if d.reshaping then (true, 0)
    else if d.on F.SYS_MODE_REQ_reshape && d.img.target.isEmpty then (false, 0x08) else (false, 0)

/-- Whether a mode is requested. -/
def Dev.requested (d : Dev) (m : Nat) : Bool :=
  match m with
  | 0 => d.on F.SYS_MODE_REQ_capture
  | 1 => d.mirrorReq
  | 2 => d.on F.SYS_MODE_REQ_reduce
  | 3 => d.on F.SYS_MODE_REQ_seal
  | 5 => d.on F.SYS_MODE_REQ_replicate
  | 7 => d.on F.SYS_MODE_REQ_reshape
  | _ => false

/-- Whether the device itself is carrying out a change of a mode (R52). -/
def Dev.inTransition (d : Dev) (m : Nat) : Bool :=
  let j := d.judge m
  match m with
  | 1 => d.mirrorReq && j.2 == 0x02
  | 2 | 3 => (d.requested m && j.2 == 0x0A) || (!d.requested m && j.1)
  | 5 => j.1 && !d.requested 5
  | 7 => j.1
  | _ => false

/-! ### The step -/

/-- Note what holds a mode, with an event and SYS_INT_STAT.mode_held where the hold or its cause is new (R38). -/
def Dev.holdMode (d : Dev) (m cause : Nat) : Dev :=
  if Tab.find? m d.modes.held = some cause then d else
  let d : Dev := { d with modes := { d.modes with held := Tab.put m cause d.modes.held } }
  (((d.set F.SYS_MODE_STAT_cause cause).set F.SYS_MODE_STAT_cause_mode m).event 0 .modeHeld [m, cause]).raise 2

/-- A mode is no longer held. -/
def Dev.unholdMode (d : Dev) (m : Nat) : Dev := { d with modes := { d.modes with held := Tab.del m d.modes.held } }

/-- Stripes of the reshape set not yet copied, in order. -/
def Pool.toCopy (p : Pool) (r : Reshape) : List (Nat × Stripe) :=
  List.filter (fun (e : Nat × Stripe) => (e.2.state == .healthy || e.2.state == .degraded) && r.set.contains e.1 &&
    decide (r.position < e.2.seq)) p.stripes

/-- The copy of a reshape is complete (R292). -/
def Pool.reshapeCopied (p : Pool) : Bool := match p.reshape with
  | some r => (p.toCopy r).isEmpty && !p.copies.any (fun c => c.2.layout == 1)
  | none => false

/-- The phase of a pool's reshape (R46): 1 copying, 2 held by Rebuild, 3 once the copy is complete and the pool waits for or is in
switch-over; 0 where it does not reshape. -/
def Pool.reshapePhase (p : Pool) : Nat := match p.reshape with
  | none => 0
  | some r => if p.reshapeCopied then 3 else if r.held then 2 else 1

/-- The phases of the owned pools' reshapes. -/
def Dev.reshapePhases (d : Dev) : List Nat := d.fl.pools.filterMap (fun e => if d.owns e.1 then some e.2.reshapePhase else none)

/-- The highest-numbered phase of any reshaping pool (R46). -/
def Dev.reshapePhase (d : Dev) : Nat := d.reshapePhases.foldl max 0

/-- Bring one mode to what the conditions say; a reshape held by Rebuild notes cause 0x09; of a mode neither requested nor in effect no time
without progress is kept (R47). [DEDUCED: log 31] -/
def Dev.settleMode (d : Dev) (m : Nat) : Dev :=
  let j := d.judge m
  let was := d.mode m
  let d := d.setB (modeField m) j.1
  let d := if was != j.1 then (d.raise 1).trace 2 0 0 [m, b2n j.1] else d
  let d : Dev := if j.1 || d.requested m then d else { d with modes := { d.modes with idle := Tab.del m d.modes.idle } }
  if m = 7 ∧ d.reshapePhases.contains 2 then d.holdMode 7 0x09
  else if d.requested m && !j.1 && j.2 != 0 then d.holdMode m j.2 else d.unholdMode m

/-- Rebuild of stripes that keep some redundancy is paused (R45). -/
def Dev.rebuildPaused (d : Dev) : Bool := d.mode 6 && d.on F.SYS_MODE_CTL_rbld_pause

/-- Mask of the modes for which a condition holds. -/
def modeMask (p : Nat → Bool) : Nat := ((List.range 8).map (fun m => if p m then 2 ^ m else 0)).sum

/-- A reshape request with nothing to reshape completes at once (R46): the target of every owned pool equals its geometry. -/
def Dev.reshapeNothing (d : Dev) : Bool :=
  d.on F.SYS_MODE_REQ_reshape && !d.img.target.isEmpty && !d.reshaping &&
    (d.img.target.filter (fun t => d.owns t.poolId)).all (fun t => let p := d.pool t.poolId; p.data == t.dataMembers && p.parity == t.parityMembers)

/-- The device clears the reshape request; the class-C change is its own (R433). -/
def Dev.clearReshapeReq (d : Dev) : Dev := d.setC F.SYS_MODE_REQ_reshape 0

/-- Every mode is brought to what the conditions say, with pending, trans, rbld_paused and reshape_phase (R37, R38, R52). -/
def Dev.settleModes (d : Dev) : Dev :=
  let d := if d.reshapeNothing then d.clearReshapeReq else d
  let d := (List.range 8).foldl Dev.settleMode d
  let d := d.set F.SYS_MODE_STAT_pending (modeMask (fun m => d.requested m && !d.mode m))
  let d := d.set F.SYS_MODE_trans (modeMask d.inTransition)
  let d := d.setB F.SYS_MODE_STAT_rbld_paused d.rebuildPaused
  d.set F.SYS_MODE_STAT_reshape_phase d.reshapePhase

end Sys2Proof.Machine
end

