-- ==== Sys2Proof/Machine/Link.lean ====
section
/-! DEFINITION. Sending to the other agents: packets on the Pengenko link (R245), messages to the arbiter (R252), descriptors to a
bridge (R325, R326). -/
namespace Sys2Proof.Machine

/-- Class of a Pengenko packet (R245): 0 control, 1 mirror, 2 journal, 3 state. -/
def PeerOut.cls : PeerOut → Nat
  | .slot _ => 1
  | .journalOpen _ | .journalClose _ _ | .delta _ => 2
  | .qp _ | .window _ | .cairn _ | .holders _ | .retained _ | .caravan _ | .reshape _ _ | .lastMatched _ _ _ | .fwu _ => 3
  | _ => 0

/-- Type of a packet within its class, `arg` and the payload of those with a fixed layout (R245); the payloads of journal packets and of state
packets of types 0 to 7 are firmware records, whose layout the spec leaves to the firmware. The octets of an image (R74) take more packets
than one. -/
def PeerOut.wire : PeerOut → Nat × Nat × Option Bytes
  | .heartbeat h => (0, 0, some (leBytes 8 h.term ++ leBytes 8 h.generation ++ leBytes 2 h.pools ++
      leBytes 2 (b2n h.mirrorReq + 2 * b2n h.sealOn + 4 * b2n h.resync) ++ leBytes 4 h.kcv))
  | .nak l => (1, l, some [])
  | .confirm u => (2, u, some [])
  | .digest g x _ => (3, g, some x)
  | .echo n x => (4, n, some x)
  | .slot s => (0, 1024 * s.off, some s.image)
  | .fwu f => (8, 0, some ([b8 f.state, b8 f.result, b8 f.slot, 0] ++ leBytes 4 f.version))
  | .journalOpen r => (0, r.seq, none)
  | .journalClose _ seq => (1, seq, none)
  | .delta x => (2, x.stripeSeq, none)
  | .qp q => (0, q.qpn, none)
  | .window w => (1, w.window, none)
  | .cairn c => (2, c.nsid, none)
  | .holders l => (3, (l.head?.map (·.nsid)).getD 0, none)
  | .retained _ => (4, 0, none)
  | .caravan c => (5, c.target, none)
  | .reshape p _ => (6, p, none)
  | .lastMatched ch _ _ => (7, ch, none)
  | .image g _ => (3, g, none)
  | .replay _ | .linkReset => (0, 0, none)

/-- The octets of a packet with a fixed layout (R245): header, payload, CRC-32C over both; `ack` is the highest link sequence received in
order, where a packet has been received. -/
def PeerOut.octets (p : PeerOut) (lseq cseq : Nat) (ack : Option Nat) : Option Bytes :=
  p.wire.2.2.map (fun payload =>
    let b := [b8 (p.cls + 16 * p.wire.1), b8 (b2n ack.isSome)] ++ leBytes 2 payload.length ++ leBytes 4 lseq ++ leBytes 4 (ack.getD 0) ++
      leBytes 4 cseq ++ leBytes 8 p.wire.2.1 ++ payload
    b ++ leBytes 4 (crc32c b))

/-- The 48 octets of an arbiter message, big-endian (R252). -/
def arbOctets (m : ArbMsg) : Bytes :=
  beBytes 2 0x4D41 ++ [1, b8 m.typ, b8 m.head, b8 (b2n m.handback + 2 * b2n m.fenced + 4 * b2n m.mirror + 8 * b2n m.silent)] ++
    beBytes 2 m.reason ++ beBytes 8 m.arrayId ++ beBytes 8 m.term ++ beBytes 4 m.seq ++ beBytes 4 m.ackSeq ++ beBytes 2 m.pools ++ zeros 6 ++
    beBytes 8 m.timeNs

/-- Change the head's link and arbiter state. -/
def Dev.onHead (d : Dev) (f : HeadState → HeadState) : Dev := { d with head := f d.head }

/-- Send a packet to the peer, where the link is up; a fenced head passes control packets only (R256). Link sequence and class sequence each rise by one. -/
def Dev.peerSend (d : Dev) (p : PeerOut) : Dev :=
  if !d.on F.HHL_STAT_link_up || (d.fenced && p.cls != 0) then d else
  let l := (d.head.txLseq + 1) % 2 ^ 32
  let c := (Tab.getD d.head.txCseq p.cls 0 + 1) % 2 ^ 32
  let d := d.onHead (fun h => { h with txLseq := l, txCseq := Tab.put p.cls c h.txCseq })
  let d := (d.bump F.HHL_tx_packets).emit (.peer l c p (p.octets l c (if d.head.heard.isSome then some d.head.rxLseq else none)))
  match p with
  | .slot s => d.bump F.HHL_mirror_bytes s.image.length
  | _ => d

/-- Send mirrored state (R249): only while new writes are mirrored. -/
def Dev.mirrorState (d : Dev) (p : PeerOut) : Dev := if d.mirroring then d.peerSend p else d

/-- The bits of the pools this head owns. -/
def Dev.ownedMask (d : Dev) : Nat := d.get F.ARB_STAT_owned

/-- Send a message to the arbiter (R252): the header's fields are the head's present ones, and seq rises by one per message. -/
def Dev.arbSend (d : Dev) (typ : Nat) (handback : Bool := false) (reason : Nat := 0) (ackSeq : Nat := 0) : Dev :=
  let d := d.onHead (fun h => { h with arbSeq := (h.arbSeq + 1) % 2 ^ 32 })
  let m : ArbMsg := { typ := typ, head := d.headNo, handback := handback, fenced := d.fenced, mirror := d.mode 1, silent := d.head.silent,
                      reason := reason, arrayId := d.img.arrayId, term := d.head.term, seq := d.head.arbSeq, ackSeq := ackSeq,
                      pools := d.ownedMask, timeNs := d.now }
  d.emit (.arb m (arbOctets m))

/-- Change a lane. -/
def Dev.onLane (d : Dev) (l : Nat) (f : Lane → Lane) : Dev := { d with fl := { d.fl with lanes := Tab.updD l {} f d.fl.lanes } }
/-- A lane. -/
def Dev.lane (d : Dev) (l : Nat) : Lane := Tab.getD d.fl.lanes l {}
/-- A die behind a lane. -/
def Dev.die (d : Dev) (l i : Nat) : DieState := Tab.getD (d.lane l).dies i {}
/-- Change a die behind a lane. -/
def Dev.onDie (d : Dev) (l i : Nat) (f : DieState → DieState) : Dev :=
  d.onLane l (fun x => { x with dies := Tab.updD i {} f x.dies })

/-- The lane of this head that leads to a module, where the image's lane map enables one. -/
def Dev.laneOf (d : Dev) (module : Nat) : Option Nat :=
  match d.img.lanes? d.headNo with
  | none => none
  | some m => ((m.entries.find? (fun e => e.module == module && tb e.laneFlags 0)).map (·.lane))

/-- The counter of FLX_Ln that counts a command (R355). -/
def opCounter : BOp → Option Field
  | .read => some F.FLX_L_reads
  | .program => some F.FLX_L_programs
  | .erase => some F.FLX_L_erases
  | .suspend => some F.FLX_L_suspends
  | _ => none

/-- A frame goes out on a lane (R318, R322): it takes the next sequence number and is kept for replay, the last 256 at most. A command fills
as many frames of 31 transaction flits as it needs (R317). [DEDUCED: log 59] -/
def Dev.frameOut (d : Dev) (lane : Nat) : Dev :=
  (d.onLane lane (fun x => { x with txFseq := (x.txFseq + 1) % 65536,
                                    unacked := (x.unacked ++ [x.txFseq]).drop (x.unacked.length - 255) })).bump (F.FLX_L_frames_tx.at lane)

/-- A lane carries commands. -/
def Lane.active (l : Lane) : Bool := l.state == .active4 || l.state == .active2

/-- Data credits that a command takes: the data of a program, rounded up to 1 KiB units (R324). [DEDUCED: log 59] -/
def dataUnits (op : BOp) (data : Bytes) : Nat := if op = .program then (data.length + 1023) / 1024 else 0

/-- A lane is active and holds the credits that a command takes (R320, R324). [DEDUCED: log 59] -/
def Lane.canSend (x : Lane) (op : BOp) (data : Bytes) : Bool :=
  x.active && decide (0 < x.cmdCredits) && decide (dataUnits op data ≤ x.dataCredits)

/-- Threshold slot of a command (R325): a read takes slot 0 at the start offsets, slots 1 to 7 at ladder entries 1 to 7, and slot 7 at
later entries, in the soft read and at the margin offsets (R336, R341, R343); SET_THRESH names its slot. [DEDUCED: log 101] -/
def thrSlot (c : BCmd) : Nat :=
  if c.op = .setThresh then c.page else if c.op ≠ .read then 0 else if c.margin then 7 else min 7 c.depth

/-- A bridge's opcode (R326). -/
def bridgeOp : BOp → Nat
  | .read => 1 | .program => 2 | .erase => 3 | .suspend => 4 | .resume => 5 | .status => 6 | .resetDie => 7 | .setThresh => 8
  | .setTrim => 9 | .claim => 10 | .bridgeStatus => 11 | .loopback => 12

/-- A soft read (R341 step d): one past the ladder's entries. -/
def softRead (c : BCmd) : Bool := c.op == .read && decide (16 < c.depth)

/-- A command's descriptor (R325): the blocks of its planes in plane order, from the first entry on; block 0 in SLC mode (R344); of a read the whole page or
the range it asks for; the offsets, trims, mask and term that SET_THRESH, SET_TRIM and CLAIM carry in the descriptor itself.
[DESIGN CHOICE: log 27] -/
def bridgeDesc (pageKib tag : Nat) (c : BCmd) (data : Bytes) : Bytes :=
  let onPage := c.op == .read || c.op == .program || c.op == .erase
  let flags := b2n (onPage && c.block == 0) + 2 * b2n (softRead c) + 4 * b2n (c.op == .read && c.use == .selfTest)
  let kib := if c.kib = 0 then pageKib else c.kib
  let rest : Bytes := match c.op with
    | .read => leBytes 1 (4 * thrSlot c) ++ leBytes 2 c.page ++ leBytes 2 c.block ++ zeros 6 ++ leBytes 1 (kib - 1) ++ leBytes 1 c.col
    | .program => leBytes 1 c.mates.length ++ leBytes 2 c.page ++ sliceZ ((c.block :: c.mates.map (·.1)).flatMap (leBytes 2)) 0 8 ++
        leBytes 1 (pageKib - 1)
    | .erase => zeros 3 ++ leBytes 2 c.block
    | .setThresh => leBytes 1 c.page ++ zeros 10 ++ sliceZ data 0 15
    | .setTrim => zeros 3 ++ sliceZ data 0 24
    | .claim => zeros 3 ++ sliceZ data 0 16
    | .loopback => leBytes 1 ((data.length + 31) / 32)
    | _ => []
  sliceZ (leBytes 1 (bridgeOp c.op) ++ leBytes 1 flags ++ leBytes 2 tag ++ leBytes 1 (if c.op = .claim then 0 else c.die) ++ rest) 0 32

/-- The data that follow a command's descriptor (R324, R326). -/
def bridgeData (op : BOp) (data : Bytes) : Bytes := if op = .program ∨ op = .loopback then data else []

/-- The frames of a command with its data. -/
def Dev.framesOut (d : Dev) (lane : Nat) (data : Bytes) : Dev :=
  (List.range (((data.length + 31) / 32) / 31 + 1)).foldl (fun (d : Dev) _ => d.frameOut lane) d

/-- A command goes to a lane's bridge (R324, R325): it takes the next tag and its credits, waits for its response, and is counted and
traced. -/
def Dev.bridgeIssue (d : Dev) (lane : Nat) (c : BCmd) (data : Bytes) : Dev :=
  let tag := (d.lane lane).nextTag
  let d := d.onLane lane (fun x => { x with cmds := x.cmds ++ [{ c with tag := tag, data := data }],
                                            nextTag := (x.nextTag + 1) % 4096,
                                            cmdCredits := x.cmdCredits - 1,
                                            dataCredits := x.dataCredits - dataUnits c.op data })
  let d := match opCounter c.op with
    | some f => d.bump (f.at lane)
    | none => d
  ((d.trace 5 16 lane [tag]).framesOut lane (bridgeData c.op data)).emit
    (.bridge lane tag c.op c.die c.block c.page (bridgeDesc (d.get (F.FLX_L_STAT_page_kib.at lane)) tag c data) (bridgeData c.op data))

/-- Issue a command to a lane's bridge, at once or once the lane holds a credit for it (R324). -/
def Dev.bridgeSend (d : Dev) (lane : Nat) (c : BCmd) (data : Bytes := []) : Dev :=
  let x := d.lane lane
  if x.held.isEmpty && x.canSend c.op data then d.bridgeIssue lane c data
  else d.onLane lane (fun x => { x with held := x.held ++ [{ c with data := data }] })

/-- Credits have come: commands that waited for one go out in order. -/
def heldGo (lane : Nat) : Nat → Dev → Dev
  | 0, d => d
  | n + 1, d => match (d.lane lane).held with
    | [] => d
    | c :: t =>
      if (d.lane lane).canSend c.op c.data then
        heldGo lane n ((d.onLane lane (fun x => { x with held := t })).bridgeIssue lane c c.data)
      else d

end Sys2Proof.Machine
end

