-- ==== Sys2Proof/Machine/Keys.lean ====
section
/-! DEFINITION. Root key, share, derived keys (R201 to R206), sealing and opening slots (R207, R208), alarms and zeroization (R215,
R216). -/
namespace Sys2Proof.Machine

/-- The octets of an ASCII string. -/
def asc (s : String) : Bytes := s.toList.map (fun c => b8 c.toNat)

/-- The KDF of R205: `bits_` bits from a key, a purpose and a context. -/
def kdf (ki : Bytes) (purpose : String) (ctx : Bytes) (bits_ : Nat) : Bytes :=
  kdfCtr ki (fun i => beBytes 4 i ++ asc purpose ++ [0] ++ ctx ++ beBytes 4 bits_) (bits_ / 8)

/-- The check value of a root key or a replication master (R203). [DEDUCED: log 26] -/
def checkValue (k : Bytes) : Nat := leNat (kdf k "MSL-KCV" [] 64)

/-- A key label's record. -/
def Dev.label (d : Dev) (l : Nat) : KeyLabelRec := (d.img.label? l).getD {}

/-- Key size of a label in bits: key_bits 0 is AES-128, 1 AES-256 (R60). -/
def KeyLabelRec.bitsOf (l : KeyLabelRec) : Nat := if l.keyBits = 0 then 128 else 256
/-- The data key of a label (MSL-DATA). -/
def dataKey (root : Bytes) (l : KeyLabelRec) : Bytes := kdf root "MSL-DATA" l.label l.bitsOf
/-- The nonce key of a label (MSL-NONCE). -/
def nonceKey (root : Bytes) (l : KeyLabelRec) : Bytes := kdf root "MSL-NONCE" l.label 256

/-- The octets of a slot descriptor (R174). -/
def descBytes (x : Desc) : Bytes :=
  leBytes 4 x.crc ++ leBytes 1 x.ctl ++ leBytes 1 x.codecVer ++ leBytes 2 x.keyLabel ++ sliceZ x.tag 0 8

/-- The nonce input of a reduced block (R207). -/
def nonceInReduced (fp : Bytes) (x : Desc) : Bytes := [b8 1] ++ fp ++ leBytes 1 x.ctl ++ leBytes 1 x.codecVer
/-- The nonce input of any other block (R207). -/
def nonceInPlain (nsid lba : Nat) (w : WriteId) (x : Desc) : Bytes :=
  [b8 2] ++ leBytes 2 nsid ++ leBytes 8 lba ++ leBytes 2 w.stream ++ leBytes 8 w.seq ++ leBytes 4 w.block ++ leBytes 1 x.ctl ++
    leBytes 1 x.codecVer

/-- Seal a slot (R207): ciphertext of the whole slot, tag of 64 bits in the descriptor; descriptor bytes 0 to 7 are authenticated. -/
def sealSlot (root : Bytes) (l : KeyLabelRec) (nonceIn : Bytes) (x : Desc) (slot : Bytes) : Desc × Bytes :=
  let nonce := (cmac (nonceKey root l) nonceIn).take 12
  let r := gcmEnc (dataKey root l) nonce ((descBytes x).take 8) slot
  ({ x with tag := r.2.take 8 }, r.1)

/-- The recorded check value (R203): that of an owned pool's metadata, else that of the first share since power-on. [DEDUCED: log 107] -/
def Dev.recordedKcv (d : Dev) : Option Nat :=
  match (d.fl.pools.filter (fun e => d.owns e.1)).findSome? (fun e => e.2.kcv) with
  | some k => some k
  | none => d.cip.recordedKcv

/-- An enabled TAMPER input is active (R203, R215). -/
def Dev.tamperActive (d : Dev) : Bool :=
  (List.range 4).any (fun i => tb (d.get F.CIP_TAMPER_CFG_enable) i &&
    (d.pins.tamper.getD i true == tb (d.get F.CIP_TAMPER_CFG_active_high) i))

/-- TAMPERn at its active level, for every input (CIP_STAT.tamper_active). -/
def Dev.tamperLevels (d : Dev) : Nat :=
  ((List.range 4).map (fun i =>
    if d.pins.tamper.getD i true == tb (d.get F.CIP_TAMPER_CFG_active_high) i then 2 ^ i else 0)).sum

/-- Change the cipher engine. -/
def Dev.onCip (d : Dev) (f : CipState → CipState) : Dev := { d with cip := f d.cip }

/-- A share delivery begins (R202): where one is under way it is ignored, counted and recorded. -/
def Dev.shareBegin (d : Dev) : Dev :=
  if d.cip.loading then (d.bump F.CIP_share_refusals).event 10 .shareRefused [6]
  else (d.onCip (fun c => { c with loading := true })).set F.CIP_SHARE_RES_result 6

/-- Why a delivered share is refused (R203), as CIP_SHARE_RES codes it; 0 where it is accepted. [DEDUCED: log 26] -/
def shareFault (kFuse : Option Bytes) (tamper fault : Bool) (recorded : Option Nat) (data : Bytes) : Nat :=
  match kFuse with
  | none => 7
  | some kf =>
    if !fault && (sliceZ data 0 32).all (fun b => b == 0) then 5
    else if tamper then 3
    else if fault then 4
    else match recorded with
      | some r => if checkValue (xorBytes kf (sliceZ data 0 32)) = r then 0 else 2
      | none => 0

/-- A share is accepted: keys loaded, check values shown and recorded (R203). -/
def Dev.shareAccept (d : Dev) (kf data : Bytes) : Dev :=
  let s := sliceZ data 0 32
  let m := sliceZ data 32 32
  let root := xorBytes kf s
  let repl := !(m.all (fun b => b == 0))
  let kcv := checkValue root
  let d := d.onCip (fun c => { c with kRoot := some root, share := s, master := if repl then some m else none, cache := [],
                                      loading := false, recordedKcv := some (c.recordedKcv.getD kcv),
                                      recordedRkcv := some (c.recordedRkcv.getD (checkValue m)) })
  let d := (((d.set F.CIP_SHARE_RES_result 1).set F.CIP_STAT_keys_loaded 1).set F.CIP_STAT_zeroized 0).setB
    F.CIP_STAT_repl_loaded repl
  let d := if repl then d else d.event 10 .masterZero
  ((((d.set F.CIP_KCV_kcv kcv).set F.CIP_RKCV_kcv (checkValue m)).bump F.CIP_share_loads).event 10 .shareLoaded).raise 8

/-- SHARE_LOAD_DONE (R203): the delivered share is checked, then accepted or refused; the internal copy does not remain. -/
def Dev.shareDone (fu : Fuses) (d : Dev) (data : Bytes) (fault : Bool) : Dev :=
  if !d.cip.loading then d else
    let r := shareFault fu.kFuse d.tamperActive fault d.recordedKcv data
    if r = 0 then d.shareAccept (fu.kFuse.getD []) data
    else (((d.onCip (fun c => { c with loading := false })).set F.CIP_SHARE_RES_result r).bump F.CIP_share_refusals).event 10
      .shareRefused [r]

/-- Zeroization (R215): every key, share and cipher context goes to 0; zeroized is set and keys_loaded cleared; a load under way
ends with result 8 (R203); so do the cipher jobs fetched by then (R214). The recorded check value stays. -/
def Dev.zeroize (d : Dev) (alarm : Nat) : Dev :=
  let loading := d.cip.loading
  let d := d.onCip (fun c => { c with
    kRoot := none, share := [], master := none, cache := [], loading := false, ctxs := [], carKeys := [], landKeys := []
    rings := c.rings.map (fun e => (e.1, { e.2 with zeroized := e.2.fetched })) })
  let d := if loading then d.set F.CIP_SHARE_RES_result 8 else d
  let d := (((d.set F.CIP_STAT_keys_loaded 0).set F.CIP_STAT_zeroized 1).set F.CIP_STAT_repl_loaded 0).set
    F.CIP_STAT_last_alarm alarm
  ((d.bump F.CIP_zeroizations).event 10 .zeroized [alarm]).raise 8

/-- TAMPER_ALARM (R215): an enabled input at its active level zeroizes, alarm cause 1 to 4. -/
def Dev.tamperAlarm (d : Dev) (i : Nat) : Dev :=
  let lvl := tb (d.get F.CIP_TAMPER_CFG_active_high) i
  let d : Dev := { d with pins := { d.pins with tamper := d.pins.tamper.set i lvl } }
  let d := d.set F.CIP_STAT_tamper_active d.tamperLevels
  if tb (d.get F.CIP_TAMPER_CFG_enable) i then d.zeroize (i + 1) else d

/-- TAMPER_INPUT_CHANGE (R203): the input's level is shown in tamper_active. -/
def Dev.tamperChange (d : Dev) (i : Nat) (level : Bool) : Dev :=
  let d : Dev := { d with pins := { d.pins with tamper := d.pins.tamper.set i level } }
  d.set F.CIP_STAT_tamper_active d.tamperLevels

end Sys2Proof.Machine
end

