-- ==== Sys2Proof/Machine/Codec.lean ====
section
/-! DEFINITION. The codec units (R170, R171, R175, R190): what they may write, and how a slot is opened again: tag, stream, padding,
check value (R24, R207, R208). -/
namespace Sys2Proof.Machine

/-! ### What a codec unit writes -/

/-- The code of an octet in a fixed-Huffman block (RFC 1951), first bit first. -/
def fixedCode (b : Nat) : List Bool :=
  if b < 144 then (List.range 8).map (fun i => tb (0x30 + b) (7 - i)) else (List.range 9).map (fun i => tb (0x190 + (b - 144)) (8 - i))

/-- One fixed-Huffman block of literals: the coding every codec unit can fall back on. -/
def literalBlock (piece : Bytes) (last : Bool) : List Bool :=
  [last, true, false] ++ piece.flatMap (fun b => fixedCode b.toNat) ++ List.replicate 7 false

/-- A run of the decoder at a block's header, with nothing put out yet. -/
def infStart (l : List Bool) : InfRun := { st := { phase := 1 }, left := l, used := 0, out := [], n := 0 }

/-- Steps that are enough for the decoder over so many bits and octets of output. -/
def infFuel (nbits out : Nat) : Nat := 2 * nbits + 2 * out + 8

/-- Octets are a raw DEFLATE stream of a content: it ends in a block with BFINAL, in its last octet, and decodes to exactly that. -/
def codesBlock (z plain : Bytes) : Bool :=
  let l := bitsOf z
  let r := infLoop [] (plain.length + 1) 0 (infFuel l.length plain.length) (infStart l)
  r.2 == .done && r.1.out.reverse == plain && decide ((r.1.used + 7) / 8 = z.length)

/-- Bits are one closed DEFLATE block of a piece of a stream, after a history (R190). A stored block's length is padded from the place
`start` within an octet at which the block begins. -/
def codesPiece (history piece : Bytes) (last : Bool) (start : Nat) (l : List Bool) : Bool :=
  match infBlock (infStart l) start with
  | .ok s rest =>
    let r := infLoop history (piece.length + 1) start (infFuel l.length piece.length)
      { (infStart l).take rest s with st := { s with last := true } }
    s.last == last && r.2 == .done && r.1.out.reverse == piece && r.1.left.isEmpty
  | _ => false

/-- The compressed stream of a block (R171): what the codec version writes at an effort, an RFC 1951 stream of the block.
[DESIGN CHOICE: log 18] -/
def compressBlock (ver effort : Nat) (plain : Bytes) : Bytes :=
  let z := Config.deflate ver effort plain
  if codesBlock z plain then z
  else
    let l := literalBlock plain true
    let l := l ++ List.replicate ((8 - l.length % 8) % 8) false
    (packBits (l.length / 8) l).1

/-- The DEFLATE block of a piece of a stream (R190). [DESIGN CHOICE: log 18] -/
def compressPiece (ver effort : Nat) (history piece : Bytes) (last : Bool) (start : Nat) : List Bool :=
  let l := Config.deflateBits ver effort history piece last
  if codesPiece history piece last start l then l else literalBlock piece last

/-! ### How a slot is opened -/

/-- Why a slot as read is a read error (R24, R175, R208): its tag, its stream, its check value. -/
inductive SlotFault where
  | tag | decode | crc
  deriving DecidableEq, Repr

/-- A codec version the running firmware knows (R175): its own, and others as it may. [DESIGN CHOICE: log 18] -/
def Dev.knowsCodec (d : Dev) (ver : Nat) : Bool :=
  let major := d.get F.SYS_FW_major
  ver == (Config.codecVersion major).toNat || Config.codecKnown major ver

/-- Decode the octets of a slot of class 1 to 3 (R175): 4,096 octets, the stream ending within the slot, zeros after it. -/
def decodeSlot (slot : Bytes) : Option Bytes :=
  let l := bitsOf slot
  let r := infLoop [] 4096 0 (infFuel l.length 4096) (infStart l)
  if r.2 == .done && r.1.n == 4096 && (slot.drop ((r.1.used + 7) / 8)).all (· == 0) then some r.1.out.reverse else none

/-- Decrypt a sealed slot and check its tag (R207, R208). -/
def Dev.unsealSlot (d : Dev) (x : StripeSlot) (image : Bytes) : Option Bytes :=
  match d.cip.kRoot with
  | none => none
  | some root =>
    let l := d.label x.desc.keyLabel
    let nin := match x.fp with
      | some f => nonceInReduced f x.desc
      | none => nonceInPlain x.nsid x.lba x.wid x.desc
    let nonce := (cmac (nonceKey root l) nin).take 12
    let key := dataKey root l
    let aad := (descBytes x.desc).take 8
    if (gcmTag key nonce aad image).take 8 = sliceZ x.desc.tag 0 8 then some (gcmEnc key nonce aad image).1 else none

/-- The block in the octets of a slot as read: decrypted where it is sealed, decompressed where its class is below 4, and checked against
the CRC-32C of its descriptor (R24). -/
def Dev.openSlot (d : Dev) (x : StripeSlot) (image : Bytes) : Except SlotFault Bytes :=
  match if tb x.desc.ctl 3 then d.unsealSlot x image else some image with
  | none => .error .tag
  | some s =>
    match if bits x.desc.ctl 2 0 = 4 then some s else if d.knowsCodec x.desc.codecVer then decodeSlot s else none with
    | none => .error .decode
    | some b => if crc32c b = x.desc.crc then .ok b else .error .crc

end Sys2Proof.Machine
end

