-- ==== Sys2Proof/Machine/Cache.lean ====
section
/-! DEFINITION. The HBM partition (R27) and the stripe cache (R228 to R233, R236): sets, ways, line check values, runs, states and what
its commands do. The own dirty area is taken to start at line 0 and the in-progress area to follow it. -/
namespace Sys2Proof.Machine

/-! ### The HBM partition (R26, R27) -/

/-- Octets of a number of MiB. -/
def mib (n : Nat) : Nat := n * 2 ^ 20

/-- Octets of the parts of on-chip SRAM (R26): stripe cache, map cache, ingest buffers with the 4 MiB that hold context misses, context
cache, fingerprint cache, engine local memories, event and trace buffers and the rest. -/
def sramParts : List Nat := [mib 64, mib 48, mib 32, mib 16, mib 16, mib 12, mib 4]

/-- Octets of the in-progress area. -/
def inProgressBytes : Nat := mib 8192
/-- Octets of the HBM map cache. -/
def mapCacheBytes : Nat := mib 12288
/-- Octets of the fingerprint index cache. -/
def indexCacheBytes : Nat := mib 2048
/-- Queue-pair contexts with HBM backing, of 512 octets each. -/
def contextCount : Nat := 131072

/-- Where the parts of HBM begin, in the order of R27's table: own dirty area, in-progress area, mirror-receive area, map cache,
fingerprint index cache, context backing, stripe journal, remainder. Their order in HBM is the model's. [DESIGN CHOICE: log 112] -/
def hbmBases (own peer : Nat) : List Nat :=
  let sizes := [mib own, inProgressBytes, mib peer, mapCacheBytes, indexCacheBytes, contextCount * 512, mib 256]
  (List.range 8).map (fun i => (sizes.take i).sum)

/-- The 2 MiB page of HBM that holds a queue pair's context (R27, R30). [DESIGN CHOICE: log 112] -/
def contextPage (own peer qpn : Nat) : Nat := ((hbmBases own peer).getD 5 0 + qpn % contextCount * 512) / 2 ^ 21

/-- A page is retired (R240): a spare takes its place, so no offset changes, and boot flash lists it. -/
def Dev.retirePage (d : Dev) (page : Nat) : Dev :=
  let l := d.boot.settings.retiredPages
  if l.contains page then d else
  let left := 64 - l.length
  let d : Dev := { d with boot := { d.boot with settings := { d.boot.settings with retiredPages := l ++ [page] } } }
  let d := ((d.set F.STG_HBM_RET_retired (l.length + 1)).set F.STG_HBM_RET_spares_left (left - 1)).event 11 .hbmPageRetired [page]
  if left = 0 then d.event 11 .hbmNoSpare [page] else d

/-- The page that holds a queue pair's context is retired (R30). -/
def Dev.retireContext (d : Dev) (qpn : Nat) : Dev :=
  d.retirePage (contextPage (d.img.ownMib d.headNo) (d.img.ownMib (1 - d.headNo)) qpn)

/-! ### Lines -/

/-- The set of a line (R228): a[9:0] XOR a[19:10] XOR (a[23:20] followed by six zero bits). -/
def scSet (a : Nat) : Nat := bits a 9 0 ^^^ bits a 19 10 ^^^ (bits a 23 20 * 64)

/-- Change staging and the stripe cache. -/
def Dev.onStg (d : Dev) (f : StgState → StgState) : Dev := { d with stg := f d.stg }

/-- The requester's run count after it addresses line `a` (R230): the next line adds one, the same line leaves it, another sets 1. -/
def runStep (r : Nat × Nat) (a : Nat) : Nat × Nat :=
  if a = r.1 + 1 then (a, r.2 + 1) else if a = r.1 ∧ r.2 ≠ 0 then r else (a, 1)

/-- Least recently used of some ways. -/
def lru : List ScWay → Option ScWay
  | [] => none
  | w :: t => match lru t with
    | some x => if x.used < w.used then some x else some w
    | none => some w

/-- The victim of a full set (R228): the least recently used clean way, else the least recently used dirty way that holds no parity
line. -/
def victim (ws : List ScWay) : Option ScWay :=
  match lru (ws.filter (fun w => !w.dirty && !w.parity)) with
  | some w => some w
  | none => lru (ws.filter (fun w => !w.parity))

/-- Ways a set still has (R236). -/
def Dev.waysIn (d : Dev) (set : Nat) : Nat := 16 - Tab.getD d.stg.waysOut set 0

/-- The octets of a line of the own dirty area in HBM: the staged slots that lie in it; free units read as zeros. [DESIGN CHOICE: log 112] -/
def Dev.lineBytes (d : Dev) (a : Nat) : Bytes :=
  (d.stg.slots.foldl (fun l e => if !e.2.adopted && e.2.off / 4 == a then overlay l (e.2.off % 4 * 1024) e.2.image else l) (zeros 4096)).take 4096

/-- A line's octets with part of it written. -/
def lineWrite (old : Bytes) (off : Nat) (image : Bytes) : Bytes := (overlay old off image).take 4096

/-- Allocate a way for a line with its octets and check value (R233): a free way, or a victim's, written back first where dirty. A set
with no way left passes by. -/
def Dev.scAllocate (d : Dev) (a : Nat) (dirty parity : Bool) (data : Bytes) : Dev :=
  let set := scSet a
  let ws := Tab.getD d.stg.lines set []
  let new : ScWay := { a := a, dirty := dirty, used := d.stg.clock, parity := parity, data := data, check := crc32c data }
  let put (d : Dev) (ws : List ScWay) : Dev := d.onStg (fun s => { s with lines := Tab.put set (ws ++ [new]) s.lines })
  if ws.length < d.waysIn set then put d ws
  else match victim ws with
    | none => d
    | some v =>
      let d := put d (ws.filter (fun w => w.a != v.a))
      if v.dirty then d.bump F.STG_sc_writebacks else d

/-- A hit stores part of a line: dirty, with its check value computed again (R229, R233). -/
def ScWay.store (w : ScWay) (clock off : Nat) (image : Bytes) : ScWay :=
  let data := lineWrite w.data off image
  { w with dirty := true, used := clock, data := data, check := crc32c data }

/-- One access to a line by a requester (R229, R230): hits are served in the cache, a store makes the line dirty, a miss allocates
unless the 65th line of a run or later bypasses it. Requesters: 0 stream engines, 1 a sequencer's read fill, 2 DMA, 3 control cores,
4 parity units, which are exempt from the detector. A store writes `image` at an offset of the line, filling the rest of it from HBM. -/
def Dev.scAccess (d : Dev) (req a : Nat) (store parity : Bool) (off : Nat) (image : Bytes) : Dev :=
  if d.stg.sc != .enabled then d else
  let set := scSet a
  let ws := Tab.getD d.stg.lines set []
  let hit := ws.any (fun w => w.a == a)
  let r := runStep (Tab.getD d.stg.runs req (0, 0)) a
  let d := d.onStg (fun s => { s with clock := s.clock + 1, runs := if store || !hit then Tab.put req r s.runs else s.runs })
  if hit then
    (d.onStg (fun s => { s with lines := Tab.put set (ws.map (fun w =>
      if w.a != a then w else if store then w.store s.clock off image else { w with used := s.clock })) s.lines })).bump F.STG_sc_hits
  else
    let d := d.bump F.STG_sc_misses
    if decide (64 < r.2) && req != 4 && !d.on F.STG_SC_CTL_seq_bypass_off then d.bump F.STG_sc_bypassed
    else d.scAllocate a store parity (if store then lineWrite (d.lineBytes a) off image else d.lineBytes a)

/-- A store of octets to the own dirty area at an octet offset. -/
def Dev.scStore (d : Dev) (req off : Nat) (image : Bytes) : Dev := d.scAccess req (off / 4096) true false (off % 4096) image
/-- A read of the own dirty area at an octet offset. -/
def Dev.scRead (d : Dev) (req off : Nat) : Dev := d.scAccess req (off / 4096) false false 0 []

/-- The first line of a stripe's parity pages in the in-progress area (R227, R229). [DESIGN CHOICE: log 112] -/
def parityLine (own pool i : Nat) : Nat := own * 256 + (i + 4096 * pool) % 65536 * 32

/-- The parity lines of a stripe that opens are allocated (R229, R271): zeros until its parity is accumulated. -/
def Dev.scParityOpen (d : Dev) (first n : Nat) : Dev :=
  if d.stg.sc != .enabled then d
  else (List.range n).foldl (fun (d : Dev) k => (d.onStg (fun s => { s with clock := s.clock + 1 })).scAllocate (first + k) true true (zeros 4096)) d

/-- The parity lines of a stripe leave the cache: written to HBM once where its parity is complete, dropped where it never will be. -/
def Dev.scParityEnd (d : Dev) (first n : Nat) (complete : Bool) : Dev :=
  let mine (w : ScWay) : Bool := w.parity && decide (first ≤ w.a) && decide (w.a < first + n)
  let k := (d.stg.lines.map (fun e => (e.2.filter (fun w => mine w && w.dirty)).length)).sum
  let d := d.onStg (fun s => { s with lines := Tab.mapV (fun (ws : List ScWay) => ws.filter (fun w => !mine w)) s.lines })
  if complete && k != 0 then d.bump F.STG_sc_writebacks k else d

/-- Number of dirty ways (STG_SC_STAT.dirty_lines). -/
def StgState.dirtyLines (s : StgState) : Nat := (s.lines.map (fun e => (e.2.filter (·.dirty)).length)).sum

/-- Every dirty line is written to HBM and left clean (R231). -/
def Dev.scWriteAll (d : Dev) : Dev :=
  let n := d.stg.dirtyLines
  let d := d.onStg (fun s => { s with lines := Tab.mapV (fun (ws : List ScWay) => ws.map (fun w => { w with dirty := false })) s.lines })
  if n = 0 then d else d.bump F.STG_sc_writebacks n

/-- STG_SC_STAT.state of a state. -/
def ScState.code : ScState → Nat
  | .disabled => 0
  | .writingBack => 1
  | .invalidated => 2
  | .enabled => 3

/-- The cache enters a state. -/
def Dev.scEnter (d : Dev) (s : ScState) : Dev := (d.onStg (fun x => { x with sc := s })).set F.STG_SC_STAT_state s.code

/-- SC_ENABLE_WRITE (R231): 0 on an enabled cache starts the write-back, 1 on an invalidated one enables it; 1 in any other state
does nothing and records an event, and the bit keeps its value. -/
def Dev.scEnable (d : Dev) (enable : Bool) : Dev :=
  match enable, d.stg.sc with
  | true, .invalidated => (d.softC F.STG_SC_CTL_enable 1).scEnter .enabled
  | true, _ => d.event 11 .reservedEncoding [F.STG_SC_CTL_enable.off]
  | false, .enabled => ((d.softC F.STG_SC_CTL_enable 0).scEnter .writingBack).set F.STG_SC_STAT_busy 1
  | false, _ => d.softC F.STG_SC_CTL_enable 0

/-- SC_INVALIDATE (R231): on a disabled cache every tag entry turns invalid; otherwise nothing but an event. -/
def Dev.scInvalidate (d : Dev) : Dev :=
  if d.stg.sc = .disabled then (d.onStg (fun s => { s with lines := [], runs := [] })).scEnter .invalidated
  else d.event 11 .reservedEncoding [F.STG_SC_CTL_invalidate.off]

/-- SC_WRITEBACK (R231): on an enabled cache every dirty line is written back and left clean. -/
def Dev.scWriteback (d : Dev) : Dev := if d.stg.sc = .enabled then d.scWriteAll else d

/-- SC_WRITEBACK_COMPLETE (R231): the last dirty line of a cache writing back is written, and the cache is disabled. -/
def Dev.scWritebackDone (d : Dev) : Dev :=
  if d.stg.sc = .writingBack then (d.scWriteAll.scEnter .disabled).set F.STG_SC_STAT_busy 0 else d

/-- CC0 invalidates and enables the cache at a start (R232). -/
def Dev.scStart (d : Dev) : Dev :=
  ((d.onStg (fun s => { s with lines := [], runs := [] })).setC F.STG_SC_CTL_enable 1).scEnter .enabled

/-- A reset or L3 writes the cache back and leaves it disabled and empty (R232). -/
def Dev.scReset (d : Dev) : Dev :=
  ((d.scWriteAll.onStg (fun s => { s with lines := [], runs := [] })).setC F.STG_SC_CTL_enable 0).scEnter .disabled

/-- A line fails lastingly; twice within 24 h takes its way out of service (R236). -/
def Dev.scFail (d : Dev) (a : Nat) : Dev :=
  let set := scSet a
  let recent := (Tab.getD d.stg.fails a []).filter (fun t => decide (d.pow.aon < t + 86400 * 10 ^ 9))
  let d := d.onStg (fun s => { s with fails := Tab.put a (d.pow.aon :: recent) s.fails })
  if recent.isEmpty then d else
  let d := d.onStg (fun s => { s with waysOut := Tab.put set (min 16 (Tab.getD s.waysOut set 0 + 1)) s.waysOut,
                                      lines := Tab.put set ((Tab.getD s.lines set []).filter (fun w => w.a != a)) s.lines,
                                      fails := Tab.del a s.fails })
  let total := (d.stg.waysOut.map (·.2)).sum
  let was := d.on F.STG_SC_WAYS_degraded
  let d := ((d.set F.STG_SC_WAYS_ways_out total).setB F.STG_SC_WAYS_degraded (decide (256 < total))).event 11 .scWayOut [a]
  if decide (256 < total) && !was then d.event 11 .scDegraded [total] else d

end Sys2Proof.Machine
end

