-- ==== Sys2Proof/Machine/OptionArea.lean ====
section
/-! DEFINITION. Octets of flash pages: codewords of a raw page (R331), the option area's records and their three copies (R344 to R346). -/
namespace Sys2Proof.Machine

/-- Octets of a raw page (R331): per KiB of page data 1,024 and 80 of parity, and the member footer. -/
def rawLen (pageKib : Nat) : Nat := pageKib * 1104 + 1024

/-- A raw page (R331): each codeword holds 2 KiB of page data, its share of the footer, and 160 octets of LDPC parity. `page` is the page
data with the footer behind it. [DESIGN CHOICE: log 124] -/
def rawPage (pageKib : Nat) (page : Bytes) : Bytes :=
  let share := 2048 / pageKib
  (List.range (pageKib / 2)).flatMap (fun j =>
    let w := sliceZ page (2048 * j) 2048 ++ sliceZ page (1024 * pageKib + share * j) share
    w ++ sliceZ (Config.ldpcParity w) 0 160)

/-- A raw page of the option area (R344): a record three times, then 0xFF, and no LDPC coding. [DESIGN CHOICE: log 124] -/
def optionPage (pageKib : Nat) (record : Bytes) : Bytes :=
  record ++ record ++ record ++ List.replicate (rawLen pageKib - 3 * record.length) 0xFF

/-- Whether a page has never been written. -/
def pageBlank (page : Bytes) : Bool := page.all (· == 0xFF)

/-- What a page of the option area holds (R344): the bitwise majority of its three copies, where its CRC-32C holds. -/
def optionRecord (page : Bytes) : Option Bytes :=
  let copy (k : Nat) : Bytes := sliceZ page (4096 * k) 4096
  let b := List.zipWith (fun (x : Byte) (y : Byte × Byte) => (x &&& y.1) ||| (x &&& y.2) ||| (y.1 &&& y.2)) (copy 0) ((copy 1).zip (copy 2))
  if leAt b 4092 4 = crc32c (b.take 4092) then some b else none

/-- A list of little-endian values of one width. -/
def leList (b : Bytes) (off count width : Nat) : List Nat := (List.range count).map (fun i => leAt b (off + width * i) width)

/-- A module record (R345), where the page holds one: magic, version and length as given, and every count in its range. -/
def readModuleRec (page : Bytes) : Option ModuleRec :=
  match optionRecord page with
  | none => none
  | some b =>
    let m : ModuleRec :=
      { serial := leAt b 8 16, dieCount := leAt b 24 1, pageKib := leAt b 25 1, spareBytes := leAt b 26 2, planes := leAt b 28 1
        densities := leAt b 29 1, blocks := leAt b 30 2, pagesPerBlock := leList b 32 4 2, programMbs := leList b 40 4 2
        tR := leAt b 48 2, tPROG := leAt b 50 2, tBERS := leAt b 52 2, tESPD := leAt b 54 2, ersMinRun := leAt b 56 2
        progInSusp := tb (leAt b 58 1) 0, stepMv := leAt b 59 1, ratedPe := leList b 60 4 4, verifyBits := leAt b 76 1
        softDelta := leAt b 77 1, margin := slice b 80 64, start := slice b 144 1600, ladder := slice b 1744 1024
        trims := slice b 2768 480 }
    let sound := slice b 0 4 == [0x56, 0x52, 0x4D, 0x52] && leAt b 4 2 == 1 && leAt b 6 2 == 4096
    let ranges := decide (1 ≤ m.dieCount ∧ m.dieCount ≤ 64) && (m.pageKib == 16 || m.pageKib == 32) && decide (1 ≤ m.planes ∧ m.planes ≤ 4) &&
      decide (1 ≤ m.blocks ∧ m.blocks ≤ 8192)
    if sound && ranges then some m else none

/-- Status code of a block in a die record (R346). -/
def dieStatus (r : DieRec) (b : Nat) : Nat :=
  if r.factoryBad.contains b then 1 else if r.grownBad.contains b then 2 else if r.eraseIncomplete.contains b then 3 else 0

/-- The 4,096 octets of a die record (R346). -/
def dieRecBytes (r : DieRec) : Bytes :=
  let body := [0x56, 0x52, 0x44, 0x52] ++ leBytes 2 1 ++ zeros 2 ++ leBytes 8 r.gen ++ leBytes 16 r.serial ++ leBytes 1 r.die ++ zeros 7 ++
    leBytes 16 r.uniqueId ++ leBytes 4 r.factoryBad.length ++ leBytes 4 r.grownBad.length ++
    (List.range 2048).map (fun j => b8 (dieStatus r (4 * j) + 4 * dieStatus r (4 * j + 1) + 16 * dieStatus r (4 * j + 2) + 64 * dieStatus r (4 * j + 3))) ++
    zeros 1980
  body ++ leBytes 4 (crc32c body)

/-- A die record (R346), where the page holds one. -/
def readDieRec (page : Bytes) : Option DieRec :=
  match optionRecord page with
  | none => none
  | some b =>
    let coded (k : Nat) : List Nat := (List.range 2048).flatMap (fun j =>
      let v := leAt b (64 + j) 1
      ((List.range 4).filter (fun i => bits v (2 * i + 1) (2 * i) == k)).map (fun i => 4 * j + i))
    if slice b 0 4 == [0x56, 0x52, 0x44, 0x52] && leAt b 4 2 == 1 then
      some { gen := leAt b 8 8, serial := leAt b 16 16, die := leAt b 32 1, uniqueId := leAt b 40 16
             factoryBad := coded 1, grownBad := coded 2, eraseIncomplete := coded 3 }
    else none

/-- Die record pages of a die up to the first blank pair (R347). -/
def writtenPairs (pages : List (Bytes × Bytes)) : List (Bytes × Bytes) := pages.takeWhile (fun p => !(pageBlank p.1 && pageBlank p.2))

/-- The valid die record of highest record_gen (R347). -/
def newestDieRec (pages : List (Bytes × Bytes)) : Option DieRec :=
  ((writtenPairs pages).flatMap (fun p => (readDieRec p.1).toList ++ (readDieRec p.2).toList)).foldl (fun (a : Option DieRec) r => match a with
    | none => some r
    | some x => if x.gen < r.gen then some r else some x) none

end Sys2Proof.Machine
end

