-- ==== Sys2Proof/Machine/Blocks.lean ====
section
/-! DEFINITION. Blocks on their way into staging (R168 to R185, R219 to R223): content of a location, slot coding, own-area allocation,
writes and their versions, fingerprint lookups, the dirty level. -/
namespace Sys2Proof.Machine

/-! ### Locations and content -/

/-- A block of zeros. -/
def zeroBlock : Bytes := zeros 4096

/-- The 64-bit form of a location (R357); the places before a stripe is sealed, and one of the other head, have none
of their own and take kinds 5 to 7. -/
def locWord : Loc → Nat
  | .dealloc => 0
  | .zero => 1
  | .stored c m s o x => 2 + c * 2 ^ 3 + m * 2 ^ 6 + s * 2 ^ 11 + o * 2 ^ 16 + bits x 26 0 * 2 ^ 21 + bits x 35 27 * 2 ^ 48
  | .ref c e => 3 + c * 2 ^ 3 + e * 2 ^ 8
  | .lost => 4
  | .staged n => 5 + n * 2 ^ 8
  | .ingest n => 6 + n * 2 ^ 8
  | .foreign => 7

/-- The slot a stored location names. -/
def Pool.slotAt (p : Pool) (member slot stripe : Nat) : Option StripeSlot :=
  (Tab.find? stripe p.stripes).bind (fun s => s.slots.find? (fun x => x.member == member && x.slot == slot))

/-- Where a location leads, through its index entry (R357). -/
def Pool.resolve (p : Pool) (l : Loc) : Loc :=
  match l with
  | .ref _ e => ((Tab.find? e p.index).map (·.loc)).getD .lost
  | x => x

/-- The content of a location: none where the block is lost. -/
def Dev.locBytes (d : Dev) (pool : Nat) (l : Loc) : Option Bytes :=
  match (d.pool pool).resolve l with
  | .dealloc | .zero => some zeroBlock
  | .staged n => (Tab.find? n d.stg.slots).map (·.plain)
  | .ingest n => (Tab.find? n d.stg.ingest).map (·.plain)
  | .stored _ m s _ x => ((d.pool pool).slotAt m s x).map (·.plain)
  | .ref _ _ | .lost | .foreign => none

/-- Whether two locations of one fingerprint hold the same octets; what the other head placed is taken to. [DESIGN CHOICE: log 66] -/
def Dev.agree (d : Dev) (pool : Nat) (a b : Loc) : Bool :=
  a == b || (d.pool pool).resolve a == .foreign || (d.pool pool).resolve b == .foreign || d.locBytes pool a == d.locBytes pool b

/-- A namespace's newest visible version of a block (R22): deallocated where nothing was written, and where the other head may have written
what it put there. -/
def Ns.locAt (x : Ns) (lba : Nat) : Loc := Tab.getD x.map lba (if x.foreign then .foreign else .dealloc)

/-- A version becomes the newest of its block; under one that is not yet sealed the map's own entry stays (R360, R361). -/
def Ns.showLoc (x : Ns) (lba : Nat) (l : Loc) : Ns :=
  let old := x.locAt lba
  { x with map := Tab.put lba l x.map
           under := if !l.unsealed then Tab.del lba x.under else if old.unsealed then x.under else Tab.put lba old x.under }

/-- The newest visible version of a block. -/
def Dev.blockLoc (d : Dev) (nsid lba : Nat) : Loc := (d.ns nsid).locAt lba

/-- Whether a write identity lies in the epoch that some positions close. -/
def inEpoch (pos : Tab Nat) (w : WriteId) : Bool := decide (w.seq ≤ Tab.getD pos w.stream 0)

/-- The order of write identities (R176): stream, sequence, block. -/
def identityLt (a b : WriteId) : Bool :=
  decide (a.stream < b.stream) || (a.stream == b.stream && (decide (a.seq < b.seq) || (a.seq == b.seq && decide (a.block < b.block))))

/-- A version that its own stream has written again before the Cairn that closes it (R300): nothing keeps it. [DEDUCED: log 58] -/
def Ns.superseded (x : Ns) (b : EpochBlock) : Bool :=
  x.epoch.any (fun c => c.lba == b.lba && c.wid.stream == b.wid.stream && identityLt b.wid c.wid &&
    !(x.placed ++ x.waiting).any (fun p => inEpoch p.pos b.wid && !inEpoch p.pos c.wid))

/-- Replace a location by another, in every map of a namespace and in its open epoch. -/
def Ns.moveLoc (x : Ns) (from_ dst : Loc) : Ns :=
  let f := fun (l : Loc) => if l = from_ then dst else l
  { x with map := Tab.mapV f x.map
           under := Tab.mapV f (List.filter (fun (e : Nat × Loc) => dst.unsealed || Tab.find? e.1 x.map != some from_) x.under)
           epoch := x.epoch.map (fun b => { b with loc := f b.loc })
           closedMap := Tab.mapV f x.closedMap
           retMaps := Tab.mapV (Tab.mapV f) x.retMaps
           epochMaps := Tab.mapV (Tab.mapV f) x.epochMaps
           landing := x.landing.map (fun g =>
             { g with entries := g.entries.map (fun e => (e.1, f e.2))
                      closedEpochs := g.closedEpochs.map (fun e => (e.1, e.2.1, e.2.2.map (fun y => (y.1, f y.2)))) }) }

/-- Replace a location by another wherever the pool's namespaces and index name it (R361, R371). -/
def Dev.moveLoc (d : Dev) (pool : Nat) (from_ dst : Loc) : Dev :=
  let f := fun (l : Loc) => if l = from_ then dst else l
  let d : Dev := { d with snp := { d.snp with nss := d.snp.nss.map (fun e =>
    if d.poolOf e.1 = pool then (e.1, e.2.moveLoc from_ dst) else e) } }
  let d := d.onStg (fun s => { s with writes := Tab.mapV (fun (w : WriteRec) =>
    { w with vers := w.vers.map (fun v => { v with loc := f v.loc }) }) s.writes })
  d.onPool pool (fun p => { p with index := Tab.mapV (fun (e : IndexEntry) => { e with loc := f e.loc }) p.index })

/-! ### Which stages run (R60, R168) -/

/-- A namespace opts in to Reduce itself or through the stream (R60). -/
def Dev.optsReduce (d : Dev) (nsid stream : Nat) : Bool :=
  ((d.imgFor nsid).ns? nsid).any (fun n => tb n.nsFlags 0) || ((d.imgFor nsid).stream? stream).any (fun s => tb s.stFlags 0)

/-- The Reduce and Seal settings of the epoch that a write lies in (R42): those of the first placed Cairn that covers it, else those of the
epoch after the newest Cairn placed. [DEDUCED: log 49] -/
def Ns.coding (x : Ns) (w : WriteId) : Bool × Bool :=
  match x.placed.find? (fun p => inEpoch p.pos w) with
  | some p => (p.reduce, p.sealOn)
  | none => (x.codeReduce, x.codeSeal)

/-- Whether a stage (1 fingerprint, 2 compress, 3 encrypt) runs for a block of a write, under the setting its epoch is coded in. -/
def Dev.stageRuns (d : Dev) (nsid : Nat) (w : WriteId) (op : Nat) : Bool :=
  let c := (d.ns nsid).coding w
  let on_ := if op = 3 then c.2 && ((d.imgFor nsid).ns? nsid).any (fun n => tb n.nsFlags 1)
    else c.1 && d.optsReduce nsid w.stream
  on_ && ((d.imgFor nsid).stream? w.stream).any (fun s => (d.imgFor nsid).streamHasOp s op)

/-- The key label of a namespace. -/
def Dev.labelOf (d : Dev) (nsid : Nat) : Nat := (((d.imgFor nsid).ns? nsid).map (·.keyLabel)).getD 0

/-- The domain effort (R172): the highest compress param of the streams of the domain's namespaces, all under the image the namespace's
epoch is coded under. -/
def Dev.domainEffort (d : Dev) (nsid : Nat) : Nat :=
  let m := d.imgFor nsid
  let inDomain := m.ns.filter (fun n => n.poolId == d.poolOf nsid && n.keyLabel == d.labelOf nsid)
  let graphs := inDomain.flatMap (fun n => (m.stream.filter (fun s => s.nsid == n.nsid)).filterMap (fun s => m.graph? s.stageGraph))
  (graphs.flatMap (fun g => g.entries)).foldl (fun a e => if e.op = 2 then max a e.param else a) 0

/-- The codec version of the running firmware (R172). -/
def Dev.codecVer (d : Dev) : Nat := (Config.codecVersion (d.get F.SYS_FW_major)).toNat

/-! ### Slot coding (R170 to R174, R207) -/

/-- Compressed stream to class and slot (R170, R171); a block that was not compressed is class 4. -/
def slotOf (stream : Option Bytes) (plain : Bytes) : Nat × Bytes :=
  match stream with
  | some z => if z.length ≤ 3072 then
      let c := max 1 (ceilDiv z.length 1024)
      (c, z ++ zeros (c * 1024 - z.length))
    else (4, plain)
  | none => (4, plain)

/-- A derived key is used: a miss of the cache of 512 derives it (R206). -/
def Dev.useKey (d : Dev) (ctx purpose key : Bytes) : Dev :=
  if d.cip.cache.any (fun e => e.1 == ctx && e.2.1 == purpose) then d
  else (d.onCip (fun c => { c with cache := (c.cache ++ [(ctx, purpose, key)]).drop (c.cache.length - 511) })).bump F.CIP_derivations

/-- Class of a slot. -/
def descCls (x : Desc) : Nat := bits x.ctl 2 0
/-- Whether a slot is sealed. -/
def descSealed (x : Desc) : Bool := tb x.ctl 3

/-- The keys under which the slots of a label are sealed and opened are used (R205, R206). -/
def Dev.sealKeys (d : Dev) (label : Nat) : Dev :=
  let l := d.label label
  match d.cip.kRoot with
  | some root => (d.useKey l.label (asc "MSL-DATA") (dataKey root l)).useKey l.label (asc "MSL-NONCE") (nonceKey root l)
  | none => d

/-- A slot is opened on a read: one that is sealed takes its keys and is counted (R206 to R208). -/
def Dev.unseals (d : Dev) (x : Desc) : Dev := if descSealed x then (d.sealKeys x.keyLabel).bump F.CIP_unseal_blocks else d

/-- A slot of class 1 to 3 that another device coded is the one this namespace would store (R182, R312): codec version and domain effort
are equal. -/
def Dev.codedAlike (d : Dev) (nsid : Nat) (x : Desc) : Bool :=
  decide (1 ≤ descCls x) && decide (descCls x ≤ 3) && x.codecVer == d.codecVer && bits x.ctl 5 4 == d.domainEffort nsid

/-- The slot image and descriptor of a block (R172). `fp` is its fingerprint where it is a reduced block; `sent` is the slot as a Caravan
brought it, in the clear, which is kept where it is the one this namespace would store (R312). -/
def Dev.codeSlot (d : Dev) (nsid lba : Nat) (wid : WriteId) (plain : Bytes) (fp : Option Bytes) (sent : Option (Desc × Bytes) := none) :
    Desc × Bytes :=
  let eff := d.domainEffort nsid
  let comp := d.stageRuns nsid wid 2
  let z := match sent.filter (fun s => comp && d.codedAlike nsid s.1) with
    | some s => (descCls s.1, s.2)
    | none => slotOf (if comp then some (compressBlock d.codecVer eff plain) else none) plain
  let seal_ := d.stageRuns nsid wid 3
  let desc : Desc := { crc := crc32c plain, ctl := z.1 + 8 * b2n seal_ + 16 * (if comp then eff else 0),
                       codecVer := if z.1 < 4 then d.codecVer else 0, keyLabel := if seal_ then d.labelOf nsid else 0 }
  match seal_, d.cip.kRoot with
  | true, some root =>
    let nin := match fp with
      | some f => nonceInReduced f desc
      | none => nonceInPlain nsid lba wid desc
    sealSlot root (d.label (d.labelOf nsid)) nin desc z.2
  | _, _ => (desc, z.2)


/-! ### The own dirty area (R219) -/

/-- 1 KiB units taken in a 4 KiB page of the own area, as bits. -/
def pageUnits (slots : Tab Staged) (page : Nat) : List Bool :=
  (List.range 4).map (fun i => slots.any (fun e => decide (e.2.off ≤ page * 4 + i) && decide (page * 4 + i < e.2.off + descCls e.2.desc)))

/-- First run of `n` free units in a page. -/
def freeIn (used : List Bool) (n : Nat) : Option Nat :=
  (List.range (5 - n)).find? (fun o => (List.range n).all (fun i => !(used.getD (o + i) true)))

/-- Lowest place for `n` units from a page on (R219: a slot never crosses a 4 KiB boundary). -/
def allocFrom (slots : Tab Staged) (n : Nat) : Nat → Nat → Nat
  | 0, page => page * 4
  | f + 1, page => match freeIn (pageUnits slots page) n with
    | some o => page * 4 + o
    | none => allocFrom slots n f (page + 1)

/-- Where a new slot of `n` units goes. [DESIGN CHOICE: log 27] -/
def allocUnits (slots : Tab Staged) (n : Nat) : Nat :=
  allocFrom (List.filter (fun (e : Nat × Staged) => !e.2.adopted) slots) n (slots.length + 1) 0

/-- The dirty level D in octets (R221): units of slots not released, Λ − H of bound windows less what is coded, NVMe reservations. -/
def Dev.dirty (d : Dev) : Nat :=
  1024 * (d.stg.slots.map (fun e => descCls e.2.desc)).sum +
  (d.net.wins.map (fun e => if e.2.state == .bound then
    e.2.limit - max e.2.horizon (e.2.done.foldl (fun a x => max a x.stop) 0) else 0)).sum + d.stg.reserved +
  4096 * (d.stg.ingest.filter (fun e => !e.2.staged && match Tab.find? e.2.write d.stg.writes with
    | some r => (match r.owner with | .command _ _ _ => true | _ => false)
    | none => false)).length

/-- The budget in force in octets: DIRTY_BUDGET, or less while the drain is limited (R409, R413). -/
def Dev.budget (d : Dev) : Nat := d.get F.RST_DRAIN_CAP_budget_eff_mib * 2 ^ 20

/-! ### Staging a slot -/

/-- A mirrored slot as it travels (R220, R360). -/
def Staged.mirror (s : Staged) : MirrorSlot :=
  { off := s.off, nsid := s.nsid, lba := s.lba, wid := s.wid, desc := s.desc, image := s.image, plain := s.plain, fp := s.fp, of_ := s.of_ }

/-- Blocks of a host's write of at most 1 MiB all of which goes to the peer as it is taken (R145); 0 of any other write. -/
def Dev.wholeAt (d : Dev) (write : Nat) : Nat :=
  match Tab.find? write d.stg.writes with
  | some w => if w.mirrored && decide (w.blocks ≤ 256) && (match w.owner with | .command _ _ _ => true | _ => false) then w.blocks else 0
  | none => 0

/-- Send a slot to the peer: it waits for the confirmation of its class sequence number (R220). -/
def Dev.sendSlot (d : Dev) (n : Nat) : Dev :=
  match Tab.find? n d.stg.slots with
  | none => d
  | some s =>
    if !d.on F.HHL_STAT_link_up then d else
    let d := d.peerSend (.slot s.mirror)
    d.onStg (fun x => { x with slots := Tab.upd n (fun s => { s with mseq := some (Tab.getD d.head.txCseq 1 0) }) x.slots })

/-- The counter of a slot class. -/
def classCounter : Nat → Field
  | 0 => F.RED_class0
  | 1 => F.RED_class1
  | 2 => F.RED_class2
  | 3 => F.RED_class3
  | _ => F.RED_class4

/-- Put a coded slot into the own dirty area, for a write: through the stripe cache, and to the peer where new writes are mirrored. -/
def Dev.putSlot (d : Dev) (nsid lba : Nat) (wid : WriteId) (write : Nat) (plain : Bytes) (fp : Option Bytes) (c : Desc × Bytes) : Dev :=
  let n := d.stg.nextSlot
  let off := allocUnits d.stg.slots (descCls c.1)
  let s : Staged := { off := off, nsid := nsid, lba := lba, wid := wid, desc := c.1, image := c.2, plain := plain, fp := fp,
                      write := write, of_ := d.wholeAt write }
  let d := d.onStg (fun x => { x with slots := Tab.put n s x.slots, nextSlot := n + 1,
                                      writes := Tab.upd write (fun (w : WriteRec) => { w with slots := w.slots ++ [n] }) x.writes })
  let d := (d.scStore 0 (off * 1024) c.2).bump (classCounter (descCls c.1))
  let d := d.bump F.RED_stored_bytes (1024 * descCls c.1)
  if d.mirroring then d.sendSlot n else d

/-- Code a block and stage its slot; answers the slot's number too. -/
def Dev.stageBlock (d : Dev) (nsid lba : Nat) (wid : WriteId) (write : Nat) (plain : Bytes) (fp : Option Bytes)
    (sent : Option (Desc × Bytes) := none) : Nat × Dev :=
  let c := d.codeSlot nsid lba wid plain fp sent
  let d := if descSealed c.1 then (d.sealKeys (d.labelOf nsid)).bump F.CIP_seal_blocks else d
  (d.stg.nextSlot, d.putSlot nsid lba wid write plain fp c)

/-- Encryption of a namespace's blocks waits for keys (R149, R209). [DEDUCED: log 109] -/
def Dev.needsKeys (d : Dev) (nsid : Nat) (w : WriteId) : Bool := d.stageRuns nsid w 3 && !d.keysUsable

/-! ### Writes -/

/-- What a write says of a block: its octets, a zero block, a deallocation (R147). -/
inductive BlockIn where
  | data (bytes : Bytes)
  | zero
  | dealloc
  deriving DecidableEq, Repr

/-- A block identified by its check value (R301). -/
def crcContent (plain : Bytes) : Bytes := leBytes 4 (crc32c plain) ++ zeros 28

/-- Put a block into an ingest buffer to wait. -/
def Dev.putIngest (d : Dev) (i : Ingest) : Nat × Dev :=
  let n := d.stg.nextIngest
  (n, d.onStg (fun x => { x with ingest := Tab.put n i x.ingest, nextIngest := n + 1 }))

/-- Take one block of a write: a zero block becomes a descriptor (R169); any other lies in an ingest buffer (R19), where a block whose
fingerprint stage runs waits for its lookup and a block to be sealed without keys waits for them; without either it is coded and staged. -/
def Dev.takeBlock (d : Dev) (w nsid lba : Nat) (wid : WriteId) (b : BlockIn) : EpochBlock × Dev :=
  let ver (kind : Nat) (content : Bytes) (loc : Loc) : EpochBlock := { wid := wid, lba := lba, kind := kind, content := content, loc := loc }
  match b with
  | .dealloc => (ver 0 (zeros 32) .dealloc, d)
  | .zero => (ver 0 (zeros 32) .zero, d.bump F.RED_class0)
  | .data p =>
    let d := d.bump F.RED_logical_bytes 4096
    if p.all (fun x => x == 0) then (ver 0 (zeros 32) .zero, d.bump F.RED_class0)
    else if d.stageRuns nsid wid 1 then
      let fp := sha256 p
      let r := d.putIngest { nsid := nsid, lba := lba, wid := wid, write := w, plain := p, fp := some fp }
      let d := { r.2 with red := { r.2.red with lookups := Tab.put r.1 { nsid := nsid, fp := fp, wid := wid } r.2.red.lookups } }
      (ver 1 fp (.ingest r.1), d.bump F.RED_fp_computed)
    else if d.needsKeys nsid wid then
      let r := d.putIngest { nsid := nsid, lba := lba, wid := wid, write := w, plain := p, waitKeys := true }
      (ver 2 (crcContent p) (.ingest r.1), r.2)
    else
      let n := d.stg.nextSlot
      let r := d.putIngest { nsid := nsid, lba := lba, wid := wid, write := w, plain := p, staged := true, slot := some n }
      (ver 2 (crcContent p) (.staged n), (r.2.stageBlock nsid lba wid w p none).2)

/-- Take the blocks of a write in order. -/
def Dev.takeBlocks (d : Dev) (w nsid stream seq : Nat) : List (Nat × BlockIn) → Nat → List EpochBlock → List EpochBlock × Dev
  | [], _, acc => (acc.reverse, d)
  | (lba, b) :: t, i, acc =>
    let r := d.takeBlock w nsid lba { stream := stream, seq := seq, block := i } b
    r.2.takeBlocks w nsid stream seq t (i + 1) (r.1 :: acc)

/-- Change every namespace. -/
def Dev.onEachNs (d : Dev) (f : Nat → Ns → Ns) : Dev := { d with snp := { d.snp with nss := d.snp.nss.map (fun e => (e.1, f e.1 e.2)) } }

/-- A byte-count stream notes the octets of a write (R297). -/
def Dev.countStream (d : Dev) (nsid stream seq octets : Nat) : Dev :=
  if (((d.imgFor nsid).stream? stream).map (·.cairnMaxBytes)).getD 0 = 0 then d
  else d.onNs nsid (fun x => { x with log := Tab.updD stream [] (fun l => l ++ [(seq, octets)]) x.log })

/-- Whether a version of a write is the newest of its block that its stream has shown (R147, R300): one of a higher sequence number stays. -/
def Ns.newest (x : Ns) (v : EpochBlock) : Bool :=
  !x.epoch.any (fun b => b.lba == v.lba && b.wid.stream == v.wid.stream && decide (v.wid.seq < b.wid.seq))

/-- Make a write's versions visible, in the order of its blocks (R18, R361): each becomes the newest of its block, unless its stream has
overwritten it already. -/
def Dev.showWrite (d : Dev) (w : Nat) : Dev :=
  match Tab.find? w d.stg.writes with
  | none => d
  | some r =>
    if r.visible then d else
    let d := d.onNs r.nsid (fun x => { (r.vers.filter x.newest).foldl (fun (y : Ns) v => y.showLoc v.lba v.loc) x with
      epoch := x.epoch ++ r.vers })
    let gone := r.vers.filter (fun v => v.loc == .dealloc)
    let d := if gone.isEmpty then d else d.bump F.FTL_discard_blocks gone.length
    d.onStg (fun x => { x with writes := Tab.upd w (fun r => { r with visible := true, vers := [] }) x.writes })

/-- The blocks of a write that only change the map go to the peer as map deltas with its slots (R145, R361). [DESIGN CHOICE: log 66] -/
def Dev.mirrorFlat (d : Dev) (w nsid : Nat) (vers : List EpochBlock) : Dev :=
  (vers.filter (fun v => v.loc == .dealloc || v.loc == .zero)).foldl (fun (d : Dev) v =>
    d.mirrorState (.delta { pool := d.poolOf nsid, stripeSeq := 0, nsid := nsid, lba := v.lba, loc := v.loc, wid := v.wid,
                            of_ := d.wholeAt w })) d

/-- A write whose data is all there takes the next sequence number of its stream (R121, R144), counts toward the stream's mark, and
its blocks are taken. Answers its number. [DESIGN CHOICE: log 33] -/
def Dev.beginWrite (d : Dev) (owner : WriteOwner) (nsid stream : Nat) (blocks : List (Nat × BlockIn)) (fua : Bool := false) :
    Nat × Dev :=
  let seq := Tab.getD (d.ns nsid).heads stream 0 + 1
  let w := d.stg.nextWrite
  let r : WriteRec := { owner := owner, nsid := nsid, stream := stream, seq := seq, lba := (blocks.head?.map (·.1)).getD 0,
                        blocks := blocks.length, fua := fua, mirrored := d.mirroring }
  let d := d.onStg (fun x => { x with writes := Tab.put w r x.writes, nextWrite := w + 1 })
  let d := d.onNs nsid (fun x => { x with heads := Tab.put stream seq x.heads })
  let d := d.countStream nsid stream seq (4096 * blocks.length)
  let t := d.takeBlocks w nsid stream seq blocks 0 []
  let d := t.2.onStg (fun x => { x with writes := Tab.upd w (fun r => { r with vers := t.1 }) x.writes })
  (w, d.mirrorFlat w nsid t.1)

/-- New writes wait for the peer (R16, R248). -/
def Dev.mirrorsNew (d : Dev) : Bool := d.mirroring || d.peerAwaited

/-- A staged slot serves a write that waits for the peer's confirmation of it (R16, R19): nothing takes it out of staging before. -/
def Dev.awaitsPeer (d : Dev) (n : Nat) : Bool :=
  d.mirrorsNew && List.any d.stg.ingest (fun (e : Nat × Ingest) => e.2.slot == some n) &&
    (Tab.find? n d.stg.slots).any (fun s => !s.peerOk)

/-- Whether every block of a write is staged, and at the peer too where new writes are mirrored (R16, R17). -/
def Dev.writeReady (d : Dev) (w : Nat) (r : WriteRec) : Bool :=
  !d.stg.ingest.any (fun e => e.2.write == w && !e.2.staged) &&
  (!d.mirrorsNew || r.slots.all (fun n => match Tab.find? n d.stg.slots with | some s => s.peerOk | none => true))

/-- A write meets its acknowledgement condition: the ingest buffers of its blocks are released (R19). -/
def Dev.releaseIngest (d : Dev) (w : Nat) : Dev := d.onStg (fun x => { x with ingest := x.ingest.filter (fun e => e.2.write != w) })

/-! ### Lookups and holders (R177, R179, R182, R183) -/

/-- Set the version an ingest buffer holds: its location, entry and marks, wherever its block stands. The buffer itself is held until
the write is acknowledged (R19). -/
def Dev.setVersion (d : Dev) (nsid n : Nat) (loc : Loc) (slot : Option Nat) (entry : Option Nat) (deferred alone : Bool) : Dev :=
  let f := fun (b : EpochBlock) => if b.loc = .ingest n then
    { b with loc := loc, entry := entry, deferred := deferred, alone := alone } else b
  let d := d.onNs nsid (fun x => { x with epoch := x.epoch.map f, map := Tab.mapV (fun l => if l = .ingest n then loc else l) x.map })
  d.onStg (fun x => { x with writes := Tab.mapV (fun (w : WriteRec) => { w with vers := w.vers.map f }) x.writes,
                             ingest := Tab.upd n (fun i => { i with staged := true, slot := slot, waitKeys := false }) x.ingest })

/-- A holder as it is mirrored, with the entry it belongs to (R185). -/
def Dev.holderOf (d : Dev) (nsid lba : Nat) (wid : WriteId) (fp : Bytes) (slot entry : Option Nat) (of_ : Nat) : HolderMirror :=
  match entry.bind (fun e => Tab.find? e (d.pool (d.poolOf nsid)).index) with
  | some x => { nsid := nsid, lba := lba, wid := wid, fp := fp, slotOff := slot, owner := x.owner, refs := x.refs, effort := x.effort,
                pending := x.pending, isSealed := x.isSealed, of_ := of_ }
  | none => { nsid := nsid, lba := lba, wid := wid, fp := fp, slotOff := slot, owner := wid, isSealed := d.stageRuns nsid wid 3,
              effort := d.domainEffort nsid, of_ := of_ }

/-- The peer learns of a holder (R185). -/
def Dev.mirrorHolder (d : Dev) (i : Ingest) (slot entry : Option Nat) : Dev :=
  d.mirrorState (.holders [d.holderOf i.nsid i.lba i.wid (i.fp.getD []) slot entry (d.wholeAt i.write)])

/-- Store the block of an ingest buffer as its own slot; with an entry number, the slot of that entry. -/
def Dev.storeIngest (d : Dev) (n : Nat) (i : Ingest) (entry : Option Nat) (deferred alone : Bool) : Dev :=
  if d.needsKeys i.nsid i.wid then
    d.onStg (fun x => { x with ingest := Tab.put n { i with waitKeys := true, deferred := deferred, alone := alone } x.ingest })
  else
    let r := d.stageBlock i.nsid i.lba i.wid i.write i.plain (if alone then none else i.fp)
    let off := (Tab.find? r.1 r.2.stg.slots).map (·.off)
    let d := r.2.setVersion i.nsid n (.staged r.1) (some r.1) entry deferred alone
    let d := match entry with
      | some e => d.onPool (d.poolOf i.nsid) (fun p => { p with index := Tab.upd e (fun x => { x with loc := .staged r.1 }) p.index })
      | none => d
    if i.fp.isSome then d.mirrorHolder i off entry else d

/-- A namespace's entry for a fingerprint, settled or pending. -/
def Dev.ownEntry (d : Dev) (nsid : Nat) (isSealed : Bool) (fp : Bytes) : Option (Nat × IndexEntry) :=
  List.find? (fun (e : Nat × IndexEntry) => e.2.nsid == nsid && e.2.fp == fp && e.2.isSealed == isSealed && e.2.loc != .lost)
    (d.pool (d.poolOf nsid)).index

/-- Another namespace's entry of the domain whose slot is bit-identical to the one this block would have (R182). -/
def Dev.domainEntry (d : Dev) (nsid : Nat) (isSealed comp : Bool) (fp : Bytes) : Option (Nat × IndexEntry) :=
  List.find? (fun (e : Nat × IndexEntry) => e.2.nsid != nsid && e.2.fp == fp && e.2.isSealed == isSealed && e.2.loc != .lost &&
    e.2.keyLabel == d.labelOf nsid && d.labelOf e.2.nsid == d.labelOf nsid && e.2.effort == d.domainEffort nsid &&
    e.2.codecVer == d.codecVer && e.2.compressed == comp && e.2.generation == (d.imgFor nsid).generation &&
    e.2.fwMajor == d.get F.SYS_FW_major)
    (d.pool (d.poolOf nsid)).index

/-- Add an index entry for a fingerprint of a namespace, owned by a write and stored at a place (R178); answers its number. What its slot's
coding depended on is noted with it. -/
def Dev.addEntry (d : Dev) (nsid : Nat) (owner : WriteId) (fp : Bytes) (isSealed pending : Bool) (loc : Loc) : Nat × Dev :=
  let p := d.poolOf nsid
  let e := (d.pool p).nextEntry
  let x : IndexEntry := { fp := fp, nsid := nsid, isSealed := isSealed, pending := pending, owner := owner, loc := loc,
                          effort := d.domainEffort nsid, codecVer := d.codecVer, keyLabel := d.labelOf nsid,
                          compressed := d.stageRuns nsid owner 2, generation := (d.imgFor nsid).generation, fwMajor := d.get F.SYS_FW_major }
  (e, d.onPool p (fun q => { q with index := Tab.put e x q.index, nextEntry := e + 1 }))

/-- Create a pending entry for a holder (R179); answers its number. -/
def Dev.newEntry (d : Dev) (i : Ingest) (loc : Loc) : Nat × Dev :=
  d.addEntry i.nsid i.wid (i.fp.getD []) (d.stageRuns i.nsid i.wid 3) true loc

/-- Whether holders of a namespace are compared with what they would reference (R183). -/
def Dev.verifies (d : Dev) (nsid : Nat) : Bool :=
  d.on F.RED_CTL_verify_all || ((d.imgFor nsid).ns? nsid).any (fun n => tb n.nsFlags 2)

/-- Class of the slot behind a location. -/
def Dev.locClass (d : Dev) (pool : Nat) (l : Loc) : Nat :=
  match (d.pool pool).resolve l with
  | .stored c _ _ _ _ => c
  | .staged n => ((Tab.find? n d.stg.slots).map (fun s => descCls s.desc)).getD 0
  | _ => 0

/-- A holder becomes a reference to an entry: its write rests on the entry's slot while that is staged. -/
def Dev.makeRef (d : Dev) (n : Nat) (i : Ingest) (e : Nat) (loc : Loc) : Dev :=
  let slot := match loc with | .staged s => some s | _ => none
  let d := d.setVersion i.nsid n (.ref (d.locClass (d.poolOf i.nsid) loc) e) slot (some e) false false
  let d := match loc with
    | .staged s => d.onStg (fun x => { x with writes := Tab.upd i.write (fun w => { w with slots := w.slots ++ [s] }) x.writes })
    | _ => d
  (d.mirrorHolder i none (some e)).bump F.RED_refs_made

/-- A holder meets an entry: with verification it is compared first, and a collision stands alone (R183). -/
def Dev.meetEntry (d : Dev) (n : Nat) (i : Ingest) (hit : Nat × IndexEntry) (own : Bool) : Dev :=
  let p := d.poolOf i.nsid
  let d := if d.verifies i.nsid then d.bump F.RED_verify_compares else d
  if d.verifies i.nsid && (d.pool p).resolve hit.2.loc != .foreign && d.locBytes p hit.2.loc != some i.plain then
    let d := (d.bump F.RED_verify_collisions).event 9 .lookupCollision [i.nsid, i.lba]
    let d := d.onPool p (fun q => { q with index := Tab.upd hit.1 (fun e => { e with collided := true }) q.index })
    d.storeIngest n i none false true
  else if own then d.makeRef n i hit.1 hit.2.loc
  else
    let r := d.newEntry i hit.2.loc
    r.2.makeRef n i r.1 hit.2.loc

/-- Settle a holder whose lookup has answered (R179). -/
def Dev.settleHolder (d : Dev) (n : Nat) (i : Ingest) : Dev :=
  let seal_ := d.stageRuns i.nsid i.wid 3
  let fp := i.fp.getD []
  match d.ownEntry i.nsid seal_ fp with
  | some e => d.meetEntry n i e true
  | none => match d.domainEntry i.nsid seal_ (d.stageRuns i.nsid i.wid 2) fp with
    | some e => d.meetEntry n i e false
    | none =>
      if d.needsKeys i.nsid i.wid then d.storeIngest n i none false false
      else
        let r := d.newEntry i (.ingest n)
        r.2.storeIngest n i (some r.1) false false

/-- FINGERPRINT_LOOKUP_DONE (R177, R179): the answer is taken; a holder that deferred keeps its own slot. [DESIGN CHOICE: log 121] -/
def Dev.lookupDone (d : Dev) (n level : Nat) : Dev :=
  match Tab.find? n d.red.lookups with
  | none => d
  | some l =>
    let d : Dev := { d with red := { d.red with lookups := Tab.del n d.red.lookups } }
    let seal_ := d.stageRuns l.nsid l.wid 3
    let found := List.any (d.pool (d.poolOf l.nsid)).index (fun (e : Nat × IndexEntry) =>
      e.2.fp == l.fp && e.2.isSealed == seal_ && d.labelOf e.2.nsid == d.labelOf l.nsid)
    let d := if !found then d else d.bump (match level with | 0 => F.RED_fp_hit_sram | 1 => F.RED_fp_hit_hbm | _ => F.RED_fp_hit_flash)
    match Tab.find? n d.stg.ingest with
    | some i => if l.deferred then d else d.settleHolder n i
    | none => d

/-- LOOKUP_DEFER (R177): a block without an answer within defer_us stores its own slot, and its lookup continues. -/
def Dev.lookupDefer (d : Dev) (n : Nat) : Dev :=
  match Tab.find? n d.red.lookups, Tab.find? n d.stg.ingest with
  | some l, some i =>
    if l.deferred then d else
    let d : Dev := { d with red := { d.red with lookups := Tab.put n { l with deferred := true } d.red.lookups } }
    (d.storeIngest n i none true false).bump F.RED_fp_deferred
  | _, _ => d

/-- Keys are loaded again: blocks that wait for them in ingest buffers go on (R149, R209). [DEDUCED: log 109] -/
def Dev.settleKeys (d : Dev) : Dev :=
  (d.stg.ingest.filter (fun e => e.2.waitKeys && !d.needsKeys e.2.nsid e.2.wid)).foldl (fun (d : Dev) e =>
    let i := { e.2 with waitKeys := false }
    if i.fp.isNone || i.alone || i.deferred then d.storeIngest e.1 i none i.deferred i.alone else d.settleHolder e.1 i) d

end Sys2Proof.Machine
end

