-- ==== Sys2Proof/Machine/MapPages.lean ====
section
/-! DEFINITION. Map pages (R358, R361 to R363): the map entries of a region, the page they make in block or extent form, the region table,
and the write-back of dirty pages; the 64-byte form of an index entry (R178). -/
namespace Sys2Proof.Machine

/-! ### Index entries (R178) -/

/-- The 64 octets of a fingerprint index entry in a pool; a slot that is still staged has no location yet. [DESIGN CHOICE: log 123] -/
def IndexEntry.bytes (pool : Nat) (e : IndexEntry) : Bytes :=
  sliceZ e.fp 0 32 ++ leBytes 2 e.nsid ++ leBytes 1 pool ++ leBytes 1 (b2n e.isSealed + 2 * b2n e.pending + 4 * b2n e.collided) ++
    leBytes 2 e.owner.stream ++ leBytes 6 e.refs ++ leBytes 4 e.owner.block ++ leBytes 8 e.owner.seq ++
    leBytes 8 (if e.loc.unsealed then 0 else locWord e.loc)

/-- The pending entries of a pool, as a Wadi drain writes them (R185). -/
def Pool.pendingEntries (q : Pool) (pool : Nat) : List Bytes :=
  (q.index.filter (fun e => e.2.pending)).map (fun e => e.2.bytes pool)

/-! ### Regions -/

/-- Blocks of a region (R358). -/
def regionBlocks : Nat := 512

/-- The map entries of a region, in logical-block order: a version that is not yet in a sealed stripe is in the staging index and not in
the map (R360), whose entry stays what it was. -/
def Ns.regionLocs (x : Ns) (n : Nat) : List Loc :=
  let of_ (t : Tab Loc) : Tab Loc := t.filter (fun e => decide (e.1 / regionBlocks = n))
  let m := of_ x.map
  let u := of_ x.under
  (List.range regionBlocks).map (fun i =>
    let l := Tab.getD m (n * regionBlocks + i) .dealloc
    if l.unsealed then Tab.getD u (n * regionBlocks + i) .dealloc else l)

/-- An extent (R358): first block, blocks, location of the first. -/
structure Extent where
  start : Nat
  count : Nat
  first : Loc
  deriving DecidableEq, Repr

/-- Whether a slot comes next after another in slot order (R358): the next of its member page, or after its last the first of the next data
member; of the same class. -/
def Pool.nextSlot (q : Pool) (a b : Loc) : Bool :=
  match a, b with
  | .stored c m s _ x, .stored c' m' s' _ x' =>
    c == c' && x == x' && ((m' == m && s' == s + 1) || (m' == m + 1 && s' == 0 && (q.slotAt m (s + 1) x).isNone))
  | _, _ => false

/-- Whether a block whose entry is `b` goes on an extent that ends with the entry `a`. -/
def Pool.goesOn (q : Pool) (a b : Loc) : Bool :=
  match a, b with
  | .zero, .zero | .lost, .lost => true
  | _, _ => q.nextSlot a b

/-- The extents of a region's entries, newest first, from a block on, with the entry before it. -/
def Pool.extentsFrom (q : Pool) : Nat → Loc → List Extent → List Loc → List Extent
  | _, _, acc, [] => acc
  | lba, prev, acc, l :: t =>
    let acc := match acc with
      | x :: r => if l = .dealloc then acc else if q.goesOn prev l then { x with count := x.count + 1 } :: r else ⟨lba, 1, l⟩ :: acc
      | [] => if l = .dealloc then [] else [⟨lba, 1, l⟩]
    q.extentsFrom (lba + 1) l acc t

/-- The extents of a region in ascending start order. -/
def Pool.extents (q : Pool) (n : Nat) (ls : List Loc) : List Extent := (q.extentsFrom (n * regionBlocks) .dealloc [] ls).reverse

/-- An extent's 16 octets. -/
def Extent.bytes (x : Extent) : Bytes := leBytes 6 x.start ++ leBytes 2 x.count ++ leBytes 8 (locWord x.first)

/-- A map page as it is written (R358): in extent form where at most 255 extents describe the region, else in block form. -/
def Pool.pageOf (q : Pool) (n : Nat) (ls : List Loc) : Bool × Bytes :=
  let xs := q.extents n ls
  if xs.length ≤ 255 then (true, leBytes 2 xs.length ++ zeros 14 ++ xs.flatMap Extent.bytes) else (false, ls.flatMap (fun l => leBytes 8 (locWord l)))

/-! ### Write-back (R358, R363) -/

/-- An entry of a namespace's region table: kind 0, or the kind 2 location of the map page with its form in bit 57. -/
def regionEntry (p : Option MapPage) : Nat :=
  match p with
  | none => 0
  | some p => p.at_ + 2 ^ 57 * b2n p.extent

/-- A place that some metadata slot takes, in the form of a kind 2 location: which, the model leaves open. [DESIGN CHOICE: log 29] -/
def metadataPlace (v : Nat) : Nat := 2 + (1 + v % 4) * 2 ^ 3 + v / 4 % 2 ^ 42 * 2 ^ 6 + v / 2 ^ 44 % 2 ^ 9 * 2 ^ 48

/-- Write back a region's map page where it is dirty: a page all of whose blocks are deallocated goes. -/
def Dev.writeBackPage (d : Dev) (nsid n : Nat) : Dev :=
  let x := d.ns nsid
  let ls := x.regionLocs n
  let old := Tab.find? n x.pages
  if ls.all (· == .dealloc) then (if old.isSome then d.onNs nsid (fun x => { x with pages := Tab.del n x.pages }) else d)
  else
    let p := (d.pool (d.poolOf nsid)).pageOf n ls
    if old.any (fun o => o.octets == p.2) then d
    else
      let v := d.fresh
      let page : MapPage := { extent := p.1, octets := p.2, at_ := metadataPlace v.1 }
      let d := v.2.onNs nsid (fun x => { x with pages := Tab.put n page x.pages })
      (d.bump F.FTL_map_writebacks).bump (if p.1 then F.FTL_pages_extent_form else F.FTL_pages_block_form)

/-- Write back every dirty page of a namespace. What the other head wrote of it, that head wrote back. -/
def Dev.writeBack (d : Dev) (nsid : Nat) : Dev :=
  let x := d.ns nsid
  if x.foreign then d else
  ((x.map.map (fun e => e.1 / regionBlocks) ++ x.pages.map (·.1)).eraseDups).foldl (fun (d : Dev) n => d.writeBackPage nsid n) d

/-- A Cairn moves the place from which a pool's journal is replayed (R277): the dirty pages whose deltas lie before it are written back
first (R363). [DESIGN CHOICE: log 29] -/
def Dev.writeBackPool (d : Dev) (pool : Nat) : Dev :=
  ((d.snp.nss.map (·.1)).filter (fun n => d.poolOf n == pool)).foldl Dev.writeBack d

end Sys2Proof.Machine
end

