-- ==== Sys2Proof/Machine/Dies.lean ====
section
/-! DEFINITION. Flash sequencers (R332 to R343): the queue of each die, erase suspension, what goes to the bridge next, and fetches of a
slot directly or around a busy or unavailable member (R23, R24, R280). -/
namespace Sys2Proof.Machine

/-! ### Dies and members -/

/-- A die behind a lane serves this head: lane up, die present, claimed and not failed. A lane that retrains keeps its dies until it is
down (R323). -/
def Dev.dieUp (d : Dev) (lane die : Nat) : Bool :=
  let x := d.die lane die
  (d.lane lane).up && x.present && x.claimed && !x.failed

/-- The key of a die in a pool: module × 64 + die. -/
def dieKey (module die : Nat) : Nat := module * 64 + die
/-- The key of a block in a pool. -/
def blockKey (module die block : Nat) : Nat := dieKey module die * 8192 + block

/-- The pool a die belongs to. -/
def Dev.poolOfDie (d : Dev) (module die : Nat) : Option PoolRec :=
  d.img.pools.find? (fun p => p.members.contains (module + 256 * die))

/-- What a module declares suits a pool: the pool's page size (R62), its density (R365), and a spare area that holds a raw page (R331).
[DEDUCED: log 100] -/
def moduleSuits (m : ModuleRec) (p : PoolRec) : Bool :=
  m.pageKib == p.pageKib && tb m.densities (p.density - 1) && decide (rawLen m.pageKib ≤ 1024 * m.pageKib + m.spareBytes)

/-- The module behind a lane has declared what the pool of its die needs; one that has declared nothing suits no pool (R62, R365). [DEDUCED: log 100] -/
def Dev.dieSuits (d : Dev) (lane die : Nat) : Bool :=
  match d.poolOfDie (d.lane lane).module die with
  | some p => (d.lane lane).moduleRec.any (fun m => moduleSuits m p)
  | none => true

/-- A die of a module is available to this head (R268 without the erased block, R281). -/
def Dev.dieAvail (d : Dev) (module die : Nat) : Bool :=
  match d.laneOf module with
  | some l => d.dieUp l die && d.dieSuits l die
  | none => false

/-- A member is unavailable (R281): its die is, or its page is unreadable. -/
def Dev.memberOut (d : Dev) (m : MemberAddr) : Bool := m.state == 5 || !d.dieAvail m.module m.die

/-- A member is no source for read-around: unavailable, or behind a lane whose sequencer is being reset (R353). -/
def Dev.memberAway (d : Dev) (m : MemberAddr) : Bool := d.memberOut m || (match d.laneOf m.module with
  | some l => (d.lane l).winding.isSome || (d.lane l).state == .training
  | none => true)

/-- The module record behind a lane. -/
def Dev.modRec (d : Dev) (lane : Nat) : Option ModuleRec := (d.lane lane).moduleRec

/-- Commands at the bridge for a die that take one of its two places (R332). -/
def Dev.atBridge (d : Dev) (lane die : Nat) : List BCmd :=
  (d.lane lane).cmds.filter (fun c => c.die == die && (c.op == .read || c.op == .program || c.op == .erase))

/-- A program runs on a die or waits ahead of a read (R23, R332). -/
def Dev.dieBusy (d : Dev) (module die : Nat) : Bool :=
  match d.laneOf module with
  | some l => (d.atBridge l die).any (fun c => c.op == .program) || (d.die l die).queue.any (fun c => c.op == .program)
  | none => false

/-! ### Suspension (R337 to R339) -/

/-- Whether a running erase may be suspended for a read (R337). -/
def Dev.maySuspend (d : Dev) (lane die : Nat) : Bool :=
  let x := d.die lane die
  let t := d.img.tunablesD
  let policy := ((d.poolOfDie (d.lane lane).module die).map (·.suspendPolicy)).getD 0
  let minRun := match d.modRec lane with
    | some r => if r.ersMinRun = 0 then 100 else r.ersMinRun
    | none => 100
  t.ersSuspMax != 0 && (decide (x.suspCount < t.ersSuspMax) || policy == 1) &&
    (decide (x.runSince + minRun * 1000 ≤ d.pow.aon) || policy == 1)

/-- A die's temperature stops its programs at 95 °C (R395), whatever loop 2 holds. -/
def Dev.programStopped (d : Dev) (lane die : Nat) : Bool :=
  (d.die lane die).dutyCap == 0 && !d.pow.drainGate

/-- First command of an operation in a queue, and the queue without it. -/
def takeOp (op : BOp) : List BCmd → Option (BCmd × List BCmd)
  | [] => none
  | c :: t => if c.op = op then some (c, t) else (takeOp op t).map (fun r => (r.1, c :: r.2))

/-- What the pool knows of a block; a block it does not list is free and never erased. -/
def Pool.block (p : Pool) (module die b : Nat) : BlockInfo := Tab.getD p.blocks (blockKey module die b) {}

/-- What relocation queues for a block (R375): its band, or the loose block itself. -/
def Pool.relocKey (p : Pool) (module die b : Nat) : Nat :=
  let x := p.block module die b
  if x.use = 1 then 2 ^ 40 + blockKey module die b else x.band

/-- The stripes of a band, or those with a member in a loose block. -/
def Pool.victimStripes (p : Pool) (v : Nat) : List (Nat × Stripe) :=
  if v < 2 ^ 40 then List.filter (fun (e : Nat × Stripe) => e.2.band == v) p.stripes
  else List.filter (fun (e : Nat × Stripe) => e.2.members.any (fun m => 2 ^ 40 + blockKey m.module m.die m.block == v)) p.stripes

/-- A block queued for relocation whose band holds a stripe of the reshape set: held, and served by reconstruction (R375). -/
def Pool.heldReloc (p : Pool) (m : MemberAddr) : Bool :=
  let v := p.relocKey m.module m.die m.block
  p.relocQ.contains v && p.reshape.any (fun r => (p.victimStripes v).any (fun e => decide (e.2.seq < r.startSeq)))

/-! ### Read thresholds (R341 to R343) -/

/-- Signed octet of a table. -/
def sByte (bs : Bytes) (i : Nat) : Int := signedOf 8 (bs.getD i 0).toNat

/-- Read levels of a density (R345). -/
def readLevels (density : Nat) : Nat := 2 ^ density - 1

/-- A loop's bounds: register index of loop n is n − 1. -/
def Dev.loopLower (d : Dev) (n : Nat) : Int := d.getI (F.WDT_LOOP_LOWER_lower.at (n - 1))
/-- Upper bound of a loop. -/
def Dev.loopUpper (d : Dev) (n : Nat) : Int := d.getI (F.WDT_LOOP_UPPER_upper.at (n - 1))
/-- Whether a loop is pinned. [DEDUCED: log 85] -/
def Dev.loopPinned (d : Dev) (n : Nat) : Bool := d.on (F.WDT_LOOP_STAT_pinned.at (n - 1))
/-- The pinned value of a loop. -/
def Dev.loopPin (d : Dev) (n : Nat) : Int := d.getI (F.WDT_LOOP_PIN_pin.at (n - 1))

/-- A tracked offset of a die's block group and level: the pinned value where loop 1 is pinned (R342). [DEDUCED: log 85] -/
def Dev.tracked (d : Dev) (l die group level : Nat) : Int :=
  if d.loopPinned 1 then d.loopPin 1 else Tab.getD (d.die l die).offsets (group * 16 + level) 0

/-- Which offsets a read adds to the start offsets: none, ladder entry 1 to 16, or 17 for the margin offsets. [DEDUCED: log 101] -/
def thrEntry (c : BCmd) : Nat :=
  if c.margin then 17 else if c.depth ≤ 16 then c.depth else c.bestDepth

/-- Fifteen offsets of a SET_THRESH (R325): start offsets for the program band and the die's band plus the group's tracked offsets, plus
ladder entry k of 1 to 16 (R341) or, for k = 17, the margin offsets (R343); levels the density lacks are 0. [DEDUCED: log 101] -/
def Dev.thrOf (d : Dev) (m : ModuleRec) (l die density group band k : Nat) : Bytes :=
  (List.range 15).map (fun i =>
    if readLevels density ≤ i then 0 else
    let more : Int := if k = 0 then 0 else if k = 17 then sByte m.margin (16 * (density - 1) + i)
      else sByte m.ladder (256 * (density - 1) + 16 * (k - 1) + i)
    b8 (fieldOfInt 8 (sByte m.start (400 * (density - 1) + 80 * band + 16 * (d.die l die).band + i) + d.tracked l die group (i + 1) + more)))

/-- Load a threshold slot of a die where it holds other offsets. -/
def Dev.setThr (d : Dev) (l die slot : Nat) (want : Bytes) : Dev :=
  if Tab.getD (d.die l die).thr slot [] == want then d
  else (d.onDie l die (fun x => { x with thr := Tab.put slot want x.thr })).bridgeSend l
    { op := .setThresh, die := die, page := slot, use := .admin } want

/-- A read of a pool's block finds in its threshold slot the offsets of its rung (R336, R341). -/
def Dev.readThr (d : Dev) (l : Nat) (c : BCmd) : Dev :=
  if c.op ≠ .read ∨ c.block = 0 then d else
  match d.modRec l, d.poolOfDie (d.lane l).module c.die with
  | some m, some p =>
    d.setThr l c.die (thrSlot c)
      (d.thrOf m l c.die p.density (c.block / 256) ((d.pool p.poolId).block (d.lane l).module c.die c.block).progBand (thrEntry c))
  | _, _ => d

/-- The page of a stripe's member. -/
def BCmd.ofMember (c : BCmd) : Bool :=
  c.op == .program && c.mates.isEmpty && (match c.use with
    | .program _ _ _ | .rebuilt _ _ _ => true
    | _ => false)

/-- The single-plane programs that a program stands for, each with its raw page. -/
def BCmd.parts (c : BCmd) : List BCmd :=
  let len := c.data.length / (c.mates.length + 1)
  (((c.block, c.use) :: c.mates).zipIdx).map (fun x => { c with block := x.1.1, use := x.1.2, mates := [], data := sliceZ c.data (x.2 * len) len })

/-- A program and those of the commands behind it that can go with it as one multi-plane program (R334): up to four member pages of one page
index in blocks of different planes, none overtaking an earlier page of its block. Answers the program and what stays behind.
[DESIGN CHOICE: log 27] -/
def withMates (planes : Nat) (c : BCmd) (rest : List BCmd) : BCmd × List BCmd :=
  let fits (a : List BCmd × List BCmd) (x : BCmd) : Bool :=
    c.ofMember && x.ofMember && x.page == c.page && decide (a.1.length < 4) && !a.1.any (fun y => y.block % planes == x.block % planes) &&
      !a.2.any (fun y => y.op == .program && y.block == x.block)
  let r := rest.foldl (fun (a : List BCmd × List BCmd) x => if fits a x then (a.1 ++ [x], a.2) else (a.1, a.2 ++ [x])) ([c], [])
  let ordered := (List.range planes).flatMap (fun p => r.1.filter (fun x => x.block % planes == p))
  match ordered with
  | [] | [_] => (c, rest)
  | h :: t => ({ h with mates := t.map (fun x => (x.block, x.use)), data := (h :: t).flatMap (·.data) }, r.2)

/-- The next command of an operation in a die's queue, a program with the planes that go with it, where the lane holds the credits it takes;
and the queue without it. -/
def Dev.nextOp (d : Dev) (lane die : Nat) (op : BOp) : Option (BCmd × List BCmd) :=
  match takeOp op (d.die lane die).queue with
  | none => none
  | some r =>
    let m := withMates (((d.modRec lane).map (·.planes)).getD 1) r.1 r.2
    if op == .program && (d.lane lane).canSend op m.1.data then some m
    else if (d.lane lane).canSend op r.1.data then some r else none

/-- Send the next command of an operation that waits at a die's sequencer. [DEDUCED: log 59] -/
def Dev.sendNext (d : Dev) (lane die : Nat) (op : BOp) : Option Dev :=
  (d.nextOp lane die op).map (fun r =>
    let d := d.onDie lane die (fun x => { x with queue := r.2, runSince := if op = .erase then d.pow.aon else x.runSince,
                                                 suspCount := if op = .erase then 0 else x.suspCount })
    (d.readThr lane r.1).bridgeSend lane r.1 r.1.data)

/-- One step of a die's order of service (R332): reads, then programs, then erases, two at the bridge at most; a read that meets an
erase suspends it where R337 allows and waits otherwise; a suspended erase resumes once its reads are served (R338). -/
def Dev.pumpOnce (d : Dev) (lane die : Nat) : Option Dev :=
  let x := d.die lane die
  let out := d.atBridge lane die
  let waiting := (d.lane lane).cmds.any (fun c => c.die == die && (c.op == .suspend || c.op == .resume || c.op == .resetDie || c.use == .recover))
  if !d.dieUp lane die || !(d.lane lane).active || waiting || (d.lane lane).cmdCredits == 0 || !(d.lane lane).held.isEmpty || d.fenced ||
    (d.lane lane).winding.isSome then none
  else match x.susp with
    | some e =>
      let prog := (takeOp .program x.queue).map (·.1)
      if x.queue.any (fun c => c.op == .read) then (if out.length < 2 then d.sendNext lane die .read else none)
      else if !out.isEmpty || d.pow.drainGate then none
      else if (d.modRec lane).any (·.progInSusp) && !x.progInSusp && prog.any (fun p => p.block != e.block) &&
          !d.programStopped lane die then
        ((d.onDie lane die (fun x => { x with progInSusp := true })).bump (F.FLX_L_progs_in_suspend.at lane)).sendNext lane die .program
      else some (d.bridgeSend lane { op := .resume, die := die, block := e.block, use := .admin })
    | none =>
      let erasing := out.any (fun c => c.op == .erase)
      if erasing && x.queue.any (fun c => c.op == .read) then
        if d.maySuspend lane die && !x.progInSusp then some (d.bridgeSend lane { op := .suspend, die := die, use := .admin })
        else none
      else if decide (2 ≤ out.length) || erasing then none
      else match d.sendNext lane die .read with
        | some d => some d
        | none =>
          match if d.programStopped lane die then none else d.sendNext lane die .program with
          | some d => some d
          | none => if d.pow.drainGate then none else d.sendNext lane die .erase

/-- Serve a die as far as its places and credits go. -/
def pumpLoop (lane die : Nat) : Nat → Dev → Dev
  | 0, d => d
  | f + 1, d => match d.pumpOnce lane die with
    | some d => pumpLoop lane die f d
    | none => d

/-- Serve a die: at most four commands go out at once (two, a SUSPEND and a RESUME). -/
def Dev.pump (d : Dev) (lane die : Nat) : Dev := pumpLoop lane die 4 d

/-- Queue a command at the sequencer of a lane. -/
def Dev.submit (d : Dev) (lane : Nat) (c : BCmd) : Dev :=
  (d.onDie lane c.die (fun x => { x with queue := x.queue ++ [c] })).pump lane c.die

/-- Queue a command for a die of a module, over this head's lane to it. -/
def Dev.submitTo (d : Dev) (module : Nat) (c : BCmd) : Dev :=
  match d.laneOf module with
  | some l => d.submit l c
  | none => d

/-! ### Fetches -/

/-- A stripe. -/
def Dev.stripe (d : Dev) (pool stripe : Nat) : Option Stripe := Tab.find? stripe (d.pool pool).stripes
/-- Change a stripe. -/
def Dev.onStripe (d : Dev) (pool stripe : Nat) (f : Stripe → Stripe) : Dev :=
  d.onPool pool (fun p => { p with stripes := Tab.upd stripe f p.stripes })

/-- Members of a stripe that can be read, but for some, in the order R280 prefers: idle data and P, idle Q and T, then busy ones. -/
def Dev.readable (d : Dev) (s : Stripe) (but : List Nat) : List Nat :=
  let away := fun (i : Nat) => match s.members[i]? with | some m => d.memberAway m | none => true
  let ok := (List.range s.members.length).filter (fun i =>
    !but.contains i && !(match s.members[i]? with | some m => d.memberOut m | none => true))
  let ok := if (ok.filter (fun i => !away i)).length < s.data then ok else ok.filter (fun i => !away i)
  let busy := fun (i : Nat) => match s.members[i]? with | some m => d.dieBusy m.module m.die | none => true
  ok.filter (fun i => !busy i && decide (i ≤ s.data)) ++ ok.filter (fun i => !busy i && decide (s.data < i)) ++ ok.filter busy

/-- Send the read of one member for a fetch: the octets of the slot it asks for, or the whole page (R280, R282). -/
def Dev.readMember (d : Dev) (id : Nat) (s : Stripe) (i : Nat) : Dev :=
  match s.members[i]? with
  | some m =>
    let x := (Tab.find? id d.fl.fetches).bind (·.slot)
    d.submitTo m.module { op := .read, die := m.die, block := m.block, page := m.page, use := .fetch id i
                          col := (x.map (·.off)).getD 0, kib := (x.map (fun x => bits x.desc.ctl 2 0)).getD 0 }
  | none => d

/-- Change a fetch. -/
def Dev.onFetch (d : Dev) (id : Nat) (f : Fetch → Fetch) : Dev := { d with fl := { d.fl with fetches := Tab.upd id f d.fl.fetches } }

/-- A fetch ends without its data: a read reports it, a copy gives up its slot, a rebuild stops. -/
def Dev.fetchFails (d : Dev) (id : Nat) : Dev :=
  match Tab.find? id d.fl.fetches with
  | none => d
  | some f =>
    let d : Dev := { d with fl := { d.fl with fetches := Tab.del id d.fl.fetches } }
    match f.for_ with
    | .read r i => (({ d with nv := { d.nv with reads := Tab.upd r (fun x => x.lose i) d.nv.reads } } : Dev)).event 17
        .readUnrecovered (match f.slot with | some s => [s.nsid, s.lba] | none => [])
    | .copy p j => d.onPool p (fun q => { q with copies := Tab.del j q.copies })
    | .rebuild => d

/-- Read around a member (R23, R280): D other members are read; where fewer can be, the fetch fails. -/
def Dev.goAround (d : Dev) (id : Nat) (f : Fetch) (s : Stripe) : Dev :=
  let l := (d.readable s (f.member :: f.bad)).take s.data
  if l.length < s.data then d.fetchFails id else
  let d := d.onFetch id (fun f => { f with direct := false, need := l })
  (l.foldl (fun (d : Dev) i => d.readMember id s i) d).bump F.STR_readaround_reads

/-! ### The in-progress area (R227) -/

/-- Octets of the in-progress area that a use takes: 0 parity and member pages of stripes being filled and programmed, 1 rebuild
reconstruction, 2 read data, 3 reclamation copies, 4 reshape copies. Caravan records are built from what reads return. -/
def Dev.areaUse (d : Dev) (u : Nat) : Nat :=
  let pools := d.fl.pools
  let copies (p : Pool) (reshape : Bool) : Nat := ((List.filter (fun (c : Nat × CopyJob) => (c.2.read || c.2.fetching) &&
    (c.2.layout == 1) == reshape) p.copies).map (fun c => 1024 * descCls c.2.slot.desc)).sum
  let page (f : Fetch) : Nat := ((d.stripe f.pool f.stripe).map (fun s => s.pageKib * 1024)).getD 0
  match u with
  | 0 => (pools.map (fun e => (e.2.stripes.map (fun s => match s.2.state with
      | .assembling => s.2.parity * s.2.pageKib * 1024
      | .programming => (s.2.data + s.2.parity) * s.2.pageKib * 1024
      | _ => 0)).sum)).sum
  | 1 => ((d.fl.fetches.filter (fun f => f.2.for_ == .rebuild)).map (fun f => f.2.need.length * page f.2)).sum +
      (pools.map (fun e => (e.2.stripes.map (fun s => s.2.rebuilding.length * s.2.pageKib * 1024)).sum)).sum
  | 2 => ((d.fl.fetches.filter (fun f => !f.2.waiting && (match f.2.for_ with | .read _ _ => true | _ => false))).map (fun f =>
      f.2.need.length * page f.2)).sum + 4096 * (d.nv.reads.map (fun e => e.2.got.length)).sum
  | 3 => (pools.map (fun e => copies e.2 false)).sum
  | 4 => (pools.map (fun e => copies e.2 true)).sum
  | _ => 0

/-- The floor of a use; rebuild has one only while Rebuild is set. -/
def Dev.areaFloor (d : Dev) (u : Nat) : Nat :=
  match u with
  | 0 => mib 2048
  | 1 => if d.mode 6 then mib 1024 else 0
  | 2 => mib 1024
  | 3 => mib 1024
  | _ => 0

/-- Octets of the in-progress area in use. -/
def Dev.inProgress (d : Dev) : Nat := ((List.range 5).map d.areaUse).sum

/-- `n` more octets for a use fit: floors are never lent, and all that lies beyond the floors shares 3 GiB, with 1 GiB more while no
rebuild has its floor. -/
def Dev.areaFits (d : Dev) (u n : Nat) : Bool :=
  let excess := ((List.range 5).map (fun v => d.areaUse v + (if v = u then n else 0) - d.areaFloor v)).sum
  decide (excess ≤ inProgressBytes - ((List.range 5).map d.areaFloor).sum)

/-- Judge a fetch that has sent nothing yet: directly where its die is idle; around it where it is unavailable, or busy with a program and
read-around is permitted; otherwise it waits for the earliest program on the stripe to end (R23). -/
def Dev.judgeFetch (d : Dev) (id : Nat) (f : Fetch) : Dev :=
  match d.stripe f.pool f.stripe with
  | none => d.fetchFails id
  | some s =>
    match s.members[f.member]? with
    | none => d.fetchFails id
    | some m =>
      if (match f.for_ with | .read _ _ => !d.areaFits 2 (s.pageKib * 1024) | _ => false) then d.onFetch id (fun x => { x with waiting := true })
      else
      let go := d.onFetch id (fun x => { x with waiting := false })
      let away := d.memberAway m || (d.pool f.pool).heldReloc m
      if d.memberOut m then go.goAround id f s
      else if !away && !d.dieBusy m.module m.die then go.readMember id s f.member
      else
        let out := ((List.range s.members.length).filter (fun i => i != f.member && (match s.members[i]? with
          | some x => d.memberAway x || d.dieBusy x.module x.die
          | none => true))).length
        if decide (out ≤ s.parity - 1) then go.goAround id f s
        else if away then go.readMember id s f.member
        else if f.waiting then d
        else (d.onFetch id (fun x => { x with waiting := true })).bump F.STR_readaround_waits

/-- Start a fetch of a member's slot. -/
def Dev.startFetch (d : Dev) (pool stripe member : Nat) (for_ : FetchFor) (slot : Option StripeSlot) : Dev :=
  let id := d.fl.nextFetch
  let f : Fetch := { pool := pool, stripe := stripe, member := member, for_ := for_, direct := true, need := [member], slot := slot }
  let d : Dev := { d with fl := { d.fl with fetches := Tab.put id f d.fl.fetches, nextFetch := id + 1 } }
  d.judgeFetch id f

/-- Fetches that wait for a program are judged again (R23). -/
def Dev.settleFetches (d : Dev) : Dev :=
  (List.filter (fun (e : Nat × Fetch) => e.2.waiting) d.fl.fetches).foldl (fun (d : Dev) e => d.judgeFetch e.1 e.2) d

/-- Start the fetch of D members that a rebuild of a stripe needs (R282). -/
def Dev.startRebuildFetch (d : Dev) (pool stripe : Nat) (s : Stripe) : Dev :=
  let l := (d.readable s []).take s.data
  if l.length < s.data then d else
  let id := d.fl.nextFetch
  let f : Fetch := { pool := pool, stripe := stripe, member := s.members.length, for_ := .rebuild, direct := false, need := l }
  let d : Dev := { d with fl := { d.fl with fetches := Tab.put id f d.fl.fetches, nextFetch := id + 1 } }
  l.foldl (fun (d : Dev) i => d.readMember id s i) d

end Sys2Proof.Machine
end

