-- ==== Sys2Proof/Machine/Pools.lean ====
section
/-! DEFINITION. Free space, block choice and parity: what a pool has to write on (R365 to R369, R374, R379, R408, R410), and the octets
of a member page (R272, R273). -/
namespace Sys2Proof.Machine

/-! ### Blocks of a die (R366) -/

/-- The modules of a pool that this head reaches, each once. -/
def PoolRec.mods (p : PoolRec) : List Nat := (p.members.map memberMod).eraseDups

/-- The dies of a pool available to this head, as (module, die). -/
def Dev.poolDies (d : Dev) (p : PoolRec) : List (Nat × Nat) :=
  (p.members.map (fun m => (memberMod m, memberDie m))).filter (fun m => d.dieAvail m.1 m.2)

/-- The module record behind this head's lane to a module. -/
def Dev.recOf (d : Dev) (module : Nat) : Option ModuleRec := (d.laneOf module).bind d.modRec

/-- The die record behind this head's lane to a module. -/
def Dev.dieRec (d : Dev) (module die : Nat) : Option DieRec := (d.laneOf module).bind (fun l => (d.die l die).record)

/-- Pages per block of a module in a density. -/
def modPages (r : ModuleRec) (density : Nat) : Nat := r.pagesPerBlock.getD (density - 1) 0

/-- Blocks never used: bad ones, and block 0, the option area (R344, R349, R350). [DEDUCED: log 30] -/
def dieBad (r : DieRec) (b : Nat) : Bool := b == 0 || r.factoryBad.contains b || r.grownBad.contains b

/-- Good blocks of a die. [DEDUCED: log 30] -/
def Dev.goodBlocks (d : Dev) (module die : Nat) : Nat :=
  match d.recOf module, d.dieRec module die with
  | some m, some r => m.blocks - 1 - (r.factoryBad ++ r.grownBad).eraseDups.length
  | _, _ => 0

/-- Free erased blocks of a plane of a die. [DEDUCED: log 30] -/
def Dev.freeBlocks (d : Dev) (pool module die plane : Nat) : List Nat :=
  match d.recOf module, d.dieRec module die with
  | some m, some r => (List.range m.blocks).filter (fun b =>
      b % m.planes == plane && !dieBad r b && !r.eraseIncomplete.contains b && ((d.pool pool).block module die b).state == 0 &&
        ((d.pool pool).block module die b).use != 2)
  | _, _ => []

/-- Blocks listed for a die in some states. -/
def Pool.inStates (p : Pool) (module die : Nat) (states : List Nat) : Nat :=
  (p.blocks.filter (fun e => e.1 / 8192 == dieKey module die && states.contains e.2.state)).length

/-! ### Drain blocks and drain rate (R408, R410) -/

/-- The owned, available dies of the head, as (pool, module, die). -/
def Dev.ownedDies (d : Dev) : List (Nat × Nat × Nat) :=
  d.ownedPools.flatMap (fun p => (d.poolDies p).map (fun m => (p.poolId, m.1, m.2)))

/-- Data members of a drain stripe: min(8, M − 1), 1 with one module (R410). -/
def Dev.drainWidth (d : Dev) : Nat :=
  let m := ((d.ownedDies.map (·.2.1)).eraseDups).length
  if m ≤ 1 then m else min 8 (m - 1)

/-- Data octets of a block of a pool on a module. -/
def Dev.blockBytes (d : Dev) (p : PoolRec) (module : Nat) : Nat :=
  match d.recOf module with
  | some m => modPages m p.density * p.pageKib * 1024
  | none => 0

/-- Drain blocks per plane that a die of a pool keeps (R410). -/
def Dev.drainPerPlane (d : Dev) (p : PoolRec) (module : Nat) : Nat :=
  let w := d.drainWidth
  let n := d.ownedDies.length
  let planes := ((d.recOf module).map (·.planes)).getD 1
  let s := (d.img.ownMib 0 + d.img.ownMib 1 + 384) * 2 ^ 20
  let den := w * n * planes * d.blockBytes p module
  if den = 0 then 1 else 1 + ceilDiv ((w + 1) * s) den

/-- Rate of a lane in octets per second. -/
def Lane.rate (l : Lane) : Nat := match l.state with
  | .active4 => 15500000000
  | .active2 => 7750000000
  | .training => if l.up then 15500000000 else 0
  | _ => 0

/-- Program rate of the owned, available dies behind a lane, in octets per second. -/
def Dev.laneProgramRate (d : Dev) (module : Nat) : Nat :=
  (d.ownedDies.map (fun x => if x.2.1 = module then
    (match d.recOf module, d.img.pool? x.1 with
      | some r, some p => r.programMbs.getD (p.density - 1) 0 * 10 ^ 6
      | _, _ => 0) else 0)).sum

/-- The drain rate (R408): 0.8 × 9w / (8(w + 1)) of the sum over lanes of the lesser of lane rate and program rate. -/
def Dev.drainRate (d : Dev) : Nat :=
  let w := d.drainWidth
  let sum := (((d.ownedDies.map (·.2.1)).eraseDups).map (fun m => match d.laneOf m with
    | some l => min (d.lane l).rate (d.laneProgramRate m)
    | none => 0)).sum
  sum * 8 * 9 * w / (10 * 8 * (w + 1))

/-- How far the largest tPROG_max of the owned modules exceeds 5 ms, in µs. -/
def Dev.drainSlack (d : Dev) : Nat :=
  ((d.ownedDies.filterMap (fun x => (d.recOf x.2.1).map (·.tPROG))).foldl max 0) - 5000

/-- B_eff in MiB (R408, R413): what the hold-up time drains, at most DIRTY_BUDGET, and holdup_low_mib while HOLDUP_OK is low. [DEDUCED: log 95] -/
def Dev.budgetEff (d : Dev) : Nat :=
  let t := d.img.tunablesD
  let us := t.holdupMs * 1000 - 8000 - d.drainSlack
  let b := min t.dirtyBudgetMib (us * d.drainRate / 10 ^ 6 / 2 ^ 20)
  if d.pins.holdupOk then b else min b (d.get F.RST_CTL_holdup_low_mib)

/-! ### Free fraction and spare (R368, R369, R379) -/

/-- Blocks of a die kept apart: two per plane in the erase reserve and the drain blocks. -/
def Dev.keptApart (d : Dev) (p : PoolRec) (module : Nat) : Nat :=
  ((d.recOf module).map (·.planes)).getD 1 * (2 + d.drainPerPlane p module)

/-- Good blocks of a pool. -/
def Dev.poolGood (d : Dev) (p : PoolRec) : Nat := ((d.poolDies p).map (fun m => d.goodBlocks m.1 m.2)).sum

/-- Free and erasable blocks of a pool outside reserve, drain blocks and Oasis spare. -/
def Dev.poolFree (d : Dev) (p : PoolRec) : Nat :=
  ((d.poolDies p).map (fun m =>
    let good := d.goodBlocks m.1 m.2
    good - (d.pool p.poolId).inStates m.1 m.2 [1, 2, 4] - d.keptApart p m.1 - good * p.oasisPct / 100)).sum

/-- The free fraction f in per mille. -/
def Dev.freeFraction (d : Dev) (p : PoolRec) : Nat := if d.poolGood p = 0 then 0 else d.poolFree p * 1000 / d.poolGood p

/-- Usable capacity U in octets (R379). -/
def Dev.usable (d : Dev) (p : PoolRec) : Nat :=
  let q := d.pool p.poolId
  (((d.poolDies p).map (fun m =>
    let good := d.goodBlocks m.1 m.2
    (good - d.keptApart p m.1 - good * p.oasisPct / 100) * d.blockBytes p m.1)).sum) * q.data / (q.data + q.parity)

/-- Sizes of a pool's namespaces, N in octets. -/
def Dev.poolSize (d : Dev) (pool : Nat) : Nat := ((d.img.ns.filter (fun n => n.poolId == pool)).map (fun n => n.sizeBlocks * 4096)).sum

/-- The spare s in per mille, 0 where U does not reach N (R379). -/
def Dev.spare (d : Dev) (p : PoolRec) : Nat :=
  let u := d.usable p
  if u = 0 then 0 else (u - d.poolSize p.poolId) * 1000 / u

/-! ### Wear (R373, R374) -/

/-- Sum of pe over the blocks listed for a die. -/
def Pool.dieWear (p : Pool) (module die : Nat) : Nat :=
  ((p.blocks.filter (fun e => e.1 / 8192 == dieKey module die)).map (·.2.pe)).sum

/-- Mean pe of a die, rounded down. -/
def Dev.meanPe (d : Dev) (pool module die : Nat) : Nat :=
  let g := d.goodBlocks module die
  if g = 0 then 0 else (d.pool pool).dieWear module die / g

/-- Largest pe of a pool. -/
def Pool.peMax (p : Pool) : Nat := (p.blocks.map (·.2.pe)).foldl max 0
/-- Smallest pe of a pool with so many good blocks: 0 where some block was never erased. -/
def Pool.peMin (p : Pool) (good : Nat) : Nat :=
  let l := (p.blocks.filter (fun e => e.2.state < 5)).map (·.2.pe)
  if l.length < good then 0 else l.foldl min (l.headD 0)

/-- Wear used of a pool in percent (R373), 0 with no rating. -/
def Dev.wearUsed (d : Dev) (p : PoolRec) : Nat :=
  let q := d.pool p.poolId
  let rated := ((d.poolDies p).filterMap (fun m => (d.recOf m.1).map (fun r => r.ratedPe.getD (p.density - 1) 0))).foldl max 0
  let good := d.poolGood p
  if good = 0 ∨ rated = 0 then 0 else ((q.blocks.map (·.2.pe)).sum * 100) / (good * rated)

/-! ### Choosing dies and blocks (R268, R367, R374) -/

/-- The block of lowest pe of some blocks (R367). -/
def Dev.lowestPe (d : Dev) (pool module die : Nat) : List Nat → Option Nat
  | [] => none
  | b :: t => match d.lowestPe pool module die t with
    | some c => if ((d.pool pool).block module die c).pe < ((d.pool pool).block module die b).pe then some c else some b
    | none => some b

/-- The block of highest pe of some blocks, for what static wear levelling copies (R374). -/
def Dev.highestPe (d : Dev) (pool module die : Nat) : List Nat → Option Nat
  | [] => none
  | b :: t => match d.highestPe pool module die t with
    | some c => if ((d.pool pool).block module die b).pe < ((d.pool pool).block module die c).pe then some c else some b
    | none => some b

/-- What a stripe is opened for (R368): slots of writes some of which are not acknowledged, acknowledged slots only, copies of reclamation,
relocation or rebuild, copies of a reshape. -/
inductive StripeUse where
  | fresh | acked | moved | reshaped
  deriving DecidableEq, Repr

/-- Whether a stripe holds copies. -/
def StripeUse.copy (u : StripeUse) : Bool := u == .moved || u == .reshaped

/-- The layout number of a stripe (R290). -/
def StripeUse.layout (u : StripeUse) : Nat := if u = .reshaped then 1 else 0

/-- A block to open on a plane that may give one with so many free. [DESIGN CHOICE: log 27] -/
def Dev.pickBlock (d : Dev) (pool module die plane : Nat) (gives : Nat → Bool) (worn : Bool := false) : Option Nat :=
  let l := d.freeBlocks pool module die plane
  if !gives l.length then none else if worn then d.highestPe pool module die l else d.lowestPe pool module die l

/-- Whether a plane with so many free blocks gives one for a use (R283, R368): what rebuild, reclamation and relocation place takes all but
the Wadi drain blocks, any other stripe leaves the erase reserve and the Oasis spare too, and a stripe of acknowledged slots alone takes
the reserve where the plane has no other free block. [DEDUCED: log 99] -/
def Dev.planeGives (d : Dev) (p : PoolRec) (module die : Nat) (u : StripeUse) (free : Nat) : Bool :=
  let planes := ((d.recOf module).map (·.planes)).getD 1
  let k := d.drainPerPlane p module
  let other := k + 2 + ceilDiv (d.goodBlocks module die * p.oasisPct) (100 * planes)
  match u with
  | .moved => decide (k < free)
  | .fresh | .reshaped => decide (other < free)
  | .acked => decide (other < free) || (decide (k < free) && decide (free ≤ k + 2))

/-- A band opened on a die takes blocks of its Oasis erase reserve where a plane has no other free block (R368). [DEDUCED: log 99] -/
def Dev.fromReserve (d : Dev) (p : PoolRec) (module die : Nat) : Bool :=
  let planes := ((d.recOf module).map (·.planes)).getD 1
  (List.range planes).any (fun q => decide ((d.freeBlocks p.poolId module die q).length ≤ 2 + d.drainPerPlane p module))

/-- The blocks to open on a die, one on each plane. -/
def Dev.pickBlocks (d : Dev) (p : PoolRec) (module die : Nat) (u : StripeUse) : Option (List Nat) :=
  let planes := ((d.recOf module).map (·.planes)).getD 1
  (List.range planes).mapM (fun q => d.pickBlock p.poolId module die q (d.planeGives p module die u) (u == .moved && (d.pool p.poolId).wlActive))

/-- The die of a module that wear placement prefers (R374): mean pe within V of the lowest, shortest queue, lowest number. -/
def Dev.pickDie (d : Dev) (p : PoolRec) (module : Nat) (u : StripeUse) : Option (Nat × List Nat) :=
  let ok := (d.poolDies p).filterMap (fun m => if m.1 = module ∧ !(match d.laneOf module with
    | some l => (d.die l m.2).starved
    | none => true) then (d.pickBlocks p module m.2 u).map (fun b => (m.2, b)) else none)
  let wear := fun (x : Nat × List Nat) => d.meanPe p.poolId module x.1
  let low := match ok with
    | [] => 0
    | x :: t => t.foldl (fun a y => min a (wear y)) (wear x)
  let eq_ := ok.filter (fun x => decide (wear x ≤ low + (d.pool p.poolId).wlV))
  let q (x : Nat × List Nat) : Nat := match d.laneOf module with
    | some l => (d.die l x.1).queue.length + (d.atBridge l x.1).length
    | none => 0
  eq_.foldl (fun (a : Option (Nat × List Nat)) x => match a with
    | some y => if q x < q y then some x else some y
    | none => some x) none

/-- A pool's geometry for new stripes: the target's while a reshape is under way (R53, R289), else the recorded one. -/
def Pool.geometry (p : Pool) : Nat × Nat := match p.reshape with
  | some r => (r.data, r.parity)
  | none => (p.data, p.parity)

/-- The members a new band would take outside some modules: W modules from a rotating start, one die on each. [DESIGN CHOICE: log 27] -/
def Dev.pickMembers (d : Dev) (p : PoolRec) (width : Nat) (u : StripeUse) (avoid : List Nat := []) : Option (List (Nat × Nat × List Nat)) :=
  let mods := p.mods.filter (fun m => !avoid.contains m)
  let start := if mods.length = 0 then 0 else (d.pool p.poolId).nextBand % mods.length
  let l := ((mods.drop start ++ mods.take start).filterMap (fun m => (d.pickDie p m u).map (fun x => (m, x.1, x.2)))).take width
  if l.length < width then none else some l

/-! ### Parity and member pages (R272, R273) -/

/-- Multiplication by g = 2 in GF(2^8) with 0x11D. -/
def gfDouble (x : Nat) : Nat := if 128 ≤ x then (2 * x) ^^^ 0x11D else 2 * x

/-- Multiply by g^n. -/
def gfPow : Nat → Nat → Nat
  | 0, x => x
  | n + 1, x => gfPow n (gfDouble x)

/-- Octet-wise sum over members of g^(e·i) times each: P with e = 0, Q with 1, T with 2. -/
def parityBytes (e : Nat) (members : List Bytes) : Bytes :=
  ((List.range members.length).zip members).foldl (fun acc m =>
    if acc.isEmpty then m.2.map (fun b => b8 (gfPow (e * m.1) b.toNat))
    else xorBytes acc (m.2.map (fun b => b8 (gfPow (e * m.1) b.toNat)))) []

/-- Slots of one data member in slot order. -/
def Stripe.slotsOf (s : Stripe) (member : Nat) : List StripeSlot := s.slots.filter (fun x => x.member == member)

/-- Page data of a data member: its slots, then zeros (R174). -/
def Stripe.pageData (s : Stripe) (member : Nat) : Bytes :=
  sliceZ ((s.slotsOf member).flatMap (·.image)) 0 (s.pageKib * 1024)

/-- Footer bytes 64 to 1,023 of a data member: descriptors, back references, body_crc. -/
def Stripe.footerBody (s : Stripe) (member : Nat) : Bytes :=
  let l := s.slotsOf member
  let ds := sliceZ (l.flatMap (fun x => descBytes x.desc)) 0 512
  let bs := sliceZ (l.flatMap (fun x => leBytes 2 x.nsid ++ leBytes 6 x.lba)) 0 256
  let body := ds ++ bs ++ zeros 188
  body ++ leBytes 4 (crc32c body)

/-- Footer header of a member (R272). -/
def Stripe.footerHead (s : Stripe) (pool role index count : Nat) : Bytes :=
  let h := [b8 0x4D, b8 0x53, b8 0x53, b8 0x50, b8 1, b8 pool, b8 role, b8 index] ++ leBytes 8 s.seq ++
    [b8 s.data, b8 s.parity, b8 s.pageKib, b8 count, b8 s.layout] ++ zeros 3 ++ leBytes 8 s.generation ++ [b8 s.head] ++ zeros 27
  h ++ leBytes 4 (crc32c h)

/-- Page data and footer of member `i` of a stripe: data members, then P, Q and T. The LDPC parity that follows each codeword is the
device's own. -/
def Stripe.memberPage (s : Stripe) (pool i : Nat) : Bytes :=
  if i < s.data then s.pageData i ++ s.footerHead pool 0 i (s.slotsOf i).length ++ s.footerBody i
  else
    let e := i - s.data
    parityBytes e ((List.range s.data).map s.pageData) ++ s.footerHead pool (e + 1) 0 0 ++
      parityBytes e ((List.range s.data).map s.footerBody)

end Sys2Proof.Machine
end

