-- ==== Sys2Proof/Machine/Stripes.lean ====
section
/-! DEFINITION. The life of a stripe (R269 to R288): bands, filling, journal, programs and verify, seal, abandonment, loss of members,
rebuild; and copies of live slots for reclamation, relocation, wear levelling and reshape (R289 to R293, R370 to R375). -/
namespace Sys2Proof.Machine

/-- Change a block's information. -/
def Dev.onBlock (d : Dev) (pool module die b : Nat) (f : BlockInfo → BlockInfo) : Dev :=
  d.onPool pool (fun p => { p with blocks := Tab.updD (blockKey module die b) {} f p.blocks })

/-- Operating hours modulo 65,536 (R366). -/
def Dev.opHour (d : Dev) : Nat := d.boot.settings.opSeconds / 3600 % 65536

/-- Open a block for a use. -/
def Dev.openBlock (d : Dev) (pool module die b use band : Nat) : Dev :=
  let temp := match d.laneOf module with
    | some l => (d.die l die).band
    | none => 2
  d.onBlock pool module die b (fun x => { x with state := 1, use := use, band := band, nextPage := 0, progBand := temp,
                                                 progHour := d.opHour, worstDepth := 0, worstBits := 0 })

/-! ### Journal (R276, R277) -/

/-- Modules of a pool on which a die is available. -/
def Dev.modsUp (d : Dev) (p : PoolRec) : List Nat := p.mods.filter (fun m => (d.poolDies p).any (fun x => x.1 == m))

/-- A loose page on a die (R367): the next page of its open loose block of a purpose, or the first of a block opened for it; of the erase
reserve only for a rebuilt member (R368). -/
def Dev.loosePage (d : Dev) (p : PoolRec) (module die : Nat) (journal : Bool) : Option ((Nat × Nat) × Dev) :=
  let pages := ((d.recOf module).map (fun r => modPages r p.density)).getD 0
  let isOpen := fun (e : Nat × BlockInfo) => decide (e.1 / 8192 = dieKey module die) && e.2.use == 1 && e.2.state == 1 && e.2.journal == journal
  match List.find? isOpen (d.pool p.poolId).blocks with
  | some e =>
    let b := e.1 % 8192
    some ((b, e.2.nextPage), d.onBlock p.poolId module die b (fun x =>
      { x with nextPage := x.nextPage + 1, state := if x.nextPage + 1 < pages then 1 else 2 }))
  | none =>
    let planes := ((d.recOf module).map (·.planes)).getD 1
    match (List.range planes).findSome? (fun q => d.pickBlock p.poolId module die q (fun n => decide (d.drainPerPlane p module + (if journal then 2 else 0) < n))) with
    | some b =>
      let d := d.openBlock p.poolId module die b 1 0
      some ((b, 0), d.onBlock p.poolId module die b (fun x => { x with nextPage := 1, journal := journal }))
    | none => none

/-- A die of a module on which a loose page can be had. -/
def Dev.looseDie (d : Dev) (p : PoolRec) (module : Nat) (journal : Bool) : Option (Nat × (Nat × Nat) × Dev) :=
  (d.poolDies p).findSome? (fun m => if m.1 = module then (d.loosePage p module m.2 journal).map (fun r => (m.2, r.1, r.2)) else none)

/-- Write one copy of a journal page to a module. -/
def Dev.journalCopy (d : Dev) (p : PoolRec) (module : Nat) (data : Bytes) :
    Option (Nat × Nat × Nat × Nat) × Dev :=
  match d.looseDie p module true with
  | some (die, at_, d) => (some (module, die, at_.1, at_.2),
    d.submitTo module { op := .program, die := die, block := at_.1, page := at_.2, use := .journal p.poolId module,
                         data := rawPage p.pageKib data })
  | none => (none, d)

/-- The octets of a journal page (R272, R277): packed records, then a member footer with layout 2. The spec gives no stripe to its stripe_seq:
free. [DESIGN CHOICE: log 29] -/
def Dev.journalOctets (d : Dev) (p : PoolRec) (records : Bytes) : Bytes × Dev :=
  let q := d.pool p.poolId
  let s : Stripe := { seq := d.fresh.1 % 2 ^ 64, data := q.data, parity := q.parity, pageKib := p.pageKib, layout := 2,
                      generation := d.img.generation, head := d.headNo }
  (sliceZ records 0 (p.pageKib * 1024) ++ s.footerHead p.poolId 0 0 0 ++ s.footerBody 0, d.fresh.2)

/-- The octets of a journal record (R276); of a member moved, its slot byte stands where others give the page size. -/
def journalBytes (p : Pool) (pool : Nat) (r : JournalRec) : Bytes :=
  let s := List.find? (fun (e : Nat × Stripe) => e.2.seq == r.seq) p.stripes
  let st := (s.map (·.2)).getD { seq := r.seq, data := 0, parity := 0, pageKib := 0 }
  let slot := fun (m : MemberAddr) => b8 (m.role * 64 + m.index)
  let addr := fun (m : MemberAddr) => [b8 m.module, b8 m.die] ++ leBytes 2 m.block ++ leBytes 2 m.page ++ [b8 m.state, slot m]
  let geo := r.typ != 4 && r.typ != 5
  let tail := if r.typ = 1 then st.members.flatMap addr else match r.member with | some m => addr m | none => []
  [b8 r.typ, b8 pool] ++ leBytes 2 (16 + tail.length) ++ [b8 (if geo then st.data else 0), b8 (if geo then st.parity else 0),
    match r.member with | some m => slot m | none => b8 st.pageKib, b8 st.layout] ++ leBytes 8 r.seq ++ tail

/-- Write the pool's waiting records as a journal page, in two copies on two modules that rotate; modules of stripes opened in the page
are avoided where the pool is wide enough (R277). -/
def Dev.journalPage (d : Dev) (pool : Nat) : Dev :=
  match d.img.pool? pool with
  | none => d
  | some p =>
    let q := d.pool pool
    if q.journal.isEmpty then d else
    let opened := (q.journal.filter (fun r => r.typ == 1)).flatMap (fun r =>
      match List.find? (fun (e : Nat × Stripe) => e.2.seq == r.seq) q.stripes with
      | some e => e.2.members.map (·.module)
      | none => [])
    let mods := d.modsUp p
    let start := if mods.length = 0 then 0 else q.journalPages % mods.length
    let rot := mods.drop start ++ mods.take start
    let order := rot.filter (fun m => !opened.contains m) ++ rot.filter (fun m => opened.contains m)
    let two := order.take 2
    let records := q.journal.flatMap (journalBytes q pool)
    let o := d.journalOctets p records
    let r := two.foldl (fun (r : List (Nat × Nat × Nat × Nat) × Dev) m => match r.2.journalCopy p m o.1 with
      | (some x, d) => (r.1 ++ [x], d)
      | (none, d) => (r.1, d)) ([], o.2)
    let d := r.2
    let live (seqs : List Nat) : Bool := List.any q.stripes (fun (e : Nat × Stripe) =>
      seqs.contains e.2.seq && (e.2.state == .assembling || e.2.state == .programming))
    let page : JournalKept := { seqs := q.journal.map (·.seq), data := records, copies := r.1 }
    let d := d.onPool pool (fun q => { q with journalKept := q.journalKept.filter (fun k => live k.seqs) ++ [page] })
    let d := d.onPool pool (fun q => { q with journal := [], journalAt := none, journalPages := q.journalPages + 1,
                                              singleCopy := decide (r.1.length < 2) })
    let d := if decide (r.1.length < 2) && !q.singleCopy then d.event 14 .journalSingleCopy [pool] else d
    d.bump F.STR_journal_pages

/-- Add a record to the pool's journal; a page of 16 KiB that has no room for it is written first. -/
def Dev.journal (d : Dev) (pool : Nat) (r : JournalRec) : Dev :=
  let q := d.pool pool
  let size := ((q.journal ++ [r]).map (fun x => (journalBytes q pool x).length)).sum
  let d := if 16384 < size then d.journalPage pool else d
  d.onPool pool (fun q => { q with journal := q.journal ++ [r], journalAt := some (q.journalAt.getD d.pow.aon) })

/-- A copy of a journal page is not to be read (R278): the page has a copy less, and is written again. -/
def Dev.journalCopyBad (d : Dev) (pool module die block page : Nat) : Dev :=
  (d.onPool pool (fun q => { q with
    singleCopy := true
    journalKept := q.journalKept.map (fun k => { k with copies := k.copies.filter (· != (module, die, block, page)) }) })).event 14
      .journalSingleCopy [pool]

/-! ### Opening and filling (R267 to R271) -/

/-- Parity lines of the head's assembling stripes (R271). -/
def Dev.parityLines (d : Dev) : Nat :=
  (d.fl.pools.map (fun e => (e.2.stripes.map (fun s =>
    if s.2.state == .assembling then s.2.parity * s.2.pageKib / 4 else 0)).sum)).sum

/-- The first line of a stripe's parity pages in the in-progress area. -/
def Dev.parityFirst (d : Dev) (pool i : Nat) : Nat := parityLine (d.img.ownMib d.headNo) pool i

/-- A band still takes a stripe of a width for a use: one with blocks of the erase reserve only what those are granted to (R368). -/
def Dev.bandUsable (d : Dev) (width : Nat) (u : StripeUse) (b : Band) : Bool :=
  (!b.reserve || u == .moved || u == .acked) && b.dies.length == width && decide (b.next < b.planes * b.pages) && b.dies.all (fun m => d.dieAvail m.1 m.2)

/-- Modules that the journal page being filled may keep no copy on (R277): those of stripes opened in it, and of stripes assembling. -/
def Pool.pageMods (q : Pool) : List Nat :=
  ((List.filter (fun (e : Nat × Stripe) => e.2.state == .assembling || q.journal.any (fun r => r.typ == 1 && r.seq == e.2.seq)) q.stripes).flatMap
    (fun e => e.2.members.map (·.module))).eraseDups

/-- Modules that the placer keeps out of the stripes of a journal page, for its copies (R277): two where the pool spans at least W + 2
modules, one where it spans W + 1. -/
def Dev.journalSpare (d : Dev) (p : PoolRec) (width : Nat) : List Nat :=
  let q := d.pool p.poolId
  let up := d.modsUp p
  let start := if up.length = 0 then 0 else q.journalPages % up.length
  ((up.drop start ++ up.take start).filter (fun m => !q.pageMods.contains m)).take (min 2 (up.length - width))

/-- A stripe on some modules leaves the modules of the journal page's copies free (R277). -/
def Dev.keepsJournal (d : Dev) (p : PoolRec) (width : Nat) (mods : List Nat) : Bool :=
  let used := (d.pool p.poolId).pageMods
  let up := d.modsUp p
  used.isEmpty || mods.all (fun m => used.contains m) ||
    decide (min 2 (up.length - width) ≤ (up.filter (fun m => !(used ++ mods).contains m)).length)

/-- The members a new band takes (R268, R277): modules of the journal page's copies stay out of it; only where no stripe of that page uses any
module yet may it take them where it finds no other. -/
def Dev.newMembers (d : Dev) (p : PoolRec) (width : Nat) (u : StripeUse) : Option (List (Nat × Nat × List Nat)) :=
  let spare := d.journalSpare p width
  (if (d.pool p.poolId).pageMods.isEmpty then [spare, spare.take 1, []] else [spare]).findSome? (fun s => d.pickMembers p width u s)

/-- Blocks of a band as (module, die, block). -/
def Band.all (b : Band) : List (Nat × Nat × Nat) :=
  ((b.dies.zip b.blocks).map (fun x => x.2.map (fun k => (x.1.1, x.1.2, k)))).flatten

/-- A band that takes no more stripes: its blocks are full. -/
def Dev.closeBand (d : Dev) (pool : Nat) (b : Band) : Dev :=
  b.all.foldl (fun (d : Dev) x => d.onBlock pool x.1 x.2.1 x.2.2 (fun i => if i.state = 1 then { i with state := 2 } else i)) d

/-- Put a pool's ordinary or copy band. -/
def Dev.setBand (d : Dev) (pool : Nat) (copy : Bool) (b : Option Band) : Dev :=
  d.onPool pool (fun p => if copy then { p with copyBand := b } else { p with band := b })

/-- A band for a stripe of a width: the open one, or a new one on dies chosen under R268; none while that would take the modules that the
journal page's copies need (R277). -/
def Dev.bandFor (d : Dev) (p : PoolRec) (width : Nat) (u : StripeUse) : Option (Band × Dev) :=
  let q := d.pool p.poolId
  let copy := u.copy
  let cur := if copy then q.copyBand else q.band
  match cur.filter (d.bandUsable width u) with
  | some b => if d.keepsJournal p width (b.dies.map (·.1)) then some (b, d) else none
  | none =>
    match d.newMembers p width u with
    | none => none
    | some l =>
      let m := l.headD (0, 0, [])
      let res := if u = .moved ∨ u = .acked then (l.filter (fun x => d.fromReserve p x.1 x.2.1)).length else 0
      let b : Band := { num := q.nextBand, dies := l.map (fun x => (x.1, x.2.1)), blocks := l.map (·.2.2), planes := m.2.2.length,
                        pages := ((d.recOf m.1).map (fun r => modPages r p.density)).getD 0, copy := copy, reserve := res != 0 }
      let d := if res = 0 then d else d.bump F.FTL_reserve_grants res
      let d := match cur with | some c => d.closeBand p.poolId c | none => d
      let d := b.all.foldl (fun (d : Dev) x => d.openBlock p.poolId x.1 x.2.1 x.2.2 0 b.num) d
      some (b, (d.onPool p.poolId (fun q => { q with nextBand := q.nextBand + 1 })).setBand p.poolId copy (some b))

/-- Open a stripe of a pool in a geometry for a use; where no W modules hold an available die none is opened, and a pool's own writes
are held (R268). -/
def Dev.openStripe (d : Dev) (p : PoolRec) (geo : Nat × Nat) (u : StripeUse) : Option Nat × Dev :=
  let w := geo.1 + geo.2
  let copy := u.copy
  if 4096 < d.parityLines + geo.2 * p.pageKib / 4 || !d.areaFits 0 (geo.2 * p.pageKib * 1024) then (none, d) else
  match d.bandFor p w u with
  | none =>
    if copy || (d.pool p.poolId).writesHeld || (d.pool p.poolId).band.any (d.bandUsable w u) || (d.pickMembers p w u).isSome then (none, d)
    else (none, (d.onPool p.poolId (fun q => { q with writesHeld := true })).event 14 .writesHeld [p.poolId])
  | some (b, d) =>
    let q := d.pool p.poolId
    let addr := fun (x : Nat × ((Nat × Nat) × List Nat)) => ({
      module := x.2.1.1, die := x.2.1.2, block := x.2.2.getD (b.next % b.planes) 0, page := b.next / b.planes,
      role := if x.1 < geo.1 then 0 else x.1 - geo.1 + 1, index := if x.1 < geo.1 then x.1 else 0 } : MemberAddr)
    let s : Stripe := { seq := q.nextSeq, data := geo.1, parity := geo.2, pageKib := p.pageKib, layout := u.layout,
                        generation := d.img.generation, head := d.headNo, band := b.num, copy := copy, reserve := b.reserve,
                        members := ((List.range w).zip (b.dies.zip b.blocks)).map addr }
    let b := { b with next := b.next + 1 }
    let d := d.onPool p.poolId (fun q => { q with stripes := Tab.put q.nextIdx s q.stripes, nextIdx := q.nextIdx + 1,
                                                  nextSeq := q.nextSeq + 1 })
    let d := if b.next < b.planes * b.pages then d.setBand p.poolId copy (some b)
      else (d.closeBand p.poolId b).setBand p.poolId copy none
    (some q.nextIdx, d.scParityOpen (d.parityFirst p.poolId q.nextIdx) (geo.2 * p.pageKib / 4))

/-- Whether a pool's own writes are held now: no band is open that serves, and fewer than W modules hold an available die (R268). -/
def Dev.cannotOpen (d : Dev) (p : PoolRec) : Bool :=
  let q := d.pool p.poolId
  let w := q.geometry.1 + q.geometry.2
  !q.band.any (d.bandUsable w .fresh) && (d.pickMembers p w .fresh).isNone

/-- Every owned pool is judged for R268; an event where its writes begin to be held after the first training of the lanes. -/
def Dev.settleHeld (d : Dev) : Dev :=
  d.ownedPools.foldl (fun (d : Dev) p =>
    let held := d.cannotOpen p
    let was := (d.pool p.poolId).writesHeld
    let d := d.onPool p.poolId (fun q => { q with writesHeld := held })
    if held && !was && d.stg.judged then d.event 14 .writesHeld [p.poolId] else d) d

/-- Where the next slot of so many units goes in a stripe (R174, R269): member, slot number, offset. -/
def Stripe.place (s : Stripe) (units : Nat) : Option (Nat × Nat × Nat) :=
  let m := (s.slots.getLast?.map (·.member)).getD 0
  let l := s.slotsOf m
  let used := (l.map (fun x => descCls x.desc)).sum
  if used + units ≤ s.pageKib ∧ l.length < 32 then some (m, l.length, used)
  else if m + 1 < s.data then some (m + 1, 0, 0) else none

/-- Whether a stripe's data members are full. -/
def Stripe.isFull (s : Stripe) : Bool :=
  decide (((s.slotsOf (s.data - 1)).map (fun x => descCls x.desc)).sum = s.pageKib) ||
    decide ((s.slotsOf (s.data - 1)).length = 32)

/-- Put a slot into a stripe with its source. -/
def Stripe.add (s : Stripe) (x : StripeSlot) (src : Loc) (at_ : Nat × Nat × Nat) : Stripe :=
  let s := { s with slots := s.slots ++ [{ x with member := at_.1, slot := at_.2.1, off := at_.2.2 }], srcs := s.srcs ++ [src] }
  { s with closed := s.isFull }

/-- The stripe of a pool that takes more slots of a use; slots not acknowledged go into none in blocks of the erase reserve (R368). -/
def Pool.assembling (p : Pool) (u : StripeUse) : Option (Nat × Stripe) :=
  List.find? (fun (e : Nat × Stripe) => e.2.state == .assembling && !e.2.closed && e.2.copy == u.copy && e.2.layout == u.layout &&
    !(u == .fresh && e.2.reserve)) p.stripes

/-- Place a slot of a source into the pool's assembling stripe, opening one where needed. A stripe without room is closed first.
Answers the stripe it went to. -/
def Dev.placeSlot (d : Dev) (p : PoolRec) (geo : Nat × Nat) (u : StripeUse) (x : StripeSlot) (src : Loc) :
    Option Nat × Dev :=
  let put (d : Dev) : Option Nat × Dev :=
    match d.openStripe p geo u with
    | (some i, d) => match d.stripe p.poolId i with
      | some s => match s.place (descCls x.desc) with
        | some a => (some i, d.onStripe p.poolId i (fun s => s.add x src a))
        | none => (none, d)
      | none => (none, d)
    | (none, d) => (none, d)
  match (d.pool p.poolId).assembling u with
  | some (i, s) => match s.place (descCls x.desc) with
    | some a => (some i, d.onStripe p.poolId i (fun s => s.add x src a))
    | none => put (d.onStripe p.poolId i (fun s => { s with closed := true }))
  | none => put d

/-- Write identities of one stream in order. -/
def widLt (a b : WriteId) : Bool := decide (a.seq < b.seq) || (a.seq == b.seq && decide (a.block < b.block))

/-- The pool's staged slots that no stripe holds yet: adopted ones first (R226), then in the order they were coded. -/
def Dev.unplaced (d : Dev) (pool : Nat) : List (Nat × Staged) :=
  let l := List.filter (fun (e : Nat × Staged) => e.2.stripe.isNone && d.poolOf e.2.nsid == pool) d.stg.slots
  l.filter (fun e => e.2.adopted) ++ l.filter (fun e => !e.2.adopted)

/-- The slot to place next: within a stream in ascending write identity, a block not coded yet holding back later ones, and a block that
waits for the peer's confirmation not placed before it (R16). -/
def Dev.nextToPlace (d : Dev) (pool : Nat) : Option (Nat × Staged) :=
  let l := d.unplaced pool
  l.find? (fun e => !d.awaitsPeer e.1 &&
    !(l.any (fun f => f.2.wid.stream == e.2.wid.stream && widLt f.2.wid e.2.wid)) &&
    !(d.stg.ingest.any (fun f => !f.2.staged && f.2.wid.stream == e.2.wid.stream && widLt f.2.wid e.2.wid)))

/-- A staged slot belongs to an acknowledged write. -/
def Dev.slotAcked (d : Dev) (s : Staged) : Bool := s.adopted || ((Tab.find? s.write d.stg.writes).map (·.acked)).getD true

/-- Fill stripes of a pool from staging, slot by slot. -/
def fillLoop (p : PoolRec) : Nat → Dev → Dev
  | 0, d => d
  | f + 1, d => match d.nextToPlace p.poolId with
    | none => d
    | some (n, s) =>
      let x : StripeSlot := { member := 0, slot := 0, off := 0, nsid := s.nsid, lba := s.lba, wid := s.wid, desc := s.desc,
                              image := s.image, plain := s.plain, fp := s.fp }
      match d.placeSlot p (d.pool p.poolId).geometry (if d.slotAcked s then .acked else .fresh) x (.staged n) with
      | (some i, d) => fillLoop p f (d.onStg (fun t => { t with slots := Tab.upd n (fun s => { s with stripe := some (p.poolId, i) }) t.slots }))
      | (none, d) => d

/-- Fill the stripes of every owned pool. -/
def Dev.fillStripes (d : Dev) : Dev :=
  d.ownedPools.foldl (fun (d : Dev) p => fillLoop p (d.unplaced p.poolId).length d) d

/-- STRIPE_FILL_TIMEOUT (R270): an assembling stripe is closed with zero padding. -/
def Dev.closeStripe (d : Dev) (pool i : Nat) : Dev :=
  match d.stripe pool i with
  | some s => if s.state == .assembling && !s.closed then d.onStripe pool i (fun s => { s with closed := true }) else d
  | none => d

/-! ### Failure while programming (R274, R350) -/

/-- The place of the stripe with a number in a pool's table. -/
def Dev.stripeAt (d : Dev) (pool seq : Nat) : Option Nat :=
  (List.find? (fun (e : Nat × Stripe) => e.2.seq == seq) (d.pool pool).stripes).map (·.1)

/-- STRIPE_FILL_TIMEOUT (R270): fill_us has passed since the first slot of an assembling stripe. -/
def Dev.stripeFillTimeout (d : Dev) (pool seq : Nat) : Dev :=
  match d.stripeAt pool seq with
  | none => d
  | some i =>
    if d.owns pool && (d.stripe pool i).any (fun s => s.state == .assembling && !s.closed) then
      (d.bump F.STR_fill_timeouts).closeStripe pool i
    else d

/-- A stripe is abandoned: its slots go to a new stripe, from staging or from their copies. -/
def Dev.abandon (d : Dev) (pool i : Nat) : Dev :=
  match d.stripe pool i with
  | none => d
  | some s =>
    if s.state != .programming && s.state != .assembling then d else
    let d := d.scParityEnd (d.parityFirst pool i) (s.parity * s.pageKib / 4) false
    let d := d.onStg (fun t => { t with slots := Tab.mapV (fun (x : Staged) =>
      if x.stripe = some (pool, i) then { x with stripe := none } else x) t.slots })
    let d := d.onPool pool (fun p => { p with
      copies := Tab.mapV (fun (c : CopyJob) => if c.stripe = some i then { c with stripe := none } else c) p.copies })
    let d := d.onStripe pool i (fun s => { s with state := .abandoned, slots := [], srcs := [] })
    ((d.journal pool { typ := 3, seq := s.seq }).bump F.STR_stripes_abandoned).event 14 .stripeAbandoned [pool, s.seq]

/-- Blocks of a die that the pool's block information marks with a state (R366). -/
def Dev.blocksIn (d : Dev) (pool module die state : Nat) : List Nat :=
  (List.filter (fun (e : Nat × BlockInfo) => e.1 / 8192 == dieKey module die && e.2.state == state) (d.pool pool).blocks).map (fun e => e.1 % 8192)

/-- The die record is updated (R348): copy A of the first pair after the last written page, a read back, then copy B; where block 0 has no
room left the die is option_full. Blocks whose erase was cut short are marked as they stand. [DESIGN CHOICE: log 124] -/
def Dev.optionUpdate (d : Dev) (lane die : Nat) : Dev :=
  match (d.die lane die).record, d.modRec lane with
  | some r, some m =>
    let page := 2 + 2 * (d.die lane die).pairs
    let module := (d.lane lane).module
    let cut := ((d.poolOfDie module die).map (fun p => d.blocksIn p.poolId module die 4)).getD r.eraseIncomplete
    let r := { r with gen := r.gen + 1, eraseIncomplete := cut }
    let d := d.onDie lane die (fun x => { x with record := some r })
    if page + 1 < modPages m 1 then
      let d := d.onDie lane die (fun x => { x with pairs := x.pairs + 1 })
      (d.submit lane { op := .program, die := die, block := 0, page := page, use := .option 0,
                       data := optionPage m.pageKib (dieRecBytes r) }).bump F.FLX_option_updates
    else if d.on (F.FLX_L_STAT_option_full.at lane) then d
    else (d.set (F.FLX_L_STAT_option_full.at lane) 1).event 16 .optionFull [lane, die]
  | _, _ => d

/-- A block becomes grown-bad (R350): marked, its band closed, never erased or programmed again. -/
def Dev.growBad (d : Dev) (module die b : Nat) : Dev :=
  match d.laneOf module with
  | none => d
  | some l =>
    let pool := ((d.poolOfDie module die).map (·.poolId)).getD 16
    let was := ((d.die l die).record.map (fun r => r.grownBad.contains b)).getD true
    if was then d else
    let d := d.onDie l die (fun x => { x with record := x.record.map (fun r => { r with grownBad := r.grownBad ++ [b] }) })
    let d := d.onBlock pool module die b (fun x => { x with state := 5 })
    let has := fun (o : Option Band) => o.filter (fun k => k.all.contains (module, die, b))
    let q := d.pool pool
    let d := match has q.band with | some k => (d.closeBand pool k).setBand pool false none | none => d
    let d := match has q.copyBand with | some k => (d.closeBand pool k).setBand pool true none | none => d
    ((d.bump F.FLX_grown_bad_blocks).event 16 .grownBad [module, die, b]).optionUpdate l die

/-! ### Members lost and found (R281, R284, R287) -/

/-- Entries of the lost-stripe table (R288). -/
def lostCap : Nat := 1048576

/-- What names a location, directly or through an index entry: map entries, and entries of retained Cairns. [DEDUCED: log 60] -/
def Dev.namesOf (d : Dev) (pool : Nat) (l : Loc) : List (Nat × Nat × Option Nat) :=
  let hit (m : Nat × Loc) : Bool := m.2 == l || (match m.2 with
    | .ref _ k => ((Tab.find? k (d.pool pool).index).map (·.loc)) == some l
    | _ => false)
  d.snp.nss.flatMap (fun e => if d.poolOf e.1 = pool then
    (List.filter hit e.2.map).map (fun m => (e.1, m.1, none)) ++
      e.2.retMaps.flatMap (fun r => (List.filter hit r.2).map (fun m => (e.1, m.1, some r.1)))
    else [])

/-- The pool's namespaces lose the blocks of a location: every map entry that names it turns unrecovered, and an index entry's slot is
lost with them. Answers what named it. -/
def Dev.loseLoc (d : Dev) (pool : Nat) (l : Loc) : List (Nat × Nat × Option Nat) × Dev := (d.namesOf pool l, d.moveLoc pool l .lost)

/-- A name still refers to an unrecovered block. [DEDUCED: log 60] -/
def Dev.stillLost (d : Dev) (pool : Nat) (n : Nat × Nat × Option Nat) : Bool :=
  let x := d.ns n.1
  match n.2.2 with
  | none => (d.pool pool).resolve (Tab.getD x.map n.2.1 .dealloc) == .lost
  | some k => x.retained.contains k && (d.pool pool).resolve (Tab.getD (Tab.getD x.retMaps k []) n.2.1 .dealloc) == .lost

/-- Entries of the lost-stripe table whose unrecovered blocks nothing references are removed (R288). [DEDUCED: log 60] -/
def Dev.trimLost (d : Dev) (pool : Nat) : Dev :=
  if d.fl.lost.isEmpty then d
  else { d with fl := { d.fl with lost := d.fl.lost.filter (fun e => e.pool != pool || e.names.any (d.stillLost pool)) } }

/-- Locations of the slots of a member. -/
def Stripe.memberLocs (s : Stripe) (i member : Nat) : List (StripeSlot × Loc) :=
  (s.slotsOf member).map (fun x => (x, .stored (descCls x.desc) x.member x.slot x.off i))

/-- Whether anything names a location: a map, a retained map, an index entry (R370). -/
def Dev.isLive (d : Dev) (pool : Nat) (l : Loc) : Bool :=
  d.snp.nss.any (fun e => d.poolOf e.1 == pool && (e.2.map.any (fun m => m.2 == l) ||
    e.2.under.any (fun m => m.2 == l) || e.2.epoch.any (fun b => b.loc == l && !e.2.superseded b) ||
    e.2.closedMap.any (fun m => m.2 == l) || e.2.retMaps.any (fun r => r.2.any (fun m => m.2 == l)) ||
    e.2.epochMaps.any (fun r => r.2.any (fun m => m.2 == l)) || e.2.landing.any (fun g => g.entries.any (fun y => y.2 == l) ||
      g.closedEpochs.any (fun y => y.2.2.any (fun z => z.2 == l))))) || (d.pool pool).index.any (fun e => e.2.loc == l)

/-- Queue a copy of a live slot. -/
def Dev.addCopy (d : Dev) (pool layout : Nat) (x : StripeSlot × Loc) : Dev :=
  if !d.isLive pool x.2 || (d.pool pool).copies.any (fun c => c.2.src == x.2) then d
  else d.onPool pool (fun p => { p with copies := Tab.put p.nextCopy { src := x.2, slot := x.1, layout := layout } p.copies,
                                        nextCopy := p.nextCopy + 1 })

/-- A stripe is lost (R287): slots of lost data members are unrecovered, an entry goes into the table, slots of readable members are
copied to new stripes. -/
def Dev.loseStripe (d : Dev) (pool i : Nat) (s : Stripe) : Dev :=
  let out := (List.range s.members.length).filter (fun k => match s.members[k]? with | some m => d.memberOut m | none => true)
  let lostData := out.filter (fun k => k < s.data)
  let r := (lostData.flatMap (s.memberLocs i)).foldl (fun (a : List (Nat × Nat × Option Nat) × Dev) x =>
    let t := a.2.loseLoc pool x.2
    (a.1 ++ t.1, t.2)) ([], d)
  let mask := (out.map (fun k => if k < s.data then 2 ^ k else 2 ^ (32 + k - s.data))).sum
  let d := r.2.onStripe pool i (fun s => { s with state := .lost })
  let blocks := (r.1.filter (fun n => n.2.2.isNone)).length
  let e : LostStripe := { pool := pool, seq := s.seq, data := s.data, parity := s.parity, blocks := blocks, mask := mask, time := d.now,
                          names := r.1 }
  let d : Dev := { d with fl := { d.fl with lost := d.fl.lost.map (fun o => { o with names := o.names.filter (fun n => !r.1.contains n) }) } }
  let d : Dev := if d.fl.lost.length < lostCap then { d with fl := { d.fl with lost := d.fl.lost ++ [e] } }
    else (d.bump F.STR_lost_unlisted).event 14 .lostUnlisted [pool, s.seq]
  let d := (((d.bump F.STR_stripes_lost).bump F.STR_blocks_lost blocks).event 14 .stripeLost [pool, s.seq, mask]).raise 9
  (((List.range s.data).filter (fun k => !out.contains k)).flatMap (s.memberLocs i)).foldl (fun (d : Dev) x => d.addCopy pool 0 x) d

/-- Judge a stripe by its members again (R274, R281, R284): members that went are unavailable, members that came back and were not
rebuilt are good again; a stripe in Programming that lost one is abandoned. After a start no die counts as gone before the lanes'
first training is over. -/
def Dev.recheckStripe (d : Dev) (pool i : Nat) : Dev :=
  match d.stripe pool i with
  | none => d
  | some s =>
    let judge := fun (m : MemberAddr) =>
      if m.state = 5 ∨ !d.stg.judged then m
      else if !d.dieAvail m.module m.die then { m with state := 3 }
      else if m.state = 3 then { m with state := 2 } else m
    let new := s.members.map judge
    let out := (new.filter (fun m => m.state == 3 || m.state == 5)).length
    match s.state with
    | .programming => if out = 0 then d else d.abandon pool i
    | .healthy | .degraded =>
      let fresh := ((s.members.zip new).filter (fun x => x.1.state != 3 && x.2.state == 3)).length
      let d := d.onStripe pool i (fun s => { s with members := new, state := if out = 0 then .healthy else .degraded })
      let d := if fresh = 0 then d else d.bump F.STR_member_failures fresh
      if s.parity < out then match d.stripe pool i with
        | some s => d.loseStripe pool i s
        | none => d
      else d
    | _ => d

/-- The copies of a journal page on dies that are available. -/
def Dev.goodCopies (d : Dev) (k : JournalKept) : List (Nat × Nat × Nat × Nat) := k.copies.filter (fun x => d.dieAvail x.1 x.2.1)

/-- A journal page with fewer than two good copies is written again to a module that holds none, and no member of its stripes where there is
one (R277, R278). -/
def Dev.journalMend (d : Dev) (p : PoolRec) (k : JournalKept) : JournalKept × Dev :=
  let good := d.goodCopies k
  if 2 ≤ good.length then (k, d) else
  let opened := (List.filter (fun (e : Nat × Stripe) => k.seqs.contains e.2.seq) (d.pool p.poolId).stripes).flatMap (fun e => e.2.members.map (·.module))
  let free := (d.modsUp p).filter (fun m => !k.copies.any (fun x => x.1 == m))
  match (free.filter (fun m => !opened.contains m) ++ free).head? with
  | none => (k, d)
  | some m =>
    let o := d.journalOctets p k.data
    match o.2.journalCopy p m o.1 with
    | (some x, d) => ({ k with copies := good ++ [x] }, (d.bump F.STR_journal_rewrites).event 14 .journalSingleCopy [p.poolId])
    | (none, _) => (k, d)

/-- The same for every journal page of an owned pool. -/
def Dev.journalMendAll (d : Dev) (p : PoolRec) : Dev :=
  let r := (d.pool p.poolId).journalKept.foldl (fun (r : List JournalKept × Dev) k =>
    let m := r.2.journalMend p k
    (r.1 ++ [m.1], m.2)) ([], d)
  r.2.onPool p.poolId (fun q => { q with journalKept := r.1, singleCopy := r.1.any (fun k => decide ((r.2.goodCopies k).length < 2)) })

/-- Judge every stripe of every pool again. -/
def Dev.recheckAll (d : Dev) : Dev :=
  d.fl.pools.foldl (fun (d : Dev) e => (e.2.stripes.map (·.1)).foldl (fun (d : Dev) i => d.recheckStripe e.1 i)
    (d.onPool e.1 (fun p => { p with stripes := Tab.mapV (fun (s : Stripe) => { s with unplaceable := false }) p.stripes }))) d

/-- A page is unreadable (R281): one error on its stripe; the block is queued for relocation at the head of the queue (R375). -/
def Dev.unreadable (d : Dev) (pool i member : Nat) : Dev :=
  match d.stripe pool i with
  | none => d
  | some s =>
    let d := d.onStripe pool i (fun s => { s with members := s.members.modify member (fun m => { m with state := 5 }) })
    let d := (d.bump F.STR_unreadable_pages).bump F.FTL_reloc_unreadable
    let v := match s.members[member]? with
      | some m => (d.pool pool).relocKey m.module m.die m.block
      | none => s.band
    let d := d.onPool pool (fun p => { p with relocQ := v :: p.relocQ.filter (· != v) })
    d.recheckStripe pool i

/-! ### Programs, verify, seal (R274, R334, R343) -/

/-- PARITY_COMPLETE (R274, R276): a closed stripe's open record is journaled and sent, and its members are programmed, once the in-progress
area has room for its member pages (R227). A stripe that has lost a die meanwhile is abandoned. -/
def Dev.parityComplete (d : Dev) (pool i : Nat) : Dev :=
  match d.stripe pool i with
  | none => d
  | some s =>
    if s.state != .assembling || !s.closed then d
    else if s.members.any (fun m => !d.dieAvail m.module m.die) then d.abandon pool i
    else if !d.areaFits 0 (s.data * s.pageKib * 1024) then d.onStripe pool i (fun s => { s with waits := true })
    else
      let d := d.scParityEnd (d.parityFirst pool i) (s.parity * s.pageKib / 4) true
      let d := (d.onStripe pool i (fun s => { s with state := .programming })).journal pool { typ := 1, seq := s.seq }
      let d := d.mirrorState (.journalOpen { pool := pool, seq := s.seq, data := s.data, parity := s.parity, pageKib := s.pageKib,
                                             layout := s.layout, generation := s.generation, members := s.members, slots := s.slots })
      (List.range s.members.length).foldl (fun (d : Dev) k => match s.members[k]? with
        | some m => d.submitTo m.module { op := .program, die := m.die, block := m.block, page := m.page, use := .program pool i k,
                                          data := rawPage s.pageKib (s.memberPage pool k) }
        | none => d) d

/-- Stripes whose parity is complete and that waited for room in the in-progress area are programmed. -/
def Dev.programWaiting (d : Dev) (p : PoolRec) : Dev :=
  (List.filter (fun (e : Nat × Stripe) => e.2.state == .assembling && e.2.waits) (d.pool p.poolId).stripes).foldl
    (fun (d : Dev) e => d.parityComplete p.poolId e.1) d

/-- PARITY_COMPLETE (R271) of the stripe with a number. -/
def Dev.parityDone (d : Dev) (pool seq : Nat) : Dev :=
  match d.stripeAt pool seq with
  | some i => if d.owns pool then d.parityComplete pool i else d
  | none => d

/-- The location a slot of a stripe has. -/
def slotLoc (i : Nat) (x : StripeSlot) : Loc := .stored (descCls x.desc) x.member x.slot x.off i

/-- A pool's reshape position moves to a stripe copied (R290): journaled and mirrored. -/
def Dev.reshapeAt (d : Dev) (pool seq : Nat) : Dev :=
  let d := d.onPool pool (fun p => { p with reshape := p.reshape.map (fun r => { r with position := max r.position seq }) })
  ((d.journal pool { typ := 5, seq := seq }).mirrorState (.reshape pool (.copied seq))).bump F.STR_reshape_stripes_copied

/-- Take one slot of a sealed stripe into the map: a staged slot's versions and a copy's sources are found at the new place; a reshape
copy goes into the reshape map; a source nothing names any more makes the copy stale. -/
def Dev.sealSlotMap (d : Dev) (pool i layout : Nat) (x : StripeSlot) (src : Loc) : Dev :=
  let dst := slotLoc i x
  match src with
  | .staged _ => d.moveLoc pool src dst
  | _ =>
    let d := if layout = 1 then d.onPool pool (fun p => { p with reshape := p.reshape.map (fun r => { r with map := Tab.put (locWord src) dst r.map }) })
      else if d.isLive pool src then d.moveLoc pool src dst else d.bump F.FTL_recl_stale_at_seal
    (d.onPool pool (fun p => { p with copies := p.copies.filter (fun c => c.2.src != src) }))

/-- Staged slots a stripe held. -/
def Stripe.stagedSlots (s : Stripe) : List Nat := s.srcs.filterMap (fun l => match l with | .staged n => some n | _ => none)

/-- The stripe is sealed (R20, R274, R361): map updated and mirrored, seal journaled, staging released on both heads. -/
def Dev.sealStripe (d : Dev) (pool i : Nat) : Dev :=
  match d.stripe pool i with
  | none => d
  | some s =>
    let d := d.onStripe pool i (fun s => { s with state := .healthy })
    let d := (s.slots.zip s.srcs).foldl (fun (d : Dev) x => d.sealSlotMap pool i s.layout x.1 x.2) d
    let deltas := if s.layout = 1 then [] else s.slots.map (fun x =>
      PeerOut.delta { pool := pool, stripeSeq := s.seq, nsid := x.nsid, lba := x.lba, loc := slotLoc i x, wid := x.wid,
                      stale := !d.isLive pool (slotLoc i x) })
    let d := deltas.foldl (fun (d : Dev) p => d.mirrorState p) d
    let d := d.journal pool { typ := 2, seq := s.seq }
    let d := d.mirrorState (.journalClose pool s.seq)
    let gone := s.stagedSlots
    let d := d.onStg (fun t => { t with slots := t.slots.filter (fun e => !gone.contains e.1) })
    let d := if s.copy then (d.bump F.FTL_recl_slots_copied s.slots.length).bump F.FTL_recl_bytes_copied
        (1024 * (s.slots.map (fun x => descCls x.desc)).sum) else d
    (d.onStripe pool i (fun s => { s with srcs := [] })).bump F.STR_stripes_sealed

/-- A stripe whose members are all verified seals, once no slot of it waits for the peer's confirmation (R16). -/
def Dev.sealIfDone (d : Dev) (pool i : Nat) : Dev :=
  match d.stripe pool i with
  | some s =>
    if s.state == .programming && s.members.all (fun m => m.state == 2) && !s.stagedSlots.any d.awaitsPeer then d.sealStripe pool i else d
  | none => d

/-- A member of a stripe is verified; with all of them the stripe seals. -/
def Dev.memberVerified (d : Dev) (pool i member : Nat) : Dev :=
  (d.onStripe pool i (fun s => { s with members := s.members.modify member (fun m => { m with state := 2 }) })).sealIfDone pool i

/-- Stripes that waited for a confirmation seal. -/
def Dev.sealWaiting (d : Dev) (p : PoolRec) : Dev :=
  (Tab.keys (d.pool p.poolId).stripes).foldl (fun (d : Dev) i => d.sealIfDone p.poolId i) d

/-- A member's program or verify failed lastingly: the block is grown-bad and the stripe abandoned (R274, R350). -/
def Dev.memberFailed (d : Dev) (pool i member : Nat) : Dev :=
  match d.stripe pool i with
  | none => d
  | some s =>
    let d := if s.copy then d.bump F.FTL_copy_target_fails else d
    let d := match s.members[member]? with
      | some m => d.growBad m.module m.die m.block
      | none => d
    d.abandon pool i

/-! ### Rebuild (R282, R283) -/

/-- Members of a stripe that are unavailable. -/
def Dev.outMembers (d : Dev) (s : Stripe) : List Nat :=
  (List.range s.members.length).filter (fun k => match s.members[k]? with | some m => d.memberOut m | none => true)

/-- A reshape has already copied an old-layout stripe, so that it is not rebuilt (R293). -/
def Pool.copied (p : Pool) (s : Stripe) : Bool :=
  p.reshape.any (fun r => s.layout == 0 && decide (s.seq < r.startSeq) && decide (s.seq ≤ r.position))

/-- Rebuild order (R282): fewest available members beyond D, then stripe sequence. -/
def rebuildBefore (d : Dev) (a b : Stripe) : Bool :=
  let x := (d.outMembers a).length
  let y := (d.outMembers b).length
  decide (a.parity - x < b.parity - y) || (a.parity - x == b.parity - y && decide (a.seq < b.seq))

/-- The stripe of a pool that rebuild serves next; a pause lets only stripes without redundancy go on (R45). [DESIGN CHOICE: log 28] -/
def Dev.rebuildNext (d : Dev) (pool : Nat) : Option (Nat × Stripe) :=
  let p := d.pool pool
  let pause := d.on F.SYS_MODE_CTL_rbld_pause
  (List.filter (fun (e : Nat × Stripe) => e.2.state == .degraded && !e.2.unplaceable && !p.copied e.2 &&
    (!pause || (d.outMembers e.2).length == e.2.parity)) p.stripes).foldl (fun (a : Option (Nat × Stripe)) e => match a with
      | none => some e
      | some b => if rebuildBefore d e.2 b.2 then some e else some b) none

/-- Start the next rebuild of a pool, one stripe at a time. A stripe rebuilt against a pause counts a clamp of the redundancy floor. -/
def Dev.rebuildStart (d : Dev) (pool : Nat) : Dev :=
  let under := d.fl.fetches.any (fun f => f.2.pool == pool && f.2.for_ == .rebuild) ||
    (d.pool pool).stripes.any (fun s => !s.2.rebuilding.isEmpty)
  if under || d.pow.drainGate then d else
  match d.rebuildNext pool with
  | none => d
  | some (i, s) =>
    if !d.areaFits 1 ((s.data + s.parity) * s.pageKib * 1024) then d else
    let d := if d.on F.SYS_MODE_CTL_rbld_pause then
        let d := (d.set (F.WDT_LOOP_STAT_clamped.at 3) 1).set (F.WDT_LOOP_STAT_source.at 3) 3
        ((d.bump (F.WDT_LOOP_CLAMPS_clamps.at 3)).event 0 .rebuildClamp [pool, s.seq]).raise 12
      else d
    d.startRebuildFetch pool i s

/-- The redundancy floor's override of loop 4 (R395) ends once no rebuild runs against a pause. -/
def Dev.floorEnd (d : Dev) : Dev :=
  if d.on (F.WDT_LOOP_STAT_clamped.at 3) && (!d.on F.SYS_MODE_CTL_rbld_pause || !(d.fl.fetches.any (fun f => f.2.for_ == .rebuild) ||
      d.fl.pools.any (fun p => p.2.stripes.any (fun s => !s.2.rebuilding.isEmpty)))) then d.set (F.WDT_LOOP_STAT_clamped.at 3) 0
  else d

/-- A place for one rebuilt member: a module that holds no other available member and none of those already chosen. -/
def Dev.rebuildPlace (d : Dev) (p : PoolRec) (taken : List Nat) : Option ((Nat × Nat × (Nat × Nat)) × Dev) :=
  (p.mods.filter (fun m => !taken.contains m)).findSome? (fun m => (d.looseDie p m false).map (fun r => ((m, r.1, r.2.1), r.2.2)))

/-- The D members are in hand: each unavailable member is reconstructed and programmed elsewhere; where no module outside the stripe
has room, the stripe is unplaceable (R283). -/
def Dev.rebuildProgram (d : Dev) (pool i : Nat) : Dev :=
  match d.stripe pool i, d.img.pool? pool with
  | some s, some p =>
    let out := d.outMembers s
    let avail := (List.range s.members.length).filterMap (fun k => if out.contains k then none else s.members[k]?.map (·.module))
    let r := out.foldl (fun (a : Option (List MemberAddr × Dev)) k => a.bind (fun x =>
      (x.2.rebuildPlace p (avail ++ x.1.map (·.module))).map (fun t =>
        (x.1 ++ [{ module := t.1.1, die := t.1.2.1, block := t.1.2.2.1, page := t.1.2.2.2, index := k }], t.2)))) (some ([], d))
    match r with
    | none =>
      ((d.onStripe pool i (fun s => { s with unplaceable := true })).event 14 .rebuildUnplaceable [pool, s.seq]).raise 9
    | some (l, d) =>
      let d := d.onStripe pool i (fun s => { s with rebuilding := l })
      l.foldl (fun (d : Dev) m => d.submitTo m.module { op := .program, die := m.die, block := m.block, page := m.page,
                                                        use := .rebuilt pool i m.index, data := rawPage s.pageKib (s.memberPage pool m.index) }) d
  | _, _ => d

/-- A rebuilt member is verified: it takes its place in the stripe, journaled as moved (R282). -/
def Dev.rebuildVerified (d : Dev) (pool i member : Nat) : Dev :=
  match d.stripe pool i with
  | none => d
  | some s =>
    match s.rebuilding.find? (fun m => m.index == member) with
    | none => d
    | some m =>
      let new := fun (old : MemberAddr) => { m with state := 4, role := old.role, index := old.index }
      let d := d.onStripe pool i (fun s => { s with members := s.members.modify member new,
                                                    rebuilding := s.rebuilding.filter (fun x => x.index != member) })
      let d := (d.journal pool { typ := 4, seq := s.seq, member := (s.members[member]?).map new }).bump F.STR_pages_rebuilt
      d.recheckStripe pool i

/-- A rebuilt member's program failed: the block is grown-bad and the stripe waits for another try. -/
def Dev.rebuildFailed (d : Dev) (pool i member : Nat) : Dev :=
  match d.stripe pool i with
  | none => d
  | some s =>
    let d := match s.rebuilding.find? (fun m => m.index == member) with
      | some m => d.growBad m.module m.die m.block
      | none => d
    d.onStripe pool i (fun s => { s with rebuilding := [] })

/-! ### Copies (R287, R290, R370 to R375) -/

/-- Read the slots of copies that wait: each by a fetch of its own. -/
def Dev.readCopies (d : Dev) (pool : Nat) : Dev :=
  (List.filter (fun (c : Nat × CopyJob) => !c.2.read && !c.2.fetching) (d.pool pool).copies).foldl (fun (d : Dev) c =>
    if !d.areaFits (if c.2.layout = 1 then 4 else 3) (1024 * descCls c.2.slot.desc) then d else
    match c.2.src with
    | .stored _ m _ _ i =>
      (d.onPool pool (fun p => { p with copies := Tab.upd c.1 (fun x => { x with fetching := true }) p.copies })).startFetch pool i m
        (.copy pool c.1) (some c.2.slot)
    | _ => d.onPool pool (fun p => { p with copies := Tab.del c.1 p.copies })) d

/-- Place copies that have been read into copy stripes: reshape copies in the target geometry with layout 1, others in the pool's
geometry with layout 0 (R290, R371). -/
def Dev.placeCopies (d : Dev) (p : PoolRec) : Dev :=
  (List.filter (fun (c : Nat × CopyJob) => c.2.read && c.2.stripe.isNone) (d.pool p.poolId).copies).foldl (fun (d : Dev) c =>
    let r := d.placeSlot p (d.pool p.poolId).geometry (if c.2.layout = 1 then .reshaped else .moved) c.2.slot c.2.src
    match r.1 with
    | some i => r.2.onPool p.poolId (fun q => { q with copies := Tab.upd c.1 (fun x => { x with stripe := some i }) q.copies })
    | none => r.2) d

/-- A copy stripe closes when every copy of its pool that has been read is placed. -/
def Dev.closeCopies (d : Dev) (pool : Nat) : Dev :=
  let p := d.pool pool
  if p.copies.any (fun c => c.2.stripe.isNone) then d
  else (p.stripes.filter (fun e => e.2.state == .assembling && e.2.copy && !e.2.closed && !e.2.slots.isEmpty)).foldl
    (fun (d : Dev) e => d.closeStripe pool e.1) d

/-- A band, or a loose block, may be a victim (R370): full, nothing of it in Programming or assembling, none of it in the reshape set. -/
def Pool.mayReclaim (p : Pool) (band : Nat) : Bool :=
  let l := p.victimStripes band
  !l.isEmpty && !(p.band.any (fun b => b.num == band)) && !(p.copyBand.any (fun b => b.num == band)) &&
    l.all (fun e => e.2.state != .programming && e.2.state != .assembling) &&
    !(p.reshape.any (fun r => l.any (fun e => decide (e.2.seq < r.startSeq))))

/-- Live and all units of a band. -/
def Dev.bandUnits (d : Dev) (pool band : Nat) : Nat × Nat :=
  ((d.pool pool).victimStripes band).foldl (fun a e => e.2.slots.foldl (fun a x =>
    (a.1 + (if d.isLive pool (slotLoc e.1 x) then descCls x.desc else 0), a.2)) (a.1, a.2 + e.2.data * e.2.pageKib)) (0, 0)

/-- Age of a band since its last program, in seconds of operation. -/
def Dev.bandAge (d : Dev) (pool band : Nat) : Nat :=
  d.boot.settings.opSeconds - Tab.getD (d.pool pool).bandProg band d.boot.settings.opSeconds

/-- Bands of a pool's stripes. -/
def Pool.bands (p : Pool) : List Nat := ((p.stripes.map (fun e => e.2.band)).eraseDups)

/-- One band's score is higher than another's: (1 − u) · a / (1 + u), compared without rounding. -/
def Dev.scoreAbove (d : Dev) (pool x y : Nat) : Bool :=
  let ux := d.bandUnits pool x
  let uy := d.bandUnits pool y
  decide ((uy.2 - uy.1) * d.bandAge pool y * (ux.2 + ux.1) < (ux.2 - ux.1) * d.bandAge pool x * (uy.2 + uy.1))

/-- The band that holds the good block of lowest pe (R374). -/
def Pool.coldBand (p : Pool) : Option Nat :=
  ((List.filter (fun (e : Nat × BlockInfo) => e.2.state == 2 && e.2.use == 0) p.blocks).foldl (fun (a : Option BlockInfo) e => match a with
    | none => some e.2
    | some b => if e.2.pe < b.pe then some e.2 else some b) none).map (·.band)

/-- The spread of a pool's wear calls for static levelling (R374): above WL_SPREAD, and once begun above three quarters of it. -/
def Dev.wearWide (d : Dev) (p : PoolRec) : Bool :=
  let q := d.pool p.poolId
  let spread := q.peMax - q.peMin (d.poolGood p)
  let limit := d.img.tunablesD.wlSpread
  (decide (limit < spread) || (q.wlOn && decide (3 * limit < 4 * spread))) && d.get F.FTL_CTL_wl_budget_pct != 0

/-- The next victim (R370): bands queued for relocation, then static wear levelling, then the highest score while f is low. [DESIGN CHOICE: log 28] -/
def Dev.nextVictim (d : Dev) (p : PoolRec) : Option Nat :=
  let q := d.pool p.poolId
  match q.relocQ.find? q.mayReclaim with
  | some b => some b
  | none =>
    match (if d.wearWide p && !d.pow.thermDrain then q.coldBand.filter q.mayReclaim else none) with
    | some b => some b
    | none => if q.reclaiming then (q.bands.filter q.mayReclaim).foldl (fun (a : Option Nat) b => match a with
        | none => some b
        | some c => if d.scoreAbove p.poolId b c then some b else some c) none
      else none

/-- A pool's copy band takes no more stripes. -/
def Dev.endCopyBand (d : Dev) (pool : Nat) : Dev :=
  match (d.pool pool).copyBand with
  | some k => (d.closeBand pool k).setBand pool true none
  | none => d

/-- Take a victim band or loose block: its live slots are queued for copying; static wear levelling copies into a band of its own (R374). -/
def Dev.takeVictim (d : Dev) (p : PoolRec) : Dev :=
  let d := d.onPool p.poolId (fun q => { q with relocQ := q.relocQ.filter (fun v => !(q.victimStripes v).isEmpty) })
  let q := d.pool p.poolId
  if !q.victims.isEmpty || !q.known || d.pow.drainGate then d else
  match d.nextVictim p with
  | none => d
  | some b =>
    let reloc := q.relocQ.contains b
    let d := d.onPool p.poolId (fun q => { q with victims := [b], relocQ := q.relocQ.filter (· != b),
                                                  wlActive := !reloc && q.coldBand == some b && d.wearWide p })
    let d := if reloc then d.bump F.FTL_relocations
      else if (d.pool p.poolId).wlActive then d.bump F.FTL_static_wl_victims else d.bump F.FTL_recl_victims
    let d := if (d.pool p.poolId).wlActive then d.endCopyBand p.poolId else d
    let d := if b < 2 ^ 40 then d else
      d.onPool p.poolId (fun q => { q with blocks := Tab.upd (b - 2 ^ 40) (fun (x : BlockInfo) => { x with state := 2 }) q.blocks })
    ((q.victimStripes b).flatMap (fun e => (List.range e.2.data).flatMap (e.2.memberLocs e.1))).foldl
      (fun (d : Dev) x => d.addCopy p.poolId 0 x) d

/-- A block in which nothing lies any more is erasable, and is erased (R335, R372). -/
def Dev.eraseIfStale (d : Dev) (pool module die b : Nat) : Dev :=
  let q := d.pool pool
  let used := q.stripes.any (fun e => e.2.state != .abandoned && (e.2.members ++ e.2.rebuilding).any (fun m =>
    m.module == module && m.die == die && m.block == b)) || q.journalKept.any (fun k => k.copies.any (fun x => (x.1, x.2.1, x.2.2.1) == (module, die, b)))
  if used || (q.block module die b).state != 2 then d
  else (d.onBlock pool module die b (fun x => { x with state := 3 })).submitTo module { op := .erase, die := die, block := b, use := .erase pool }

/-- Blocks a stripe's members lie on. -/
def Stripe.memberBlocks (s : Stripe) : List (Nat × Nat × Nat) := s.members.map (fun m => (m.module, m.die, m.block))

/-- Retire stripes: they leave the table, and blocks they leave empty are erased. -/
def Dev.retire (d : Dev) (pool : Nat) (l : List (Nat × Stripe)) : Dev :=
  let d := d.onPool pool (fun p => { p with stripes := p.stripes.filter (fun e => !l.any (fun x => x.1 == e.1)) })
  (l.flatMap (fun e => e.2.memberBlocks)).eraseDups.foldl (fun (d : Dev) b => d.eraseIfStale pool b.1 b.2.1 b.2.2) d

/-- Loose blocks that are full and in which nothing lies any more are erased (R367). -/
def Dev.eraseLoose (d : Dev) (pool : Nat) : Dev :=
  (List.filter (fun (e : Nat × BlockInfo) => e.2.use == 1 && e.2.state == 2) (d.pool pool).blocks).foldl
    (fun (d : Dev) e => d.eraseIfStale pool (e.1 / 8192 / 64) (e.1 / 8192 % 64) (e.1 % 8192)) d

/-- A program of a journal page of the pool is queued or under way. -/
def Dev.journalUnder (d : Dev) (pool : Nat) : Bool :=
  let of_ (c : BCmd) : Bool := match c.use with
    | .journal p _ => p == pool
    | _ => false
  d.fl.lanes.any (fun l => (l.2.cmds ++ l.2.held).any of_ || l.2.dies.any (fun x => x.2.queue.any of_))

/-- Blocks relocated three times within 100 of their own erases (R375). -/
def Pool.wornOut (p : Pool) (l : List (Nat × Stripe)) : List (Nat × Nat × Nat) :=
  ((l.flatMap (fun e => e.2.memberBlocks)).eraseDups).filter (fun b => decide (3 ≤ (p.block b.1 b.2.1 b.2.2).relocs.length))

/-- A victim whose live slots all lie in sealed stripes, with the journal on flash in two copies, is retired (R372); a block relocated three times
within 100 of its erases becomes grown-bad (R375). -/
def Dev.finishVictim (d : Dev) (pool : Nat) : Dev :=
  let q := d.pool pool
  match q.victims with
  | [] => d
  | b :: _ =>
    let l := q.victimStripes b
    if !q.copies.isEmpty || !q.journal.isEmpty || q.singleCopy || d.journalUnder pool || l.any (fun e => e.2.slots.any (fun x => d.isLive pool (slotLoc e.1 x))) then d
    else
      let d := if q.wlActive then d.endCopyBand pool else d
      let d := (q.wornOut l).foldl (fun (d : Dev) x => d.growBad x.1 x.2.1 x.2.2) d
      (d.onPool pool (fun q => { q with victims := [], wlActive := false })).retire pool l

/-- Lost stripes with nothing left to copy, and abandoned ones, retire; entries of the lost table that nothing references go (R288). -/
def Dev.retireGone (d : Dev) (pool : Nat) : Dev :=
  let d := d.trimLost pool
  let q := d.pool pool
  let l := List.filter (fun (e : Nat × Stripe) => (e.2.state == .lost && !e.2.slots.any (fun x => d.isLive pool (slotLoc e.1 x))) ||
    (e.2.state == .abandoned && q.journal.isEmpty)) q.stripes
  if l.isEmpty then d else d.retire pool l

/-- Reclamation runs while f is below recl_start, and until it is 5 ‰ above (R369); the other thresholds likewise. -/
def holdBelow (was : Bool) (f at_ : Nat) : Bool := decide (f < at_) || (was && decide (f < at_ + 5))

/-- Free-space and health conditions of a pool this head owns (R369, R374, R379). -/
def Dev.judgePool (d : Dev) (p : PoolRec) : Dev :=
  let q := d.pool p.poolId
  if !q.known || (d.poolDies p).isEmpty then d else
  let f := d.freeFraction p
  let s := d.spare p
  let ro := decide (s < d.img.floorsD.spareRoPermille) || (q.readOnly && decide (s < d.img.floorsD.spareRoPermille + 5))
  let eol := q.eol || decide (100 ≤ d.wearUsed p)
  let low := holdBelow q.hostHeld f 5
  let wide := d.wearWide p
  let d := d.onPool p.poolId (fun q => { q with reclaiming := holdBelow q.reclaiming f (d.get F.FTL_CTL_recl_start_pm),
                                                reshapeHeld := holdBelow q.reshapeHeld f 15, landHeld := holdBelow q.landHeld f 10,
                                                hostHeld := low, readOnly := ro, eol := eol, wlOn := wide })
  let d := if low && !q.hostHeld then d.event 17 .poolSpaceLow [p.poolId] else d
  let d := if ro && !q.readOnly then (d.event 17 .poolReadOnly [p.poolId]).raise 10 else d
  if eol && !q.eol then (d.event 17 .poolEndOfLife [p.poolId]).raise 10 else d

/-- An erase of a block is queued, running or suspended. -/
def Dev.eraseUnder (d : Dev) (l die b : Nat) : Bool :=
  let x := d.die l die
  (x.queue ++ (d.lane l).cmds ++ x.susp.toList).any (fun c => c.op == .erase && c.die == die && c.block == b)

/-- Blocks whose erase came to nothing (a reset, a lane that went down) are erased again before they are used (R335, R353). -/
def Dev.eraseOwed (d : Dev) (p : PoolRec) : Dev :=
  let owed := List.filter (fun (e : Nat × BlockInfo) => e.2.state == 3 || e.2.state == 4) (d.pool p.poolId).blocks
  owed.foldl (fun (d : Dev) e =>
    let module := e.1 / 8192 / 64
    let die := e.1 / 8192 % 64
    let b := e.1 % 8192
    match d.laneOf module with
    | none => d
    | some l => if d.dieAvail module die && !d.eraseUnder l die b && !d.pow.drainGate then
        d.submitTo module { op := .erase, die := die, block := b, use := .erase p.poolId } else d) d

/-- What the pool's own work does next: space judged, victims taken and finished, copies read and placed, rebuild. -/
def Dev.workPool (d : Dev) (p : PoolRec) : Dev :=
  let d := (((d.judgePool p).journalMendAll p).sealWaiting p).programWaiting p
  let d := ((((d.takeVictim p).readCopies p.poolId).placeCopies p).closeCopies p.poolId).finishVictim p.poolId
  (((d.retireGone p.poolId).eraseLoose p.poolId).eraseOwed p).rebuildStart p.poolId

/-- The same for every owned pool, once the lanes' first training after a start is over. -/
def Dev.workPools (d : Dev) : Dev := if d.stg.judged then (d.ownedPools.foldl Dev.workPool d).floorEnd else d

/-! ### Reshape (R289 to R293) -/

/-- Lowest stripe sequence of some stripes. -/
def lowestSeq (l : List (Nat × Stripe)) : Option (Nat × Stripe) :=
  l.foldl (fun (a : Option (Nat × Stripe)) e => match a with
    | none => some e
    | some b => if e.2.seq < b.2.seq then some e else some b) none

/-- A pool starts to reshape towards its target (R289). -/
def Dev.reshapeStart (d : Dev) (t : TargetGeometryRec) : Dev :=
  let p := d.pool t.poolId
  if p.reshape.isSome || !p.known || (p.data == t.dataMembers && p.parity == t.parityMembers) then d
  else
    let set := (List.filter (fun (e : Nat × Stripe) => e.2.state == .healthy || e.2.state == .degraded) p.stripes).map (·.1)
    d.onPool t.poolId (fun p => { p with reshape := some { data := t.dataMembers, parity := t.parityMembers, set := set,
                                                           startSeq := p.nextSeq } })

/-- The next stripe of the reshape set is copied: its live slots become layout 1 copies; a stripe whose copies are sealed moves the
position. Placement stops while free space runs short, and while Rebuild is set the copy is held. -/
def Dev.reshapeStep (d : Dev) (pool : Nat) : Dev :=
  let p := d.pool pool
  match p.reshape with
  | none => d
  | some r =>
    let held := d.mode 6
    let d := d.onPool pool (fun p => { p with reshape := p.reshape.map (fun r => { r with held := held }) })
    if held || p.reshapeHeld || d.pow.drainGate || d.pow.thermDrain then d
    else if p.copies.any (fun c => c.2.layout == 1) then d
    else match lowestSeq (p.toCopy r) with
      | none => d
      | some (i, s) =>
        let done := s.slots.all (fun x => !d.isLive pool (slotLoc i x) || Tab.has (locWord (slotLoc i x)) r.map)
        if done then d.reshapeAt pool s.seq
        else ((List.range s.data).flatMap (s.memberLocs i)).foldl (fun (d : Dev) x =>
          if Tab.has (locWord x.2) r.map then d else d.addCopy pool 1 x) d

/-- A reshape is cancelled at its stripe boundary (R293): copies and reshape map are discarded, and the recorded geometry governs. -/
def Dev.reshapeCancelPool (d : Dev) (pool : Nat) : Dev :=
  let p := d.pool pool
  match p.reshape with
  | none => d
  | some _ =>
    let l := List.filter (fun (e : Nat × Stripe) => e.2.layout == 1) p.stripes
    let d := (d.onPool pool (fun p => { p with reshape := none, copies := p.copies.filter (fun c => c.2.layout != 1) })).retire pool l
    d.mirrorState (.reshape pool .cancelled)

/-- A pool switches over (R292): the target is the recorded geometry, the reshape map is in force and folded into the maps, and old stripes
nothing names are retired. [DESIGN CHOICE: log 102] -/
def Dev.reshapeSwitch (d : Dev) (pool : Nat) : Dev :=
  let p := d.pool pool
  match p.reshape with
  | none => d
  | some r =>
    let old := List.filter (fun (e : Nat × Stripe) => r.set.contains e.1) p.stripes
    let d := old.foldl (fun (d : Dev) e => e.2.slots.foldl (fun (d : Dev) x =>
      match Tab.find? (locWord (slotLoc e.1 x)) r.map with
      | some dst => d.moveLoc pool (slotLoc e.1 x) dst
      | none => d) d) d
    let d := d.onPool pool (fun p => { p with data := r.data, parity := r.parity, reshape := none })
    ((d.bump F.STR_switchovers).event 14 .switchedOver [pool, r.data, r.parity]).retire pool old

/-- Switch-over at a Cairn's close, once the copy is complete and while Rebuild is clear (R292), on both heads. -/
def Dev.switchOver (d : Dev) (pool : Nat) : Dev :=
  if (d.pool pool).reshape.isNone || !(d.pool pool).reshapeCopied || d.mode 6 then d
  else (d.reshapeSwitch pool).mirrorState (.reshape pool .switched)

end Sys2Proof.Machine
end

