-- ==== Sys2Proof/Machine/Lanes.lean ====
section
/-! DEFINITION. Vrelen lanes and bridges (R316 to R356): frames and replay, training, bridge responses, the read-retry ladder, erase
suspension, claims, timeouts, failed dies and temperature bands. -/
namespace Sys2Proof.Machine

/-! ### Dropped commands, failed dies, lanes down (R281, R323, R351) -/

/-- A member read of a fetch fails: a direct one goes around; one of a reconstruction is replaced by another member, or the fetch
fails. -/
def Dev.fetchMemberBad (d : Dev) (id member : Nat) : Dev :=
  match Tab.find? id d.fl.fetches with
  | none => d
  | some f =>
    match d.stripe f.pool f.stripe with
    | none => d.fetchFails id
    | some s =>
      let f := { f with bad := f.bad ++ [member], need := f.need.filter (· != member) }
      let d := d.onFetch id (fun _ => f)
      if f.direct then d.goAround id f s
      else match (d.readable s (f.member :: f.bad ++ f.need)).head? with
        | some i => (d.onFetch id (fun f => { f with need := f.need ++ [i] })).readMember id s i
        | none => d.fetchFails id

/-- The work of a command of one plane that will bring no result goes on without it. -/
def Dev.dropPlane (d : Dev) (c : BCmd) : Dev :=
  match c.use with
  | .fetch id m => d.fetchMemberBad id m
  | .program p i _ | .replay p i _ => d.abandon p i
  | .rebuilt p i _ => d.onStripe p i (fun s => { s with rebuilding := [] })
  | .journal p module => d.journalCopyBad p module c.die c.block c.page
  | _ => d

/-- The work of a command that will bring no result goes on without it. -/
def Dev.dropCmd (d : Dev) (c : BCmd) : Dev := c.parts.foldl Dev.dropPlane d

/-- A program counts as failed: no page is programmed twice (R334). -/
def Dev.programLost (d : Dev) (c : BCmd) : Dev :=
  c.parts.foldl (fun (d : Dev) x => match x.use with
    | .program p i m => d.memberFailed p i m
    | .rebuilt p i m => d.rebuildFailed p i m
    | _ => d.dropPlane x) d

/-- A die fails (R351): its queued and outstanding commands bring nothing, its members are unavailable. -/
def Dev.failDie (d : Dev) (lane die : Nat) : Dev :=
  let x := d.die lane die
  if x.failed then d else
  let lost := x.queue ++ ((d.lane lane).cmds ++ (d.lane lane).held).filter (fun c => c.die == die && c.op != .claim && c.op != .bridgeStatus)
  let d := d.onDie lane die (fun x => { x with failed := true, queue := [], susp := none })
  let d := d.onLane lane (fun l => { l with
    cmds := l.cmds.filter (fun c => c.die != die || c.op == .claim || c.op == .bridgeStatus)
    held := l.held.filter (fun c => c.die != die || c.op == .claim || c.op == .bridgeStatus) })
  let d := (d.bump F.FLX_dies_failed).event 16 .dieFailed [lane, die]
  (lost.foldl Dev.dropCmd d).recheckAll

/-- STAT.state of a lane state (R355). -/
def LaneState.code : LaneState → Nat
  | .down => 0
  | .training => 1
  | .active4 => 2
  | .active2 => 3
  | .disabled => 4
  | .forcedDown => 5

/-- A lane enters a state. -/
def Dev.laneEnter (d : Dev) (l : Nat) (s : LaneState) : Dev :=
  (d.onLane l (fun x => { x with state := s })).set (F.FLX_L_STAT_state.at l) s.code

/-- A lane goes down (R323): every die behind it is unavailable, commands outstanding and queued on it bring nothing. -/
def Dev.laneDown (d : Dev) (l : Nat) (s : LaneState) : Dev :=
  let x := d.lane l
  let lost := x.cmds ++ x.held ++ x.dies.flatMap (fun e => e.2.queue)
  let d := d.onLane l (fun x => { x with up := false, cmds := [], held := [], unacked := [], replayed := [],
                                         dies := Tab.mapV (fun (y : DieState) => { y with queue := [], susp := none }) x.dies })
  let d := (d.laneEnter l s).event 16 .laneDown [l]
  (lost.foldl Dev.dropCmd d).recheckAll

/-! ### Training (R320, R321) -/

/-- The lane map's entry of a lane, where the image enables it. -/
def Dev.laneEntry (d : Dev) (l : Nat) : Option LaneMapEntry :=
  (d.img.lanes? d.headNo).bind (fun m => m.entries.find? (fun e => e.lane == l && tb e.laneFlags 0))

/-- The config flit that the head sends on a lane (R321): its number, array_id, and the last frame it received in order. -/
def Dev.headFlit (d : Dev) (l : Nat) : Bytes :=
  [0x56, 0x52, 0x43, 0x46, 1, b8 d.headNo] ++ zeros 6 ++ leBytes 8 d.img.arrayId ++ leBytes 2 ((d.lane l).rxFseq + 65535) ++ zeros 10

/-- A lane trains (R320): from reset, on a request, after a lasting error, or every second while down; not where the image leaves it
disabled, software holds it down, or its sequencer is out of service (R392). Commands outstanding are held. -/
def Dev.trainLane (d : Dev) (l : Nat) : Dev :=
  match d.laneEntry l with
  | none => d
  | some e =>
    if d.on (F.FLX_L_CTL_force_down.at l) || d.pow.fsOut.contains l then d else
    let d := d.onLane l (fun x => { x with module := e.module, modulePort := e.modulePort, half := false })
    ((d.laneEnter l .training).bump (F.FLX_L_retrains.at l)).emit (.laneTrain l (d.headFlit l))

/-- A lane whose sequencer is being reset trains again once every command at its bridge has ended, or 20 ms have passed (R353): a command
that had not started comes back DISCARDED and is queued again, one that ran without a response brings nothing. -/
def Dev.settleWinding (d : Dev) : Dev :=
  (Tab.keys d.fl.lanes).foldl (fun (d : Dev) l =>
    match (d.lane l).winding with
    | none => d
    | some t =>
      let left := (d.lane l).cmds.filter (fun c => c.op == .read || c.op == .program || c.op == .erase)
      if !left.isEmpty && decide (d.pow.aon < t + 20 * 10 ^ 6) then d else
      let d := d.onLane l (fun x => { x with winding := none, cmds := x.cmds.filter (fun c => !left.contains c) })
      let d := left.foldl (fun (d : Dev) c => if c.op = .read then d.onDie l c.die (fun x => { x with queue := c :: x.queue }) else d.dropCmd c) d
      d.trainLane l) d

/-- LANE_DOWN_RETRY (R320): a lane that is down tries again. -/
def Dev.laneRetry (d : Dev) (l : Nat) : Dev := if (d.lane l).state == .down then d.trainLane l else d

/-- LANE_TRAINING_LIMIT (R320): with one serdes pair working at Detect or Equalize the lane trains at ×2; otherwise it is down. -/
def Dev.trainingLimit (d : Dev) (l : Nat) (onePair : Bool) : Dev :=
  if (d.lane l).state != .training then d
  else if onePair && !(d.lane l).half then (d.onLane l (fun x => { x with half := true })).event 16 .laneHalf [l]
  else d.laneDown l .down

/-- A software hold of a lane (FLX_Ln_CTL.force_down): held down; released, it trains again. -/
def Dev.forceLane (d : Dev) (l : Nat) (down : Bool) : Dev :=
  if down then (if (d.lane l).state == .disabled then d else d.laneDown l .forcedDown)
  else if (d.lane l).state == .forcedDown then (d.laneEnter l .down).trainLane l else d

/-- Dies of a module that pools of this head hold (R243). -/
def Dev.claimMask (d : Dev) (module : Nat) : Nat :=
  let taking := (d.head.phase == .takeover || d.head.phase == .taking) && d.head.claiming
  let pools := d.img.pools.filter (fun p => d.owns p.poolId || (taking && tb d.head.phasePools p.poolId))
  ((pools.flatMap (fun p => p.members)).filterMap (fun m => if memberMod m = module then some (2 ^ memberDie m) else none)).eraseDups.sum

/-- Claim the owned dies behind a lane under the present term (R243). -/
def Dev.claimLane (d : Dev) (l : Nat) : Dev :=
  let mask := d.claimMask (d.lane l).module
  if mask = 0 || !(d.lane l).active then d
  else d.bridgeSend l { op := .claim, die := 0, use := .claim } (leBytes 8 mask ++ leBytes 8 d.head.term)

/-- Blocks a die record marks as bad or erase-incomplete, as block information (R366). -/
def Dev.loadBlocks (d : Dev) (pool module : Nat) (r : DieRec) : Dev :=
  let put (state : Nat) (d : Dev) (b : Nat) : Dev := d.onBlock pool module r.die b (fun x => { x with state := state })
  let d := r.factoryBad.foldl (put 6) d
  let d := r.grownBad.foldl (put 5) d
  r.eraseIncomplete.foldl (put 4) d

/-- The record a die goes on with: the option area's where none is held, with what the pool's block information marks grown-bad (R350). -/
def Dev.dieRecord (d : Dev) (l module i pool : Nat) (same : Bool) (r : DieRec) : DieRec :=
  if !same then r
  else match (d.die l i).record with
    | some o => o
    | none => { r with grownBad := (r.grownBad ++ d.blocksIn pool module i 5).eraseDups }

/-- A die's option records are taken (R285, R347): the newest valid one, whose serial and die must agree with where it was found; a die whose
identity changed joins empty; the tracked offsets are those last saved (R342). [DEDUCED: log 100] -/
def Dev.takeDie (d : Dev) (l module i : Nat) (pages : List (Bytes × Bytes)) (serial : Nat) : Dev :=
  let pool := ((d.poolOfDie module i).map (·.poolId)).getD 16
  let d := d.onDie l i (fun x => { x with present := true, pairs := max x.pairs (writtenPairs pages).length })
  match (newestDieRec pages).filter (fun r => r.serial == serial && r.die == i) with
  | none => (d.onDie l i (fun x => { x with record := none })).failDie l i
  | some r =>
    let key := dieKey module i
    let was := Tab.find? key (d.pool pool).dies
    let same := was == some (r.serial, r.uniqueId)
    let fresh := was.isSome && !same
    let d := if fresh then d.onPool pool (fun p => { p with blocks := p.blocks.filter (fun e => e.1 / 8192 != key), offsets := Tab.del key p.offsets })
      else d
    let d := d.onDie l i (fun x => { x with
      failed := x.failed && !fresh, record := some (d.dieRecord l module i pool same r)
      pairs := if fresh then (writtenPairs pages).length else x.pairs
      offsets := if x.record.isSome && !fresh then x.offsets else Tab.getD (d.pool pool).offsets key [] })
    let d := d.onPool pool (fun p => { p with dies := Tab.put key (r.serial, r.uniqueId) p.dies })
    if same then d else d.loadBlocks pool module r

/-- The module record of the option area (R347): copy A, else copy B; its dies, page size and the low half of its serial must agree with the
config flit (R345). -/
def moduleRecOf (c : ConfigFlit) : Option ModuleRec :=
  ((readModuleRec c.moduleA).orElse (fun _ => readModuleRec c.moduleB)).filter (fun m =>
    m.dieCount == c.dieCount && m.pageKib == c.pageKib && m.serial % 2 ^ 64 == c.serial)

/-- A die whose option area has no room for another pair is shown as full (R348). -/
def Dev.judgeOption (d : Dev) (l i : Nat) (m : ModuleRec) : Dev :=
  if 2 + 2 * (d.die l i).pairs + 1 < modPages m 1 || d.on (F.FLX_L_STAT_option_full.at l) then d
  else (d.set (F.FLX_L_STAT_option_full.at l) 1).event 16 .optionFull [l, i]

/-- The option area of a module is loaded (R347): a module whose records fail or disagree is refused and all its dies fail. -/
def Dev.loadOption (d : Dev) (l : Nat) (c : ConfigFlit) : Dev :=
  let module := (d.lane l).module
  let d := ((d.bump F.FLX_option_loads).set (F.FLX_L_STAT_die_count.at l) c.dieCount).set (F.FLX_L_STAT_page_kib.at l) c.pageKib
  match moduleRecOf c with
  | none =>
    let d := (d.onLane l (fun x => { x with moduleRec := none })).set (F.FLX_L_STAT_option_ok.at l) 0
    let d := d.event 16 .moduleMismatch [l, module]
    (List.range c.dieCount).foldl (fun (d : Dev) i => (d.onDie l i (fun x => { x with present := true })).failDie l i) d
  | some m =>
    let d := (d.onLane l (fun x => { x with moduleRec := some m })).set (F.FLX_L_STAT_option_ok.at l) 1
    let d := c.dies.foldl (fun (d : Dev) x => (d.takeDie l module x.1 x.2 m.serial).judgeOption l x.1 m) d
    d.img.pools.foldl (fun (d : Dev) p =>
      if p.members.any (fun k => memberMod k = module) && !moduleSuits m p then d.event 16 .moduleDeclaresBad [module, p.poolId] else d) d

/-- The frames that the bridge has not received go out again after a training (R322). -/
def Dev.framesAgain (d : Dev) (l : Nat) : Dev :=
  (d.lane l).unacked.foldl (fun (d : Dev) f => (d.emit (.laneReplay l f)).bump (F.FLX_L_frames_tx.at l)) d

/-- CONFIG_FLIT (R321, R347): matching flits make the lane active, at ×4 or ×2; a mismatch keeps it down. On Active the option area is
loaded, owned dies are claimed, and dies that were unavailable are judged again (R284). A lane at half width records an event (R320). -/
def Dev.configFlit (d : Dev) (c : ConfigFlit) : Dev :=
  let l := c.lane.val
  let x := d.lane l
  if x.state != .training then d else
  let rec_ := (readModuleRec c.moduleA).orElse (fun _ => readModuleRec c.moduleB)
  let bad := c.port != x.modulePort || (rec_.any (fun m => m.pageKib != c.pageKib || m.serial % 2 ^ 64 != c.serial))
  if bad then (d.laneDown l .down).event 16 .moduleMismatch [l, x.module] else
  let wide := !c.x2 && !x.half
  let d := d.onLane l (fun x =>
    { x with up := true, cmdCredits := c.cmdQueue - x.cmds.length,
             dataCredits := c.dataBufKib - (x.cmds.map (fun k => dataUnits k.op k.data)).sum, cmdCum := 0, dataCum := 0, naked := false,
             unacked := x.unacked.filter (fun f => decide (32768 ≤ (c.lastFseq + 65536 - f) % 65536)) })
  let d := d.onLane l (fun x => { x with dies := Tab.mapV (fun (y : DieState) => { y with thr := [] }) x.dies })
  let d := (d.set (F.FLX_L_BAND_band.at l) (2 ^ 48 - 1)).framesAgain l
  let d := (d.laneEnter l (if wide then .active4 else .active2)).loadOption l c
  let d := ((heldGo l (d.lane l).held.length d).claimLane l).recheckAll
  if c.x2 && !x.half then d.event 16 .laneHalf [l] else d

/-! ### Frames (R318, R322) -/

/-- A lane replays from a frame on; the second replay of one frame is a lasting error and trains the lane once. -/
def Dev.laneReplayFrom (d : Dev) (l fseq : Nat) : Dev :=
  let x := d.lane l
  if x.replayed.contains fseq then
    (((d.onLane l (fun x => { x with replayed := [] })).bump (F.FLX_L_crc_lasting.at l)).event 16 .frameLasting [l, fseq]).trainLane l
  else
    let again := x.unacked.filter (fun f => decide ((f + 65536 - fseq) % 65536 < 32768))
    let d := d.onLane l (fun x => { x with replayed := x.replayed ++ [fseq] })
    again.foldl (fun (d : Dev) f => (d.emit (.laneReplay l f)).bump (F.FLX_L_frames_tx.at l)) d

/-- In-order progress the bridge reports: frames up to `ack` are done, and a replay that succeeded was transient. -/
def Dev.frameAcked (d : Dev) (l ack : Nat) : Dev :=
  let done := fun (f : Nat) => decide ((ack + 65536 - f) % 65536 < 32768)
  let healed := ((d.lane l).replayed.filter done).length
  let d := d.onLane l (fun x => { x with unacked := x.unacked.filter (fun f => !done f), replayed := x.replayed.filter (fun f => !done f) })
  if healed = 0 then d else d.bump (F.FLX_L_crc_transient.at l) healed

/-- A discarded frame: one nak per gap. -/
def Dev.frameBad (d : Dev) (l : Nat) : Dev :=
  if (d.lane l).naked then d else (d.onLane l (fun x => { x with naked := true })).emit (.laneAck l (d.lane l).rxFseq true)

/-- VRELEN_FRAME (R318, R322, R324): accepted in order only; progress is acknowledged, credits taken, a nak replays. -/
def Dev.vrelenFrame (d : Dev) (f : FrameFlit) : Dev :=
  let l := f.lane.val
  let x := d.lane l
  if !x.active then d
  else if !f.crcOk || f.fseq != x.rxFseq then d.frameBad l
  else
    let d := d.onLane l (fun x =>
      { x with rxFseq := (x.rxFseq + 1) % 65536, naked := false, cmdCum := f.cmdCredits, dataCum := f.dataCredits,
               cmdCredits := x.cmdCredits + (f.cmdCredits + 65536 - x.cmdCum) % 65536,
               dataCredits := x.dataCredits + (f.dataCredits + 2 ^ 32 - x.dataCum) % 2 ^ 32 })
    let d := (d.bump (F.FLX_L_frames_rx.at l)).emit (.laneAck l f.fseq false)
    let d := if f.nak then d.laneReplayFrom l f.ack else if f.ackValid then d.frameAcked l f.ack else d
    let d := heldGo l (d.lane l).held.length d
    (Tab.keys (d.lane l).dies).foldl (fun (d : Dev) i => d.pump l i) d

/-- FRAME_ACK_TIMEOUT (R322): without progress for 4 µs the oldest unacknowledged frame is replayed. -/
def Dev.frameAckTimeout (d : Dev) (l : Nat) : Dev :=
  match (d.lane l).unacked with
  | f :: _ => if (d.lane l).active then d.laneReplayFrom l f else d
  | [] => d

/-- FILLER_FRAME (R319): it is counted and discarded; it is neither acknowledged nor replayed. [DEDUCED: log 99] -/
def Dev.fillerFrame (d : Dev) (l : Nat) : Dev := if (d.lane l).active then d.bump (F.FLX_L_frames_rx.at l) else d

/-- FILLER_FRAME_DUE (R319). -/
def Dev.fillerDue (d : Dev) (l : Nat) : Dev :=
  if (d.lane l).active then (d.emit (.laneFiller l)).bump (F.FLX_L_frames_tx.at l) else d

/-! ### Temperature bands (R352, R395) -/

/-- The band of a temperature, from the band it was in (R352): 0 cold, 1 cool, 2 nominal, 3 warm, 4 hot; down only at 3 °C below. -/
def bandOf (was : Nat) (t : Int) : Nat :=
  let up := (if 0 ≤ t then 1 else 0) + (if 25 ≤ t then 1 else 0) + (if 70 ≤ t then 1 else 0) + (if 85 ≤ t then 1 else 0)
  let dn := (if -3 < t then 1 else 0) + (if 22 < t then 1 else 0) + (if 67 < t then 1 else 0) + (if 82 < t then 1 else 0)
  if was < up then up else if dn < was then dn else was

/-- A die's band changes: its trims, start offsets and ladder slots are reloaded (R352), for blocks programmed in the new band and the first
group of blocks; a read of another block reloads the slot it uses. [DEDUCED: log 80] -/
def Dev.bandChange (d : Dev) (l die band : Nat) : Dev :=
  let d := d.onDie l die (fun x => { x with band := band })
  if !d.dieUp l die || !(d.lane l).active then d
  else match d.modRec l, d.poolOfDie (d.lane l).module die with
    | some m, some p =>
      let trim := (m.trims.drop (120 * (p.density - 1) + 24 * band)).take 24
      (List.range 8).foldl (fun (d : Dev) k => d.setThr l die k (d.thrOf m l die p.density 0 band k))
        (d.bridgeSend l { op := .setTrim, die := die, use := .admin } trim)
    | _, _ => d

/-- Program duty of loop 2 at a channel temperature (R396), in percent, between its bounds. -/
def dutyAt (lower upper : Int) (t : Int) : Int :=
  if t ≤ 80 then upper else if 90 ≤ t then lower else upper - (upper - lower) * (t - 80) / 10

/-- A safety limit takes hold of a loop (R395): counted, recorded and raised once for its span; `source` names the limit. [DEDUCED: log 82] -/
def Dev.overrideBegin (d : Dev) (loop source : Nat) (value : Int) : Dev :=
  if d.on (F.WDT_LOOP_STAT_clamped.at (loop - 1)) then d else
  let d := (d.set (F.WDT_LOOP_STAT_clamped.at (loop - 1)) 1).set (F.WDT_LOOP_STAT_source.at (loop - 1)) source
  ((d.bump (F.WDT_LOOP_CLAMPS_clamps.at (loop - 1))).event 3 .loopOverride [loop, source, fieldOfInt 32 value]).raise 12

/-- The span of an override ends. -/
def Dev.overrideEnd (d : Dev) (loop : Nat) : Dev :=
  d.set (F.WDT_LOOP_STAT_clamped.at (loop - 1)) 0

/-- The value loop 2 would give a temperature. -/
def Dev.duty (d : Dev) (t : Int) : Int :=
  if d.loopPinned 2 then d.loopPin 2 else dutyAt (d.loopLower 2) (d.loopUpper 2) t

/-- The duty the thermal limit allows a die (R395): none from 95 °C, a quarter from 92 °C, each released 2 °C below. -/
def dutyCapOf (was : Nat) (t : Int) : Nat :=
  if 95 ≤ t ∨ (was = 0 ∧ 93 ≤ t) then 0 else if 92 ≤ t ∨ (was < 100 ∧ 90 ≤ t) then 25 else 100

/-- Loop 2 (R395, R396): the lowest duty of any die is shown; a limit that holds one away from its value is an override. -/
def Dev.judgeDuty (d : Dev) : Dev :=
  let dies := d.fl.lanes.flatMap (fun e => e.2.dies.filterMap (fun x => x.2.temp.map (fun t => (t, Int.ofNat x.2.dutyCap))))
  let clamped := d.on (F.WDT_LOOP_STAT_clamped.at 1)
  let held := dies.filter (fun x => decide (x.2 < d.duty x.1))
  let low := dies.foldl (fun a x => min a (min (d.duty x.1) x.2)) (d.duty 25)
  let d := d.setI (F.WDT_LOOP_VALUE_value.at 1) low
  if d.pow.drainGate then d
  else if held.isEmpty then (if clamped && d.get (F.WDT_LOOP_STAT_source.at 1) == 2 then d.overrideEnd 2 else d)
  else d.overrideBegin 2 2 (held.foldl (fun a x => max a (d.duty x.1)) 0)

/-- Pools with a die on the channel note its highest temperature and its entries to the hot band (R377). [DEDUCED: log 80] -/
def Dev.noteChannel (d : Dev) (l : Nat) (dies : List Nat) (t : Int) (hot : Bool) : Dev :=
  let pools := (dies.filterMap (fun i => (d.poolOfDie (d.lane l).module i).map (·.poolId))).eraseDups
  pools.foldl (fun (d : Dev) p => d.onPool p (fun q => { q with tMax := some (max t (q.tMax.getD t)),
                                                                hotEntries := if hot then q.hotEntries + 1 else q.hotEntries })) d

/-- A channel temperature reaches the dies of its channel. -/
def Dev.channelTemp (d : Dev) (l ch : Nat) (t : Int) : Dev :=
  let d := d.set ((F.FLX_L_TEMP_temps.at l).sub (ch / 4))
    (let old := d.get ((F.FLX_L_TEMP_temps.at l).sub (ch / 4))
     old - bits old (8 * (ch % 4) + 7) (8 * (ch % 4)) * 2 ^ (8 * (ch % 4)) + fieldOfInt 8 t * 2 ^ (8 * (ch % 4)))
  let dies := (Tab.keys (d.lane l).dies).filter (fun i => i / 4 == ch)
  let old := d.get (F.FLX_L_BAND_band.at l)
  let shown := bits old (3 * ch + 2) (3 * ch)
  let band := bandOf ((dies.head?.map (fun i => (d.die l i).band)).getD (if 4 < shown then 2 else shown)) t
  let d := d.onLane l (fun x => { x with noTemp := x.noTemp.filter (· != ch) })
  let d := d.set (F.FLX_L_BAND_band.at l) (old - bits old (3 * ch + 2) (3 * ch) * 2 ^ (3 * ch) + band * 2 ^ (3 * ch))
  let d := d.noteChannel l dies t (band == 4 && bits old (3 * ch + 2) (3 * ch) != 4)
  dies.foldl (fun (d : Dev) i =>
    let was := (d.die l i).band
    let d := d.onDie l i (fun x => { x with temp := some t, dutyCap := dutyCapOf x.dutyCap t })
    let b := bandOf was t
    if b = was then d else d.bandChange l i b) d

/-- A channel reports no temperature (R352): its dies count as nominal, its band is unknown, and an event is recorded once. -/
def Dev.channelUnknown (d : Dev) (l ch : Nat) : Dev :=
  let old := d.get (F.FLX_L_BAND_band.at l)
  let d := d.set (F.FLX_L_BAND_band.at l) (old - bits old (3 * ch + 2) (3 * ch) * 2 ^ (3 * ch) + 7 * 2 ^ (3 * ch))
  let dies := (Tab.keys (d.lane l).dies).filter (fun i => i / 4 == ch)
  let d := dies.foldl (fun (d : Dev) i =>
    let was := (d.die l i).band
    let d := d.onDie l i (fun x => { x with temp := none, dutyCap := 100 })
    if was = 2 then d else d.bandChange l i 2) d
  if (d.lane l).noTemp.contains ch then d
  else (d.onLane l (fun x => { x with noTemp := x.noTemp ++ [ch] })).event 16 .channelTempMissing [l, ch]

/-! ### Responses -/

/-- A command leaves a lane's outstanding list. -/
def Dev.cmdDone (d : Dev) (l tag : Nat) : Dev := d.onLane l (fun x => { x with cmds := x.cmds.filter (fun c => c.tag != tag) })

/-- A response of an unknown tag (R354): the second in a row trains the lane. [DEDUCED: log 32] -/
def Dev.strayResponse (d : Dev) (l : Nat) : Dev :=
  if (d.lane l).malformed then (d.onLane l (fun x => { x with malformed := false })).trainLane l
  else d.onLane l (fun x => { x with malformed := true })

/-- The command a response answers, of an expected operation and die; where there is one, it leaves the list and the channel temperature
the response carries is taken. -/
def Dev.answer (d : Dev) (r : Resp) (op : BOp) : Option (BCmd × Dev) :=
  let l := r.lane.val
  match (d.lane l).cmds.find? (fun c => c.tag == r.tag && c.op == op && c.die == r.die.val) with
  | none => (none : Option (BCmd × Dev))
  | some c =>
    let d := (d.cmdDone l r.tag).onLane l (fun x => { x with malformed := false })
    let d := match r.temp with
      | some t => d.channelTemp l (r.die.val / 4) t
      | none => d
    some (c, d.trace 6 16 l [r.tag])

/-- A response that answers no command as it should (R327, R354): the command of its tag is issued again once, then the lane trains; a program
counts as failed, since no page is programmed twice (R334). [DEDUCED: log 32] -/
def Dev.malformed (d : Dev) (r : Resp) : Dev :=
  let l := r.lane.val
  match (d.lane l).cmds.find? (fun c => c.tag == r.tag) with
  | none => d.strayResponse l
  | some c =>
    if c.reissued then d.trainLane l
    else if c.op = .program then (d.cmdDone l c.tag).programLost c
    else (d.cmdDone l c.tag).bridgeSend l { c with reissued := true } c.data

/-- Start the handling of a silent or failing die (R351): STATUS once, then RESET_DIE. What succeeds then was transient, and only counted
(R387). -/
def Dev.dieTrouble (d : Dev) (l : Nat) (c : BCmd) : Dev :=
  (d.bump (F.FLX_L_die_timeouts.at l)).bridgeSend l { op := .status, die := c.die, use := .status c.tag }

/-- A response's status says that the command itself did not run: stale term or not owner drop the claim, absent and timeout start the
die's handling, a discarded or refused command is queued again, others count as malformed and are sent again once. -/
def Dev.notRun (d : Dev) (r : Resp) (c : BCmd) : Dev :=
  let l := r.lane.val
  match r.status with
  | .staleTerm | .notOwner => (d.onDie l c.die (fun x => { x with claimed := false })).dropCmd c
  | .timeout | .absent =>
    if c.tried then ((d.dropCmd c).event 16 .bridgeTimeout [l, c.die]).failDie l c.die
    else (d.onLane l (fun x => { x with cmds := x.cmds ++ [{ c with tried := true }] })).dieTrouble l c
  | .discarded | .refusedState => d.onDie l c.die (fun x => { x with queue := x.queue ++ c.parts })
  | _ => if c.again then (d.dropCmd c).trainLane l
    else d.onDie l c.die (fun x => { x with queue := x.queue ++ c.parts.map (fun y => { y with again := true }) })

/-- Keep a tracked offset within loop 1's bounds, or at its pinned value; answers whether a bound stopped it (R342). -/
def Dev.boundOffset (d : Dev) (x : Int) : Int × Bool :=
  if d.loopPinned 1 then (d.loopPin 1, false)
  else if x < d.loopLower 1 then (d.loopLower 1, true)
  else if d.loopUpper 1 < x then (d.loopUpper 1, true) else (x, false)

/-- Move one tracked offset of a die's block group and level. -/
def Dev.moveOffset (d : Dev) (l die group level : Nat) (dst : Int) : Dev :=
  let r := d.boundOffset dst
  let d := if r.2 then (d.bump F.FLX_thr_bound_hits).event 16 .thresholdBound [l, die, group] else d
  d.onDie l die (fun x => { x with offsets := Tab.put (group * 16 + level) r.1 x.offsets })

/-- TRACKED_OFFSET_MOVE (R342): after a read succeeds at depth k of 1 to 16, each offset of the block's group moves halfway toward
ladder entry k, rounding toward zero. -/
def Dev.ladderMove (d : Dev) (l die block density k : Nat) : Dev :=
  match d.modRec l with
  | none => d
  | some m =>
    (List.range (readLevels density)).foldl (fun (d : Dev) i =>
      let group := block / 256
      let old := d.tracked l die group (i + 1)
      let want := sByte m.ladder (256 * (density - 1) + 16 * (k - 1) + i)
      d.moveOffset l die group (i + 1) (old + Int.tdiv (want - old) 2)) d

/-- A read decoded (R336, R341): counted by depth, worst figures kept, offsets moved, and the block's band queued for relocation above
reloc_bits or reloc_depth (R375). -/
def Dev.readDecoded (d : Dev) (l : Nat) (c : BCmd) (bitsFixed : Nat) : Dev :=
  let module := (d.lane l).module
  match d.poolOfDie module c.die with
  | none => d
  | some p =>
    let d := d.bumpSat ((F.FLX_L_DEPTH_reads.at l).sub c.depth) 1
    let d := if c.again && c.depth == 0 then d.bump (F.FLX_L_read_transient.at l) else d
    let d := d.onBlock p.poolId module c.die c.block (fun x => { x with worstDepth := max x.worstDepth c.depth,
                                                                        worstBits := max x.worstBits (min bitsFixed 255) })
    let d := if 1 ≤ c.depth ∧ c.depth ≤ 16 then d.ladderMove l c.die c.block p.density c.depth else d
    let d := if c.depth = 0 ∧ !c.again then d else d.onPool p.poolId (fun q => { q with retries := q.retries + 1 })
    let v := (d.pool p.poolId).relocKey module c.die c.block
    if (d.get F.FTL_CTL_reloc_bits < bitsFixed ∨ d.get F.FTL_CTL_reloc_depth < c.depth) ∧ !(d.pool p.poolId).relocQ.contains v ∧
        !(d.pool p.poolId).victims.contains v then
      let d := d.onBlock p.poolId module c.die c.block (fun x => { x with relocs := (x.relocs ++ [x.pe]).filter (fun r => decide (x.pe ≤ r + 100)) })
      d.onPool p.poolId (fun q => { q with relocQ := q.relocQ ++ [v] })
    else d

/-- The next rung of the ladder for a read that did not decode (R341): the same read once more, entries 1 to 16, the soft read; none
is left after that. -/
def nextRung (c : BCmd) (unsat : Nat) : Option BCmd :=
  let better := match c.bestUnsat with
    | some b => decide (unsat < b)
    | none => true
  let c := if decide (1 ≤ c.depth) && decide (c.depth ≤ 16) && better then { c with bestDepth := c.depth, bestUnsat := some unsat } else c
  if c.depth = 0 ∧ !c.again then some { c with again := true }
  else if c.depth < 17 then some { c with depth := c.depth + 1, again := false } else none

/-- Send a read of the ladder: the first rung and the soft read are counted; the same read failed twice before the first rung (R387). -/
def Dev.climb (d : Dev) (l : Nat) (c : BCmd) : Dev :=
  let d := if c.depth = 1 then (d.bump F.FLX_ladder_reads).event 16 .readLasting [(d.lane l).module, c.die, c.block, c.page] else if c.depth = 17 then d.bump F.FLX_deep_decodes else d
  (d.onDie l c.die (fun x => { x with queue := c :: x.queue })).pump l c.die

/-- A fetch has its data: it goes to the read, the copy or the rebuild it serves. -/
def Dev.deliver (d : Dev) (id : Nat) (f : Fetch) (b : Bytes) : Dev :=
  let d : Dev := { d with fl := { d.fl with fetches := Tab.del id d.fl.fetches } }
  match f.for_ with
  | .read r i => { d with nv := { d.nv with reads := Tab.upd r (fun x => { x with got := Tab.put i b x.got }) d.nv.reads } }
  | .copy p j => d.onPool p (fun q => { q with copies := Tab.upd j (fun c => { c with read := true }) q.copies })
  | .rebuild => d.rebuildProgram f.pool f.stripe

/-- The block a fetch asked for, in the octets its slot reads as. -/
def Dev.fetchOpen (d : Dev) (f : Fetch) (octets : Option Bytes) : Except SlotFault Bytes :=
  match f.slot with
  | none => .ok []
  | some x => match octets with
    | none => .ok x.plain
    | some o => d.openSlot x o

/-- A slot fails its own checks: a tag mismatch is counted and recorded (R208), a decode error counted (R175). -/
def Dev.slotFails (d : Dev) (f : Fetch) (x : SlotFault) : Dev :=
  match x with
  | .tag => (d.bump F.CIP_tag_failures).event 10 .tagMismatch [f.pool, f.stripe, f.member]
  | .decode => d.bump F.RED_decode_errors
  | .crc => d

/-- A fetch's slot is sealed and the keys went before it could be decrypted (R149). -/
def Dev.fetchShut (d : Dev) (f : Fetch) : Bool := !d.keysUsable && f.slot.any (fun x => tb x.desc.ctl 3)

/-- A sealed slot has been read without keys: a read ends with Keys Not Loaded (R149); a copy or a rebuild needs none. -/
def Dev.fetchSealed (d : Dev) (id : Nat) (f : Fetch) : Dev :=
  match f.for_ with
  | .read r _ =>
    let d : Dev := { d with fl := { d.fl with fetches := Tab.del id d.fl.fetches } }
    { d with nv := { d.nv with reads := Tab.upd r (fun (x : ReadRec) => { x with noKeys := true }) d.nv.reads } }
  | _ => d.deliver id f []

/-- A member of a fetch decoded. The slot's own checks (R24, R175, R208) decide: a direct read that fails them is reconstructed from
the others; a reconstruction that fails them falls back on the target where that was not read, and otherwise the block is lost to the
read. -/
def Dev.fetchGot (d : Dev) (id member : Nat) (dec : Decode) : Dev :=
  match Tab.find? id d.fl.fetches with
  | none => d
  | some f =>
    let left := f.need.filter (· != member)
    let d := d.onFetch id (fun f => { f with need := left })
    if !left.isEmpty then d
    else if d.fetchShut f then d.fetchSealed id f
    else match d.fetchOpen f dec.slot with
    | .ok b => d.deliver id f b
    | .error x =>
      let d := d.slotFails f x
      if f.direct then d.fetchMemberBad id member
      else match d.stripe f.pool f.stripe with
        | some s =>
          let target := s.members[f.member]?
          if f.bad.contains f.member || (match target with | some m => d.memberOut m | none => true) then d.fetchFails id
          else (d.onFetch id (fun f => { f with direct := true, need := [f.member], bad := f.bad ++ [f.member] })).readMember id s f.member
        | none => d.fetchFails id

/-- A verify read at the margin offsets (R343): a page passes where every codeword decodes with at most verify_bits corrected. [DEDUCED: log 106] -/
def Dev.verifyRead (d : Dev) (l : Nat) (c : BCmd) (dec : Decode) : Dev :=
  let limit := match d.modRec l with
    | some m => if m.verifyBits = 0 then 64 else m.verifyBits
    | none => 64
  let ok := dec.decoded && decide (dec.bits ≤ limit)
  let d := if ok && c.again then d.bump (F.FLX_L_verify_transient.at l) else d
  let d := match d.poolOfDie (d.lane l).module c.die with
    | some p => if ok && !c.again then d else d.onPool p.poolId (fun q => { q with verifies := q.verifies + 1 })
    | none => d
  if !ok && !c.again then (d.onDie l c.die (fun x => { x with queue := { c with again := true } :: x.queue })).pump l c.die
  else
    let d := if ok then d else (d.bump (F.FLX_L_verify_lasting.at l)).event 16 .verifyLasting [(d.lane l).module, c.die, c.block, c.page]
    match c.use with
    | .program p i m => if ok then d.memberVerified p i m else d.memberFailed p i m
    | .rebuilt p i m => if ok then d.rebuildVerified p i m else d.rebuildFailed p i m
    | .replay p i m => if ok then d.memberVerified p i m else d.abandon p i
    | .journal p module => if ok then d else (d.growBad module c.die c.block).journalCopyBad p module c.die c.block c.page
    | _ => d

/-- Mark a path or die faulty (R264). [DEDUCED: log 69] -/
def Dev.markFaulty (d : Dev) (key module : Nat) (k : EvKind) : Dev :=
  if d.head.faulty.contains key then d else
  let d := (d.bump F.HHL_st_faults).onHead (fun h => { h with faulty := h.faulty ++ [key] })
  (((d.set F.HHL_ST_STAT_last_fault_module module).set F.HHL_ST_STAT_fault_present 1).set F.HHL_ST_STAT_faulty d.head.faulty.length).event 12 k
    [module]

/-- What the page of a die check showed (R264): a failed check is repeated once, and a die that fails again is faulty. -/
def Dev.dieChecked (d : Dev) (l : Nat) (c : BCmd) (ok : Bool) : Dev :=
  if ok then d
  else if c.again then d.markFaulty (dieKey (d.lane l).module c.die) (d.lane l).module .dieFaulty
  else d.bridgeSend l { c with again := true }

/-- A die fails when more than 5 % of its blocks are grown-bad (R351). -/
def Dev.judgeDie (d : Dev) (l die : Nat) : Dev :=
  match (d.die l die).record, d.modRec l with
  | some k, some m => if m.blocks < 20 * k.grownBad.length then d.failDie l die else d
  | _, _ => d

/-- READ_RESPONSE (R341): decoded codewords go where they are wanted; others climb the ladder, and a page that fails the last step is
unreadable (R281). -/
def Dev.readResponse (d : Dev) (r : Resp) (dec : Decode) : Dev :=
  let l := r.lane.val
  match d.answer r .read with
  | none => d.malformed r
  | some (c, d) =>
    let d :=
      if c.use == .selfTest then d.dieChecked l c (r.status == .ok && dec.decoded)
      else if r.status != .ok then d.notRun r c
      else if c.margin then d.verifyRead l c dec
      else match c.use with
        | .option 1 =>
          if dec.decoded then d.onDie l c.die (fun x => { x with queue := x.queue ++ [({ c with op := .program, page := c.page + 1, use := .option 2 } : BCmd)] })
          else d.optionUpdate l c.die
        | .fetch id m =>
          if dec.decoded then (d.readDecoded l c dec.bits).fetchGot id m dec
          else match nextRung c dec.unsat with
            | some c => d.climb l c
            | none =>
              let d := d.bump F.FLX_deep_failures
              let d := match Tab.find? id d.fl.fetches with
                | some f => match d.stripe f.pool f.stripe with
                  | some s => if (s.members[m]?).any (fun (x : MemberAddr) => x.die == c.die && x.block == c.block && x.page == c.page) then
                      d.unreadable f.pool f.stripe m else d
                  | none => d
                | none => d
              d.fetchMemberBad id m
        | _ => d
    (d.judgeDie l c.die).pump l c.die

/-- A page is programmed: it goes on to its margin read (R343), a die record's page to be read back (R348). -/
def Dev.pageProgrammed (d : Dev) (l : Nat) (c : BCmd) : Dev :=
  match c.use with
  | .option 0 => d.onDie l c.die (fun x => { x with queue := x.queue ++ [({ c with op := .read, use := .option 1 } : BCmd)] })
  | .option _ => d
  | .program p i m =>
    let d := d.onStripe p i (fun s => { s with members := s.members.modify m (fun x => { x with state := 1 }) })
    let d := match d.stripe p i with
      | some s => d.onPool p (fun q => { q with bandProg := Tab.put s.band d.boot.settings.opSeconds q.bandProg })
      | none => d
    d.onDie l c.die (fun x => { x with queue := x.queue ++ [{ c with op := .read, margin := true, again := false, data := [] }] })
  | _ => d.onDie l c.die (fun x => { x with queue := x.queue ++ [{ c with op := .read, margin := true, again := false, data := [] }] })

/-- A page's program failed (R274, R334, R350): its block is grown-bad and its stripe abandoned; a die record goes to the next pair. -/
def Dev.pageFailed (d : Dev) (l : Nat) (c : BCmd) : Dev :=
  match c.use with
  | .program p i m => d.memberFailed p i m
  | .rebuilt p i m => d.rebuildFailed p i m
  | .journal p module => (d.growBad module c.die c.block).journalCopyBad p module c.die c.block c.page
  | .option _ => d.optionUpdate l c.die
  | _ => d

/-- The planes of a program that a FAIL names (R334); a FAIL that names none of them, or of a single plane, is all of them. [DESIGN CHOICE: log 27] -/
def Dev.planesFailed (d : Dev) (l planeFail : Nat) (c : BCmd) : List Nat :=
  let planes := ((d.modRec l).map (·.planes)).getD 1
  let named := (c.parts.map (·.block)).filter (fun b => tb planeFail (b % planes))
  if c.mates.isEmpty || named.isEmpty then c.parts.map (·.block) else named

/-- PROGRAM_RESPONSE (R334, R343, R350): OK starts the margin reads; FAIL fails the planes it names, and the pages of the others go on. -/
def Dev.programResponse (d : Dev) (r : Resp) : Dev :=
  let l := r.lane.val
  match d.answer r .program with
  | none => d.malformed r
  | some (c, d) =>
    let bad := if r.status == .fail then d.planesFailed l r.planeFail c else []
    let d := if r.status == .ok || r.status == .fail then
        let d := if r.status == .fail then d.bump (F.FLX_L_program_fails.at l) else d
        c.parts.foldl (fun (d : Dev) x => if bad.contains x.block then d.pageFailed l x else d.pageProgrammed l x) d
      else d.notRun r c
    (d.judgeDie l c.die).pump l c.die

/-- ERASE_RESPONSE (R335, R373): an erased block is free with one more cycle; FAIL makes it grown-bad. [DEDUCED: log 99] -/
def Dev.eraseResponse (d : Dev) (r : Resp) : Dev :=
  let l := r.lane.val
  match d.answer r .erase with
  | none => d.malformed r
  | some (c, d) =>
    let module := (d.lane l).module
    let d := d.onDie l c.die (fun x => { x with starved := false, suspCount := 0 })
    let d := match r.status, c.use with
      | .ok, .erase p =>
        let d := d.onDie l c.die (fun x => { x with record := x.record.map (fun (r : DieRec) => { r with eraseIncomplete := r.eraseIncomplete.filter (· != c.block) }) })
        d.onBlock p module c.die c.block (fun x => { x with state := 0, pe := min (x.pe + 1) (2 ^ 24 - 1), use := if x.use = 2 then 2 else 0,
                                                            worstDepth := 0, worstBits := 0, band := 0, nextPage := 0 })
          |>.onPool p (fun q => { q with stripes := Tab.mapV (fun (s : Stripe) => { s with unplaceable := false }) q.stripes })
      | .fail, _ => (d.bump (F.FLX_L_erase_fails.at l)).growBad module c.die c.block
      | _, _ => d.notRun r c
    (d.judgeDie l c.die).pump l c.die

/-- SUSPEND_RESPONSE (R338): the erase is suspended, and the die's reads are served. -/
def Dev.suspendResponse (d : Dev) (r : Resp) : Dev :=
  let l := r.lane.val
  match d.answer r .suspend with
  | none => d.malformed r
  | some (c, d) =>
    let d := match r.status with
      | .suspended =>
        let e := List.find? (fun (x : BCmd) => x.die == c.die && x.op == BOp.erase) (d.lane l).cmds
        let d := d.onLane l (fun x => { x with cmds := x.cmds.filter (fun k => !(k.die == c.die && k.op == BOp.erase)) })
        d.onDie l c.die (fun x => { x with susp := e, suspCount := x.suspCount + 1, progInSusp := false })
      | .notRunning | .ok => d
      | _ => d.notRun r { c with again := true }
    d.pump l c.die

/-- RESUME_RESPONSE (R338): the suspended erase runs again. -/
def Dev.resumeResponse (d : Dev) (r : Resp) : Dev :=
  let l := r.lane.val
  match d.answer r .resume with
  | none => d.malformed r
  | some (c, d) =>
    let e := (d.die l c.die).susp
    let d := match r.status with
      | .ok | .notRunning =>
        let d := d.onLane l (fun x => { x with cmds := x.cmds ++ (match e with | some k => [k] | none => []) })
        d.onDie l c.die (fun x => { x with susp := none, runSince := d.pow.aon, progInSusp := false })
      | _ => d.notRun r { c with again := true }
    d.pump l c.die

/-- BRIDGE_COMMAND_TIMEOUT (R351): STATUS, then RESET_DIE, each once; a die silent through both has failed. -/
def Dev.commandTimeout (d : Dev) (l tag : Nat) : Dev :=
  match (d.lane l).cmds.find? (fun c => c.tag == tag) with
  | none => d
  | some c =>
    match c.use with
    | .status t => ((d.cmdDone l tag).bump (F.FLX_L_die_timeouts.at l)).bridgeSend l { op := .resetDie, die := c.die, use := .resetDie (some t) }
    | .resetDie _ => ((d.cmdDone l tag).event 16 .bridgeTimeout [l, c.die]).failDie l c.die
    | .claim => if d.head.phase == .takeover then d.cmdDone l tag else (d.cmdDone l tag).claimLane l
    | _ =>
      if c.op == .bridgeStatus || c.op == .loopback then d.cmdDone l tag
      else if c.use == .selfTest then (d.cmdDone l tag).dieChecked l c false
      else if c.tried then (d.event 16 .bridgeTimeout [l, c.die]).failDie l c.die
      else d.dieTrouble l c

/-- STATUS_RESPONSE (R351, R353): RESET_DIE follows for a die in trouble; at recovery for one that holds a suspended erase. -/
def Dev.statusResponse (d : Dev) (r : Resp) : Dev :=
  let l := r.lane.val
  match d.answer r .status with
  | none => d.malformed r
  | some (c, d) =>
    match c.use with
    | .status t => d.bridgeSend l { op := .resetDie, die := c.die, use := .resetDie (some t) }
    | .recover =>
      if r.status == .timeout || r.status == .absent then d.notRun r c
      else if r.status == .suspended || d.fl.suspended.contains (dieKey (d.lane l).module c.die) then
        d.bridgeSend l { op := .resetDie, die := c.die, use := .resetDie none }
      else d.pump l c.die
    | _ => d.pump l c.die

/-- RESET_DIE_RESPONSE (R351, R353): the command that timed out runs once more (a program never does: it counts as failed); a die that
answers TIMEOUT or ABSENT has failed. -/
def Dev.resetDieResponse (d : Dev) (r : Resp) : Dev :=
  let l := r.lane.val
  match d.answer r .resetDie with
  | none => d.malformed r
  | some (c, d) =>
    if r.status != .ok then d.failDie l c.die else
    let d := d.onDie l c.die (fun x => { x with susp := none })
    let d : Dev := { d with fl := { d.fl with suspended := d.fl.suspended.filter (· != dieKey (d.lane l).module c.die) } }
    let d := match c.use with
      | .resetDie (some t) => match List.find? (fun (k : BCmd) => k.tag == t) (d.lane l).cmds with
        | none => d
        | some k =>
          let d := d.cmdDone l t
          if k.op = BOp.program then d.programLost k else d.onDie l k.die (fun x => { x with queue := { k with tried := true } :: x.queue })
      | _ => d
    d.pump l c.die

/-- A response that only ends its command: SET_THRESH and SET_TRIM (R341, R352). -/
def Dev.plainResponse (d : Dev) (r : Resp) (op : BOp) : Dev :=
  match d.answer r op with
  | none => d.malformed r
  | some (c, d) =>
    (if r.status == .ok then d
     else if r.status == .discarded ∨ r.status == .refusedState then d.bridgeSend r.lane.val c c.data
     else d.notRun r { c with again := true }).pump r.lane.val c.die

/-- CLAIM_RESPONSE (R243, R260, R353): the dies of the mask are this head's under the term, and the STATUS of each is read once since the
start; or the claim was too low. [DESIGN CHOICE: log 124] -/
def Dev.claimResponse (d : Dev) (r : Resp) : Dev :=
  let l := r.lane.val
  match d.answer r .claim with
  | none => d.malformed r
  | some (c, d) =>
    let mask := leNat (c.data.take 8)
    let dies := (List.range 64).filter (fun i => tb mask i && (d.die l i).present)
    match r.status with
    | .ok => (dies.foldl (fun (d : Dev) i =>
        let new := !(d.die l i).asked
        let d := d.onDie l i (fun x => { x with claimed := true, asked := true })
        let d := if new && !(d.die l i).failed then d.bridgeSend l { op := .status, die := i, use := .recover } else d
        d.pump l i) d).recheckAll
    | .claimLow =>
      let d := (dies.foldl (fun (d : Dev) i => d.onDie l i (fun x => { x with claimed := false })) d).event 16 .claimRefused [l]
      if d.head.phase == .takeover then dies.foldl (fun (d : Dev) i => d.failDie l i) d else d.recheckAll
    | _ => d

/-- BRIDGE_STATUS_RESPONSE (R326, R352): highest term, dies present, channel temperatures. -/
def Dev.bridgeStatusResponse (d : Dev) (r : Resp) (b : BridgeStatus) : Dev :=
  let l := r.lane.val
  match d.answer r .bridgeStatus with
  | none => d.malformed r
  | some (_, d) =>
    let d := d.set (F.FLX_L_TERM_term.at l) b.maxTerm
    let d := ((List.range 16).zip b.chTemp).foldl (fun (d : Dev) x => match x.2 with
      | some t => d.channelTemp l x.1 t
      | none => d.channelUnknown l x.1) d
    let was := (d.lane l).dies
    let d := d.onLane l (fun x => { x with dies := x.dies.map (fun e => (e.1, { e.2 with present := tb b.present e.1 })) })
    (if (d.lane l).dies == was then d else d.recheckAll).judgeDuty

/-- BRIDGE_STATUS_POLL (R352): every active lane is asked. -/
def Dev.bridgePoll (d : Dev) : Dev :=
  (List.range 64).foldl (fun (d : Dev) l => if (d.lane l).active then d.bridgeSend l { op := .bridgeStatus, die := 0, use := .admin } else d) d

/-- STARVED_ERASE (R339): an erase outstanding past its time is counted and reported once; no block is opened on its die until it ends. -/
def Dev.starvedErase (d : Dev) (l die : Nat) : Dev :=
  let x := d.die l die
  if x.starved || !((d.lane l).cmds.any (fun c => c.die == die && c.op == .erase) || x.susp.isSome) then d
  else ((d.onDie l die (fun x => { x with starved := true })).bump F.FLX_starved_erases).event 16 .starvedErase [l, die]

/-- The move that three reads call for (R342): toward the read with the fewest corrected bits, none where the tracked offsets read best or the
two others read alike. [DESIGN CHOICE: log 124] -/
def thrMove (s : ThrSample) : Int :=
  if s.at_ ≤ s.below ∧ s.at_ ≤ s.above then 0 else if s.below < s.above then -1 else if s.above < s.below then 1 else 0

/-- THRESHOLD_SAMPLE (R342): an offset moves one step toward the best of the three reads; a pinned loop does not move. -/
def Dev.thresholdSample (d : Dev) (l die group level : Nat) (reads : ThrSample) : Dev :=
  let old := d.tracked l die group level
  if d.dieUp l die then d.moveOffset l die group level (old + thrMove reads) else d

end Sys2Proof.Machine
end

