-- ==== Sys2Proof/Machine/Windows.lean ====
section
/-! DEFINITION. Queue pairs as the head sees them from outside their packets, capture windows, credit (R103 to R119, R128, R130), the
context cache (R105), and the pace of loop 4 (R397). -/
namespace Sys2Proof.Machine

/-! ### Paths and sending (R124, R128) -/

/-- Change the network state. -/
def Dev.onNet (d : Dev) (f : NetState → NetState) : Dev := { d with net := f d.net }

/-- The paths of a queue pair that are up. -/
def Dev.upPaths (d : Dev) (x : Qp) : List SubPort := x.paths.filter (fun s => d.net.up.contains s)

/-- A packet leaves on a sub-port (R133 counts it). [DESIGN CHOICE: log 22] -/
def Dev.portSend (d : Dev) (s : SubPort) (payload : Nat) (o : Output) : Dev :=
  ((d.bump (F.NET_P_tx_packets.at s.port)).bump (F.NET_P_tx_bytes.at s.port) (Config.frameOctets payload)).emit o

/-- A packet of a queue pair goes to a sub-port: it leaves at once, or waits while the link partner pauses its priority (R130). [DESIGN CHOICE: log 118] -/
def Dev.portOut (d : Dev) (q : Nat) (s : SubPort) (payload : Nat) (o : Output) : Dev :=
  let prio := (Config.txPriority q).val
  if d.net.gotXoff.contains (s.port.val, prio) then { d with txHeld := d.txHeld ++ [{ port := s, prio := prio, payload := payload, packet := o }] }
  else d.portSend s payload o

/-- The packets of a port that no pause holds any more leave in order. -/
def Dev.resumeTx (d : Dev) : Dev :=
  let go := d.txHeld.filter (fun t => !d.net.gotXoff.contains (t.port.port.val, t.prio))
  let d : Dev := { d with txHeld := d.txHeld.filter (fun t => d.net.gotXoff.contains (t.port.port.val, t.prio)) }
  go.foldl (fun (d : Dev) t => d.portSend t.port t.payload t.packet) d

/-- Send a packet on a queue pair: once, or on the first path and the next that is up where the queue pair is protected (R128). A
fenced head sends nothing (R256). -/
def Dev.qpSend (d : Dev) (q : Nat) (payload : Nat) (o : Output) : Dev :=
  if d.fenced then d else
  let x := d.qp q
  match d.upPaths x with
  | a :: b :: _ => if x.prot then (d.portOut q a payload o).portOut q b payload o else d.portOut q a payload o
  | [a] => d.portOut q a payload o
  | [] => if x.paths.isEmpty then d.emit o else d

/-- One or more paths of a protected queue pair are down: it sends on one path, and an event says so (R128). [DEDUCED: log 36] -/
def Dev.judgePaths (d : Dev) (q : Nat) : Dev :=
  let x := d.qp q
  let single := x.prot && (d.upPaths x).length == 1
  let d' := d.onQp q (fun x => { x with singlePath := single })
  if single && !x.singlePath then d'.event 7 .singlePath [q] else d'

/-! ### The context cache (R105) -/

/-- A cached context that may not be evicted. -/
def Qp.pinned (x : Qp) : Bool := !x.msgs.isEmpty || x.tracker || x.readsOut != 0 || !x.held.isEmpty || x.fetching

/-- How many contexts are cached. -/
def Dev.cachedQps (d : Dev) : Nat := (d.net.qps.filter (fun e => e.2.cached)).length

/-- The least recently used of some queue pairs. -/
def oldestQp : List (Nat × Qp) → Option (Nat × Qp)
  | [] => none
  | e :: t => match oldestQp t with
    | some o => if o.2.lastUse < e.2.lastUse then some o else some e
    | none => some e

/-- The context R105 evicts: the least recently used of the unpinned, one with a bound window only where no other is left. -/
def Dev.evictee (d : Dev) : Option Nat :=
  let free := d.net.qps.filter (fun e => e.2.cached && !e.2.pinned)
  match oldestQp (free.filter (fun e => e.2.windows.isEmpty)) with
  | some e => some e.1
  | none => (oldestQp free).map (·.1)

/-- A context is used. -/
def Dev.touchQp (d : Dev) (q : Nat) : Dev :=
  let n := d.net.useClock + 1
  (d.onNet (fun x => { x with useClock := n })).onQp q (fun x => { x with lastUse := n })

/-- A context enters the cache where there is room or one can be evicted; with every context pinned it stays outside. -/
def Dev.cacheQp (d : Dev) (q : Nat) : Dev :=
  if (d.qp q).cached then d
  else if d.cachedQps < 32768 then (d.onQp q (fun x => { x with cached := true })).touchQp q
  else match d.evictee with
    | some v => (((d.onQp v (fun x => { x with cached := false })).bump F.RDM_evictions).onQp q (fun x =>
        { x with cached := true })).touchQp q
    | none => d

/-! ### Spans, limits, pace (R114 to R116, R222, R223, R397) -/

/-- The buffer the spans share (R114): 14 MiB with Mirror requested or in effect, else 28 MiB. -/
def Dev.spanPool (d : Dev) : Nat := if d.mirrorReq || d.mode 1 then 14 * 2 ^ 20 else 28 * 2 ^ 20

/-- How many windows a head binds at most (R114). -/
def Dev.maxBound (d : Dev) : Nat := d.spanPool / 65536

/-- A window's QOS share; 1 where the record names none. -/
def Dev.share (d : Dev) (w : Nat) : Nat :=
  (((d.img.qos.flatMap (fun r => r.entries)).find? (fun e => e.kind == 0 && e.id == w)).map (·.share)).getD 1

/-- The bound windows. -/
def Dev.bound (d : Dev) : List Nat := (d.net.wins.filter (fun e => e.2.state == .bound)).map (·.1)

/-- The span of R114 for a window with share `share` of `total`, length `len`, among `n` bound windows of `u` units. -/
def spanOf (len u n share total : Nat) : Nat := min len (65536 * (1 + (u - n) * share / total))

/-- The spans are recomputed at every bind and unbind, change of the Mirror request and activation of a QOS record (R114). -/
def Dev.recomputeSpans (d : Dev) : Dev :=
  let l := d.bound
  let total := (l.map d.share).sum
  let u := d.maxBound
  l.foldl (fun (d : Dev) w =>
    let s := spanOf (((d.img.window? w).map (·.length)).getD 0) u l.length (d.share w) total
    d.onWin w (fun x => { x with span := s, reduced := x.reduced || decide (s < x.span) })) d

/-- Upper bound of a pace. -/
def Dev.paceTop (d : Dev) : Nat := if d.loopPinned 4 then (d.loopPin 4).toNat else (d.loopUpper 4).toNat

/-- Whether limits of a window may move: budget not reached, no gate of R113 closed, no drain (R222, R113, R395). -/
def Dev.limitsMove (d : Dev) (w : Nat) : Bool :=
  !d.stg.budgetReached && !d.pow.drainGate &&
    (match d.img.window? w with | some r => d.winHold r == 0 | none => false)

/-- Advance a bound window's limit as far as span, buffer, budget and pace allow (R115, R223, R397). -/
def Dev.advanceLimit (d : Dev) (w : Nat) : Dev :=
  let x := d.win w
  if x.state != .bound || !d.limitsMove w then d else
  let want := max x.limit (x.horizon + x.span)
  let paced := match x.advAt with
    | some t => x.limit + (if x.pace = 0 then d.paceTop else x.pace) * (d.pow.aon - t) / 1000
    | none => want
  let fit := min (min want paced) (x.limit + (d.spanPool - d.granted))
  let new := min fit (x.limit + (d.budget - d.dirty))
  if new ≤ x.limit then d else
  let d := if new < fit then d.bump F.STG_limit_cuts else d
  d.onWin w (fun x => { x with limit := new, advAt := some d.pow.aon })

/-- The lowest pace of any window or queue pair is loop 4's value (R400). -/
def Dev.judgePace (d : Dev) : Dev :=
  let paces := (d.net.wins.filter (fun e => e.2.state == .bound)).map (fun e => if e.2.pace = 0 then d.paceTop else e.2.pace) ++
    (d.net.qps.map (fun e => if e.2.pace = 0 then d.paceTop else e.2.pace))
  d.setI (F.WDT_LOOP_VALUE_value.at 3) (Int.ofNat (paces.foldl min d.paceTop))

/-- A pace halves, not below the lower bound (R397). -/
def Dev.halved (d : Dev) (pace : Nat) : Nat := max (d.loopLower 4).toNat ((if pace = 0 then d.paceTop else pace) / 2)

/-- A mark on a queue pair: at most once per cnp_interval_us the pace of its windows (a CE mark) or its own (a CNP) halves. -/
def Dev.markPace (d : Dev) (q : Nat) (own : Bool) : Dev :=
  let x := d.qp q
  let soon := match x.cutAt with
    | some t => decide (d.pow.aon < t + 1000 * d.get F.RDM_CTL_cnp_interval_us)
    | none => false
  if d.loopPinned 4 || soon then d else
  let d := d.onQp q (fun x => { x with cutAt := some d.pow.aon })
  let d := if own then d.onQp q (fun x => { x with pace := d.halved x.pace })
    else x.windows.foldl (fun (d : Dev) w => d.onWin w (fun y => { y with pace := d.halved y.pace })) d
  d.judgePace

/-- PACE_RISE (R397): an auto pace rises by 1/64 of its upper bound, up to it; at the top it is not kept apart. -/
def Dev.paceRise (d : Dev) (q : Nat) : Dev :=
  if d.loopPinned 4 then d else
  let top := d.paceTop
  let up (p : Nat) : Nat := if p = 0 ∨ top ≤ p + top / 64 then 0 else p + top / 64
  let ws := (d.qp q).windows
  let d := d.onQp q (fun x => { x with pace := up x.pace })
  (ws.foldl (fun (d : Dev) w => d.onWin w (fun y => { y with pace := up y.pace })) d).judgePace

/-! ### Credit (R113, R117, R118) -/

/-- The window's channel, where it has one. -/
def Dev.channelOf (d : Dev) (w : Nat) : Option Nat :=
  (d.img.window? w).bind (fun r => if r.channel < 8 then some r.channel else none)

/-- The payload of a credit message (R118), big-endian. -/
def creditBytes (flags window cseq horizon limit lastImm hold : Nat) : Bytes :=
  [b8 1, b8 flags] ++ beBytes 2 window ++ beBytes 4 cseq ++ beBytes 8 horizon ++ beBytes 8 limit ++ beBytes 4 lastImm ++ [b8 hold, 0, 0, 0]

/-- Send a credit message for a window (R118) to the sender's queue pair, with the values the sender may be told. -/
def Dev.sendCredit (d : Dev) (w : Nat) (revoked : Bool) : Dev :=
  let x := d.win w
  let held := match d.img.window? w with
    | some r => d.winHold r != 0
    | none => true
  let flags := b2n revoked + 2 * b2n held + 4 * b2n x.reduced
  let hold := match d.channelOf w with
    | some c => d.chanHold c
    | none => 0
  let seq := (x.cseq + 1) % 2 ^ 32
  let d := d.onWin w (fun x => { x with cseq := seq, reduced := false, owes := false, heldTold := held, creditAt := some d.pow.aon })
  (d.bump F.RDM_credit_msgs).qpSend x.qpn 32
    (.credit x.qpn (d.qp x.qpn).peerQpn (creditBytes flags w seq x.shownH x.shownL x.lastImm hold))

/-- Window state as it is mirrored (R132, R249). -/
def Dev.winMirror (d : Dev) (w : Nat) : WinMirror :=
  let x := d.win w
  { window := w, horizon := x.horizon, limit := x.limit, cseq := x.cseq, lastImm := x.lastImm, qpn := x.qpn,
    revoked := x.state == .revoked }

/-- Send window state and its channel's last matched frame (R87) to the peer, and note under which link sequence it went. -/
def Dev.mirrorWin (d : Dev) (w : Nat) : Dev :=
  if !d.mirroring then d else
  let x := d.win w
  let d := d.peerSend (.window (d.winMirror w))
  let d := match d.channelOf w with
    | some c => match (d.chan c).mirroredLast with
      | some m => (d.peerSend (.lastMatched c m.1 m.2)).onChan c (fun x => { x with sayLast := false })
      | none => d
    | none => d
  d.onWin w (fun y => { y with mirAt := y.mirAt ++ [(d.head.txLseq, x.horizon, x.limit)] })

/-- The peer has acknowledged the link up to a sequence: the window states sent up to there are held (R113). [DEDUCED: log 42] -/
def Dev.winsHeld (d : Dev) (lseq : Nat) : Dev :=
  { d with net := { d.net with wins := Tab.mapV (fun (x : Win) =>
      let ok := x.mirAt.filter (fun t => decide ((lseq + 2 ^ 32 - t.1) % 2 ^ 32 < 2 ^ 31))
      { x with mirAt := x.mirAt.filter (fun t => !decide ((lseq + 2 ^ 32 - t.1) % 2 ^ 32 < 2 ^ 31))
               mirroredH := ok.foldl (fun a t => max a t.2.1) x.mirroredH
               mirroredL := ok.foldl (fun a t => max a t.2.2) x.mirroredL }) d.net.wins } }

/-- What the sender of a window may be told now (R113): nothing more while a gate is closed, and with Mirror in effect only what the
peer holds. That a gate has closed is told once, by the held flag (the examples after R216, R240 and R437). [DEDUCED: log 42] -/
def Dev.tell (d : Dev) (w : Nat) : Dev :=
  let x := d.win w
  if x.state != .bound then d else
  let open_ := match d.img.window? w with
    | some r => d.winHold r == 0
    | none => false
  if !open_ then (if x.heldTold then d else d.onWin w (fun y => { y with owes := true, heldTold := true })) else
  let h := max x.shownH (if d.mode 1 then min x.horizon x.mirroredH else x.horizon)
  let l := max x.shownL (if d.mode 1 then min x.limit x.mirroredL else x.limit)
  if h = x.shownH ∧ l = x.shownL then d else d.onWin w (fun y => { y with shownH := h, shownL := l, owes := true })

/-- A bound window whose queue pair sends credit messages: in RTR it sends ACK and NAK only (R103). -/
def Dev.creditFlows (d : Dev) (w : Nat) : Bool := (d.win w).state == .bound && (d.qp (d.win w).qpn).state != .rtr

/-- Send an owed credit message (R117): at once, or so that advances within 500 ns share one message. [DEDUCED: log 42] -/
def Dev.payCredit (d : Dev) (w : Nat) : Dev :=
  let x := d.win w
  let soon := match x.creditAt with
    | some t => decide (d.pow.aon < t + 500)
    | none => false
  if x.owes && !soon && d.creditFlows w then d.sendCredit w false else d

/-- CREDIT_REFRESH (R117): a credit message for each bound window. -/
def Dev.creditRefresh (d : Dev) : Dev := (d.bound.filter d.creditFlows).foldl (fun (d : Dev) w => d.sendCredit w false) d

/-! ### Binding, revocation, Error (R104, R109, R112) -/

/-- The oldest message of a queue pair that is complete and not acknowledged: its first PSN and the MSN before it. -/
def Dev.oldestUnacked (d : Dev) (q : Nat) : Option (Nat × Nat) :=
  let x := d.qp q
  let age (p : Nat) : Nat := (x.msgBase + 2 ^ 24 - p % 2 ^ 24) % 2 ^ 24
  let l := x.windows.flatMap (fun w => (d.win w).done)
  l.foldl (fun (a : Option (Nat × Nat)) m => match a with
    | none => some (m.first, m.msn)
    | some b => if age b.1 < age m.first then some (m.first, m.msn) else some b) none

/-- The sub-parts of a queue pair's context the peer keeps (R132): the PSN to go on from is that of the oldest message not yet
acknowledged, and the MSN is that before it. One with no window left is not adopted. [DESIGN CHOICE: log 117] -/
def Dev.qpMirror (d : Dev) (q : Nat) : QpMirror :=
  let x := d.qp q
  let at_ := (d.oldestUnacked q).getD (x.msgBase, x.msn)
  { qpn := q, senderQpn := x.peerQpn, uc := x.uc, spray := x.spray, prot := x.prot, epsn := at_.1, msn := at_.2, mtu := x.mtu,
    paths := x.paths, windows := x.windows }

/-- Mirror a capture queue pair's context and its windows (R132). -/
def Dev.mirrorQp (d : Dev) (q : Nat) : Dev :=
  if (d.qp q).use == .capture then (d.qp q).windows.foldl Dev.mirrorWin (d.mirrorState (.qp (d.qpMirror q))) else d

/-- Bind a window to a queue pair: it starts from its kept horizon, limit and last immediate, cseq at 1 in the REP (R108, R110, R118);
what the sender is told begins with what was told before (R113). [DESIGN CHOICE: log 117] -/
def Dev.bindWin (d : Dev) (q w : Nat) : Dev :=
  d.onWin w (fun x => { x with state := .bound, qpn := q, cseq := 1, bindBase := x.horizon, adopted := false, reduced := false, span := 0,
                               byErr := false, advAt := none, creditAt := none, owes := false })

/-- Revoke a window (R112): one credit message with the revoked flag where it was bound, its incomplete messages discarded, and no
byte of them kept. -/
def Dev.revokeWin (d : Dev) (w : Nat) (byErr : Bool) : Dev :=
  let x := d.win w
  match x.state with
  | .absent => d
  | .revoked => d
  | s =>
    let d := if s == .bound then
        (d.sendCredit w true).onQp x.qpn (fun y =>
          { y with windows := y.windows.filter (· != w)
                   msgs := y.msgs.map (fun m => if m.win = some w then { m with parts := [] } else m) })
      else d
    let d := d.onWin w (fun x => { x with state := .revoked, byErr := byErr, owes := false })
    ((d.event 7 .windowRevoked [w]).recomputeSpans).mirrorWin w

/-- Reopen a window, keeping horizon and limit (R112). -/
def Dev.reopenWin (d : Dev) (w : Nat) : Dev :=
  (d.onWin w (fun x => { x with state := .openUnbound, qpn := 0, adopted := false, byErr := false })).mirrorWin w

/-- Return a queue pair's windows to open-unbound (R103: a disconnect revokes nothing). -/
def Dev.unbindAll (d : Dev) (q : Nat) : Dev :=
  let ws := (d.qp q).windows
  let d := ws.foldl (fun (d : Dev) w => d.reopenWin w) d
  (d.onQp q (fun x => { x with windows := [] })).recomputeSpans

/-- Octets that packets held for a context take in the miss buffer: their payloads. [DESIGN CHOICE: log 117] -/
def heldOctets : Instr → Nat × Nat
  | .send p _ _ b => (p.port.port.val, b.length)
  | .rdmaWrite p _ _ b => (p.port.port.val, b.length)
  | .rdmaWriteWithImmediate p _ _ _ b => (p.port.port.val, b.length)
  | .sprayWriteNotLast p _ b => (p.port.port.val, b.length)
  | .sprayWriteLast p _ b => (p.port.port.val, b.length)
  | .sprayWriteLastImmediate p _ _ b => (p.port.port.val, b.length)
  | .rdmaReadResponse p b _ _ => (p.port.port.val, b.length)
  | _ => (0, 0)

/-- Priorities of a port paused by the device, whose use of the miss buffer has fallen below half the threshold, are released (R107). -/
def Dev.releaseXoff (d : Dev) (port : Nat) : Dev :=
  let use := Tab.getD d.net.missUse port 0
  if use * 2 < 1024 * d.get (F.NET_P_CTL_miss_pfc_kib.at port) then
    let l := d.net.sentXoff.filter (fun e => e.1 == port)
    let d := d.onNet (fun x => { x with sentXoff := x.sentXoff.filter (fun e => e.1 != port) })
    l.foldl (fun (d : Dev) e => d.emit (.pfc port e.2 false)) d
  else d

/-- The packets a queue pair holds leave the miss buffer. -/
def Dev.dropHeld (d : Dev) (q : Nat) : Dev :=
  let l := (d.qp q).held
  let d := d.onQp q (fun x => { x with held := [], fetching := false })
  l.foldl (fun (d : Dev) c =>
    let o := heldOctets c
    (d.onNet (fun x => { x with missUse := Tab.updD o.1 0 (fun n => n - o.2) x.missUse })).releaseXoff o.1) d

/-- The work the device posted on a queue pair ends with flush errors (R104 step 2): its requests, and READs it was answering. -/
def Dev.flushQp (d : Dev) (q : Nat) : Dev :=
  let n := (d.qp q).reqs
  let rds := List.filter (fun (e : Nat × ReadRec) => match e.2.for_ with | .rdma qp _ _ _ => qp == q | _ => false) d.nv.reads
  let d : Dev := { d with nv := { d.nv with reads := rds.foldl (fun t e => Tab.del e.1 t) d.nv.reads } }
  let d := n.foldl (fun (d : Dev) r => (d.emit (.flushCompletion q r.cid)).bump F.RDM_flush_completions) d
  let d := rds.foldl (fun (d : Dev) e => (d.emit (.flushCompletion q e.1)).bump F.RDM_flush_completions) d
  d.onQp q (fun x => { x with reqs := x.reqs.map (fun r => { r with finished := true, failed := true }), readsOut := 0 })

/-- A queue pair's incomplete messages are discarded. -/
def Dev.discardMsgs (d : Dev) (q : Nat) : Dev :=
  d.onQp q (fun x => { x with msgs := [], ahead := [], gaveUp := [], tracker := false, refused := [] })

/-- Queue-pair states as RDM_QP_STATE numbers them (R134). -/
def QpState.code : QpState → Nat
  | .reset => 0
  | .init => 1
  | .rtr => 2
  | .rts => 3
  | .error => 4

/-- A queue pair's state becomes `st`; trace shows it (R455). -/
def Dev.qpTo (d : Dev) (q : Nat) (st : QpState) : Dev :=
  (d.onQp q (fun x => { x with state := st })).trace 3 7 (q % 65536) [q, st.code]

/-- A queue pair enters Error (R104): no more packets, work flushed, incomplete messages discarded, windows revoked, DREQ sent. -/
def Dev.qpError (d : Dev) (q cause : Nat) : Dev :=
  let x := d.qp q
  if x.state == .reset || x.state == .error then d else
  let d := (d.onQp q (fun x => { x with errCause := cause })).qpTo q .error
  let d := ((d.dropHeld q).flushQp q).discardMsgs q
  let d := x.windows.foldl (fun (d : Dev) w => d.revokeWin w true) d
  ((d.mirrorQp q).event 7 .qpError [q, cause]).qpSend q 0 (.cmDreq q)

/-- The end of a connection that revokes nothing (R103): the queue pair is flushed and stops, its windows open again. [DEDUCED: log 35] -/
def Dev.disconnect (d : Dev) (q : Nat) : Dev :=
  let x := d.qp q
  if x.state == .reset then d else
  let d := ((d.dropHeld q).flushQp q).discardMsgs q
  (((d.unbindAll q).mirrorQp q).onQp q (fun x => { x with flushing := true })).qpTo q .error

/-- QP_RESET_TIMEOUT (R103, R112): the queue pair returns to Reset, its number rests for 1 s, and windows its Error revoked reopen
where auto_reopen says so. -/
def Dev.qpReset (d : Dev) (q : Nat) : Dev :=
  if (d.qp q).state != .error then d else
  let ws := (List.filter (fun (e : Nat × Win) => e.2.state == .revoked && e.2.qpn == q && e.2.byErr) d.net.wins).map (·.1)
  let d := if d.on F.RDM_CTL2_auto_reopen then ws.foldl (fun (d : Dev) w => d.reopenWin w) d else d
  (d.qpTo q .reset).onNet (fun x => { x with qps := Tab.del q x.qps, quarantine := Tab.put q (d.pow.aon + 10 ^ 9) x.quarantine })

/-- QP_TO_ERROR (R104, R134): the selected queue pair enters Error, cause 5. -/
def Dev.qpToError (d : Dev) : Dev := d.qpError (d.get F.RDM_QP_SEL_qpn) 5

/-- WIN_REVOKE (R112): the selected window is revoked; its queue pair meets its next packet for it with Error. [DEDUCED: log 34] -/
def Dev.winRevoke (d : Dev) : Dev := d.revokeWin (d.get F.RDM_WIN_SEL_window) false

/-- WIN_REOPEN (R112, R134): a revoked window opens again; on any other state, the absent one of a removed window too, only an event. -/
def Dev.winReopen (d : Dev) : Dev :=
  let w := d.get F.RDM_WIN_SEL_window
  let x := d.win w
  if x.state == .revoked then d.reopenWin w else d.event 7 .badAccess [F.RDM_WIN_CTL_reopen.off, w]

/-! ### Windows and the image (R108, R112) -/

/-- Windows follow the image (R108, R112): a window that enters opens; a removed one, or one whose nsid, start or length changed, is
revoked; a removed one is absent from then on, a changed one opens again with horizon and limit at 0 (R65). [DEDUCED: log 54] -/
def Dev.windowsFollow (d : Dev) (old : Image) : Dev :=
  let gone := List.filter (fun (e : Nat × Win) => e.2.state != .absent && (d.img.window? e.1).isNone) d.net.wins
  let d := gone.foldl (fun (d : Dev) e => (d.revokeWin e.1 false).onNet (fun x => { x with wins := Tab.del e.1 x.wins })) d
  d.img.window.foldl (fun (d : Dev) r =>
    let same := match old.window? r.windowId with
      | some o => o.nsid == r.nsid && o.startLba == r.startLba && o.length == r.length
      | none => false
    let x := d.win r.windowId
    if x.state == .absent then d.onWin r.windowId (fun x => if same then { x with state := .openUnbound }
      else { ({} : Win) with state := .openUnbound })
    else if same then d
    else
      let d := d.revokeWin r.windowId false
      d.onWin r.windowId (fun _ => { state := .openUnbound })) d

end Sys2Proof.Machine
end

