-- ==== Sys2Proof/Machine/Reads.lean ====
section
/-! DEFINITION. Reads of blocks (R22 to R24): every block of a read is taken from staging, from an ingest buffer or from flash, whoever
asked for it. -/
namespace Sys2Proof.Machine

/-- A block of a read is in hand. -/
def Dev.readGot (d : Dev) (id i : Nat) (b : Bytes) : Dev :=
  { d with nv := { d.nv with reads := Tab.upd id (fun (x : ReadRec) => { x with got := Tab.put i b x.got }) d.nv.reads } }

/-- A block of a read cannot be had. -/
def Dev.readLost (d : Dev) (id i : Nat) : Dev :=
  { d with nv := { d.nv with reads := Tab.upd id (fun (x : ReadRec) => x.lose i) d.nv.reads } }

/-- A map lookup is answered by the SRAM map cache, by the HBM map cache or from flash (R363), as an open value says: the manual states
no rule for which pages a cache holds. [DESIGN CHOICE: log 102] -/
def Dev.mapLookup (d : Dev) : Dev :=
  let v := d.fresh.1 % 3
  d.fresh.2.bump (if v = 0 then F.FTL_map_hit_sram else if v = 1 then F.FTL_map_hit_hbm else F.FTL_map_miss_flash)

/-- Fetch one block of a read (R22): the staging index before the map (R360), staging before flash. What the other head wrote is an open value to this one. [DESIGN CHOICE: log 66] -/
def Dev.readBlock (d : Dev) (id i nsid lba : Nat) : Dev :=
  let pool := d.poolOf nsid
  let d := match d.blockLoc nsid lba with
    | .staged _ | .ingest _ => d
    | _ => d.mapLookup
  match (d.pool pool).resolve (d.blockLoc nsid lba) with
  | .dealloc | .zero => (d.bump F.FTL_zero_reads).readGot id i zeroBlock
  | .staged n => match Tab.find? n d.stg.slots with
    | some s =>
      let d := d.unseals s.desc
      (if s.adopted then d else d.scRead 2 (s.off * 1024)).readGot id i s.plain
    | none => d.readLost id i
  | .ingest n => match Tab.find? n d.stg.ingest with
    | some b => d.readGot id i b.plain
    | none => d.readLost id i
  | .stored _ m s _ x => match (d.pool pool).slotAt m s x with
    | some sl => (d.unseals sl.desc).startFetch pool x m (.read id i) (some sl)
    | none => d.readLost id i
  | .foreign => d.fresh.2.readGot id i (leBytes 4096 d.fresh.1)
  | .ref _ _ | .lost => d.readLost id i

/-- Fetch the blocks of a read in order. -/
def Dev.readBlocks (d : Dev) (id nsid : Nat) : List Nat → Nat → Dev
  | [], _ => d
  | lba :: t, i => (d.readBlock id i nsid lba).readBlocks id nsid t (i + 1)

/-- Start a read of some blocks. -/
def Dev.startRead (d : Dev) (for_ : ReadFor) (nsid slba : Nat) (lbas : List Nat) : Dev :=
  let id := d.nv.nextRead
  let r : ReadRec := { for_ := for_, nsid := nsid, slba := slba, blocks := lbas.length }
  let d : Dev := { d with nv := { d.nv with reads := Tab.put id r d.nv.reads, nextRead := id + 1 } }
  d.readBlocks id nsid lbas 0

/-- The octets of a read whose blocks are all in hand. -/
def ReadRec.bytes (r : ReadRec) : Bytes := (List.range r.blocks).flatMap (fun i => Tab.getD r.got i [])

/-- Whether every block of a read has answered. -/
def ReadRec.ready (r : ReadRec) : Bool := r.got.length == r.blocks

end Sys2Proof.Machine
end

