-- ==== Sys2Proof/Machine/Rdma.lean ====
section
/-! DEFINITION. Received packets (R99 to R132): checks, the miss buffer, PSN order, messages and their completion, spray and its
reports, READ requests, refusals and errors, and the device as requester. -/
namespace Sys2Proof.Machine

/-! ### Packets -/

/-- PSN arithmetic: 24 bits. -/
def psnAdd (p n : Nat) : Nat := (p + n) % 2 ^ 24
/-- How far one PSN lies above another. -/
def psnSub (a b : Nat) : Nat := (a + 2 ^ 24 - b % 2 ^ 24) % 2 ^ 24

/-- What a received packet asks for. -/
inductive RxKind where
  | send (imm : Option Nat)
  | write (reth : Option Reth) (imm : Option Nat)
  | spray (h : SprayHdr) (last : Bool) (imm : Option Nat)
  | read (r : Reth)
  | readResponse (last error : Bool)
  | acknowledge (syndrome msn : Nat)
  | cnp
  | unsupported
  deriving DecidableEq, Repr

/-- A received packet as the receive path sees it. -/
structure Rx where
  p : Pkt
  kind : RxKind
  pos : MsgPos := .only
  payload : Bytes := []
  deriving DecidableEq, Repr

/-- The packet a command brings. -/
def rxOf : Instr → Option Rx
  | .send p pos imm b => some { p := p, kind := .send imm, pos := pos, payload := b }
  | .rdmaWrite p pos r b => some { p := p, kind := .write r none, pos := pos, payload := b }
  | .rdmaWriteWithImmediate p pos r imm b => some { p := p, kind := .write r (some imm), pos := pos, payload := b }
  | .rdmaReadRequest p r => some { p := p, kind := .read r }
  | .rdmaReadResponse p b last err => some { p := p, kind := .readResponse last err, payload := b }
  | .acknowledge p s m => some { p := p, kind := .acknowledge s m }
  | .cnp p => some { p := p, kind := .cnp }
  | .sprayWriteNotLast p h b => some { p := p, kind := .spray h false none, payload := b }
  | .sprayWriteLast p h b => some { p := p, kind := .spray h true none, payload := b }
  | .sprayWriteLastImmediate p h imm b => some { p := p, kind := .spray h true (some imm), payload := b }
  | .unsupportedOpcode p _ _ => some { p := p, kind := .unsupported }
  | _ => none

/-- The packet's priority (R101). -/
def pktPrio (p : Pkt) : Nat := match p.pcp with
  | some x => x.val
  | none => p.dscp.val / 8

/-! ### Answers -/

/-- The present cumulative acknowledgement: PSN below the expected one, messages completed. -/
def Dev.sendAck (d : Dev) (q : Nat) : Dev :=
  let x := d.qp q
  if x.uc then d else d.qpSend q 4 (.ack q (psnAdd x.epsn (2 ^ 24 - 1)) x.msn)

/-- A NAK of a syndrome for a PSN; none on UC. -/
def Dev.sendNak (d : Dev) (q psn syn : Nat) : Dev := if (d.qp q).uc then d else d.qpSend q 4 (.nak q psn syn)

/-- The bitmap of a segment of 256 PSNs (R127): bit 255 − i is 1 where PSN base + i has been received. -/
def sackBits (x : Qp) (base : Nat) : Nat :=
  ((List.range 256).map (fun i =>
    let p := psnAdd base i
    if x.ahead.contains p then 2 ^ (255 - i) else 0)).sum

/-- The highest PSN received, as a distance from the expected one. -/
def highest (x : Qp) : Nat := x.ahead.foldl (fun a p => max a (psnSub p x.epsn)) 0

/-- The payload of a SACK packet (R127), big-endian. -/
def sackBytes (flags seg segCount epsn base bitmap msn : Nat) : Bytes :=
  [b8 1, b8 flags, b8 seg, b8 segCount] ++ beBytes 4 epsn ++ beBytes 4 base ++ beBytes 32 bitmap ++ beBytes 4 msn

/-- Send a SACK report (R127), at most one every 2 µs for a queue pair, where a report that comes too soon is not sent at all: segments 0 to
m − 1 from the expected PSN. [DESIGN CHOICE: log 117] -/
def Dev.sackReport (d : Dev) (q flags : Nat) : Dev :=
  let x := d.qp q
  let soon := match x.sackAt with
    | some t => decide (d.pow.aon < t + 2000)
    | none => false
  if soon then d else
  let m := min 16 (highest x / 256 + 1)
  let d := d.onQp q (fun x => { x with sackAt := some d.pow.aon })
  (List.range m).foldl (fun (d : Dev) s =>
    let base := psnAdd x.epsn (256 * s)
    (d.bump F.RDM_sacks).qpSend q 48 (.sack q x.peerQpn (sackBytes flags s m x.epsn base (sackBits x base) x.msn))) d

/-- A duplicate (R122): counted, and answered by the cumulative ACK, or a SACK under spray, at most once every 2 µs. -/
def Dev.duplicate (d : Dev) (q : Nat) : Dev :=
  let x := d.qp q
  let d := (d.bump F.RDM_duplicates).event 7 .duplicatePacket [q]
  let soon := match x.dupAckAt with
    | some t => decide (d.pow.aon < t + 2000)
    | none => false
  if x.spray then d.sackReport q 8
  else if soon then d
  else (d.onQp q (fun x => { x with dupAckAt := some d.pow.aon })).sendAck q

/-- An invalid request (R131): NAK 0x61 and Error with cause 1; on UC the packet is discarded and the queue pair is in Error. -/
def Dev.invalidReq (d : Dev) (q psn : Nat) : Dev := ((d.bump F.RDM_invalid_req_naks).sendNak q psn 0x61).qpError q 1

/-- A remote access error (R131): NAK 0x62 and Error with cause 2, or 6 for a revoked window; on UC a packet for a revoked window is
only discarded, and the queue pair is in Error all the same (R112). -/
def Dev.accessError (d : Dev) (q psn cause : Nat) : Dev :=
  let d := (d.bump F.RDM_remote_access_naks).event 7 .remoteAccess [q, psn]
  (d.sendNak q psn 0x62).qpError q cause

/-! ### Abandoned messages (R129) -/

/-- How many packets a message of a length takes; one at least. -/
def packetsOf (len mtu : Nat) : Nat := max 1 (ceilDiv len mtu)

/-- A PSN lies in a range of PSNs. -/
def psnIn (p : Nat) (t : Nat × Nat) : Bool := decide (psnSub p t.1 ≤ psnSub t.2 t.1)

/-- The PSNs of a message: up to its last, or to the last received where that is not known. -/
def Qp.span (x : Qp) (m : InMsg) : Nat × Nat := (m.first, m.last.getD (psnAdd x.epsn (2 ^ 24 - 1)))

/-- Whether all packets of a message are in. -/
def InMsg.whole (m : InMsg) : Bool := match m.last with
  | some l => m.got.length == psnSub l m.first + 1
  | none => false

/-- The lowest PSN from `p` on that is still awaited: not received and of no abandoned message. -/
def Qp.awaited (x : Qp) : Nat → Nat → Nat
  | 0, p => p
  | f + 1, p =>
    if x.ahead.contains p then x.awaited f (psnAdd p 1)
    else match x.gaveUp.find? (psnIn p) with
      | some t => x.awaited f (psnAdd t.2 1)
      | none => p

/-- The expected PSN becomes the lowest awaited from `p` on; what was refused long before it is forgotten. -/
def Qp.expect (x : Qp) (p : Nat) : Qp :=
  let e := x.awaited (x.ahead.length + x.gaveUp.length + 1) p
  let ahead := x.ahead.filter (fun s => decide (0 < psnSub s e ∧ psnSub s e < 2 ^ 23))
  { x with epsn := e, ahead := ahead, tracker := x.spray && !ahead.isEmpty,
           refused := x.refused.filter (fun t => decide (psnSub (psnAdd t.last 8192) e < 2 ^ 23)) }

/-- The lowest PSN from `p` on that has not been received. -/
def nextMissing (got : List Nat) : Nat → Nat → Nat
  | 0, p => p
  | f + 1, p => if got.contains p then nextMissing got f (psnAdd p 1) else p

/-- Without spray everything below PSN `p` is given up: messages that begin below it go, one abandonment is counted for each. -/
def Dev.abandonBelow (d : Dev) (q p : Nat) : Dev :=
  let x := d.qp q
  let gone := x.msgs.filter (fun m => decide (psnSub m.first x.msgBase < psnSub p x.msgBase))
  let n := max 1 gone.length
  let ahead := x.ahead.filter (fun s => decide (psnSub p x.msgBase ≤ psnSub s x.msgBase))
  let e := nextMissing ahead (ahead.length + 1) p
  let ahead := ahead.filter (fun s => decide (psnSub e x.msgBase < psnSub s x.msgBase))
  let d := d.onQp q (fun x => { x with msgs := x.msgs.filter (fun m => !decide (psnSub m.first x.msgBase < psnSub p x.msgBase)),
                                       msgBase := p, epsn := e, ahead := ahead, tracker := x.spray && !ahead.isEmpty })
  (d.bump F.RDM_uc_abandoned n).event 7 .ucAbandoned [q]

/-! ### Completion (R120, R121, R123) -/

/-- The blocks a message writes (R108, R110): its octets padded to whole blocks, at the window's places in turn. -/
def messageBlocks (r : WindowRec) (m : InMsg) : List (Nat × BlockIn) :=
  let bytes := m.parts.foldl (fun (a : Bytes) (t : Nat × Bytes) => overlay a t.1 t.2) (zeros (roundUp m.len 4096))
  let ring := r.length / 4096
  let first := (m.va % r.length) / 4096
  ((chunks 4096 bytes).zipIdx).map (fun t => (r.startLba + (first + t.2) % ring, BlockIn.data t.1))

/-- Meet the instrument port with a completion that carries an immediate (R89): the frame's size is what the window took since the
last immediate. -/
def Dev.frameDone (d : Dev) (q w imm len write : Nat) : Dev :=
  let size := Tab.getD (d.qp q).sinceImm w 0 + len
  let d := d.onQp q (fun x => { x with sinceImm := Tab.put w 0 x.sinceImm })
  match d.channelOf w with
  | some c => d.matchCompletion c { num := imm, size := size, time := d.now, write := write }
  | none => d

/-- A WRITE message to a window completes: it takes the next sequence of the window's stream, becomes visible, and waits for its
acknowledgement (R18, R113, R121). -/
def Dev.completeWrite (d : Dev) (q : Nat) (m : InMsg) (w : Nat) : Dev :=
  match d.img.window? w with
  | none => d
  | some r =>
    let stop := roundUp (m.va + m.len) 4096
    let b := d.beginWrite (.message q w stop m.imm) r.nsid r.streamId (messageBlocks r m)
    let d := b.2.showWrite b.1
    let d := d.onWin w (fun x => { x with done := x.done ++ [{ stop := stop, write := b.1, imm := m.imm, first := m.first,
                                                               msn := ((d.qp q).msn + 2 ^ 24 - 1) % 2 ^ 24 }] })
    let d := d.onQp q (fun x => { x with prevEnd := Tab.put w stop x.prevEnd })
    match m.imm with
    | some i => d.frameDone q w i m.len b.1
    | none => d.onQp q (fun x => { x with sinceImm := Tab.updD w 0 (fun n => n + m.len) x.sinceImm })

/-- A zero-length WRITE completes (R123): nothing placed, neither horizon nor limit moves; an immediate may match a strobe. -/
def Dev.completeEmpty (d : Dev) (q : Nat) (m : InMsg) : Dev :=
  match m.imm, m.win with
  | some i, some w =>
    let n := d.stg.nextWrite
    let d := d.onStg (fun s => { s with nextWrite := n + 1 })
    let d := d.onWin w (fun x => { x with done := x.done ++ [{ stop := (x.done.getLast?.map (·.stop)).getD x.horizon, write := n, imm := some i,
                                                               first := m.first, msn := ((d.qp q).msn + 2 ^ 24 - 1) % 2 ^ 24 }] })
    d.frameDone q w i 0 n
  | _, _ => d

/-- A message whose packets are all in completes: counted by the MSN, acknowledged, and its context mirrored (R120, R132). [DESIGN CHOICE: log 33] -/
def Dev.completeMsg (d : Dev) (q : Nat) (m : InMsg) : Dev :=
  let d := d.onQp q (fun x => { x with msn := (x.msn + 1) % 2 ^ 24, msgs := x.msgs.filter (fun y => y.first != m.first),
                                       msgBase := psnAdd (m.last.getD m.first) 1 })
  let d := if m.isSend then d
    else if m.len = 0 then d.completeEmpty q m
    else match m.win with
      | some w => if (d.win w).state == .bound && (d.win w).qpn == q then d.completeWrite q m w else d
      | none => d
  (d.sendAck q).mirrorQp q

/-- Complete the messages at the head of the order whose packets are all in; abandoned ones are passed over (R120, R129). -/
def Dev.completeReady (d : Dev) (q : Nat) : Nat → Dev
  | 0 => d
  | f + 1 =>
    let x := d.qp q
    match x.gaveUp.find? (psnIn x.msgBase) with
    | some t => (d.onQp q (fun x => { x with msgBase := psnAdd t.2 1, gaveUp := x.gaveUp.filter (· != t) })).completeReady q f
    | none => match x.msgs.find? (fun m => m.first == x.msgBase) with
      | none => d
      | some m => if m.whole then (d.completeMsg q m).completeReady q f else d

/-- Complete what can complete. -/
def Dev.completeAll (d : Dev) (q : Nat) : Dev := d.completeReady q ((d.qp q).msgs.length + (d.qp q).gaveUp.length + 1)

/-- Under spray messages are abandoned (R129), each counted: none of their packets is awaited any more, and later ones go on. -/
def Dev.giveUp (d : Dev) (q : Nat) (l : List (Nat × Nat)) : Dev :=
  if l.isEmpty then d else
  let inL (p : Nat) : Bool := l.any (psnIn p)
  let d := d.onQp q (fun x => Qp.expect { x with gaveUp := x.gaveUp ++ l, msgs := x.msgs.filter (fun m => !inL m.first),
                                                 ahead := x.ahead.filter (fun p => !inL p) } x.epsn)
  ((d.bump F.RDM_uc_abandoned l.length).event 7 .ucAbandoned [q]).completeAll q

/-! ### Accepting a WRITE (R108 to R115, R125) -/

/-- What a window says of an access at an offset. -/
inductive Access where
  | ok (w : Nat)
  | noAccess
  | revoked
  deriving DecidableEq, Repr

/-- The window an rkey names, for a queue pair (R108, R109, R112). [DEDUCED: log 34] -/
def Dev.access (d : Dev) (q va rkey : Nat) : Access :=
  match d.img.window.find? (fun r => r.rkey == rkey) with
  | none => .noAccess
  | some r =>
    let x := d.win r.windowId
    if x.state == .revoked && x.qpn == q then .revoked
    else if x.state != .bound || x.qpn != q || decide (2 ^ 63 ≤ va) then .noAccess
    else .ok r.windowId

/-- Where the next message to a window may start (R110): the horizon at binding, and the end of the message before it. -/
def Dev.lowestStart (d : Dev) (q w : Nat) : Nat := max (d.win w).bindBase (Tab.getD (d.qp q).prevEnd w 0)

/-- The order rule of R110 over messages known in PSN order without a gap from the oldest: whether one breaks it. -/
def Dev.orderBroken (d : Dev) (q : Nat) (msgs : List InMsg) : Nat → Nat → Tab Nat → Bool
  | 0, _, _ => false
  | f + 1, base, ends =>
    match msgs.find? (fun m => m.first == base) with
    | none => false
    | some m => match m.win with
      | none => (match m.last with | some l => d.orderBroken q msgs f (psnAdd l 1) ends | none => false)
      | some w =>
        if m.len = 0 then (match m.last with | some l => d.orderBroken q msgs f (psnAdd l 1) ends | none => false)
        else if m.va < Tab.getD ends w (d.lowestStart q w) then true
        else (match m.last with
          | some l => d.orderBroken q msgs f (psnAdd l 1) (Tab.put w (roundUp (m.va + m.len) 4096) ends)
          | none => false)

/-- Note a received PSN: the expected one rises over those already in. -/
def Dev.notePsn (d : Dev) (q psn : Nat) : Dev :=
  d.onQp q (fun x =>
    if psn = x.epsn then { x.expect (psnAdd psn 1) with gapNaked := false }
    else { x with ahead := psn :: x.ahead, tracker := x.spray || x.tracker })

/-- Put a packet's payload into its message. -/
def Dev.place (d : Dev) (q first psn off : Nat) (payload : Bytes) (imm : Option Nat) (last : Bool) : Dev :=
  let d := d.onQp q (fun x => { x with msgs := x.msgs.map (fun m => if m.first = first then
    { m with got := psn :: m.got, parts := if payload.isEmpty then m.parts else m.parts ++ [(off, payload)],
             imm := if last then imm else m.imm, last := if last && m.isSend then some psn else m.last, lastAt := d.pow.aon }
    else m) })
  (d.notePsn q psn).completeAll q

/-- The message not admitted that a PSN belongs to. -/
def Qp.inRefused (x : Qp) (psn : Nat) : Option RefusedMsg := x.refused.find? (fun t => psnIn psn (t.first, t.last))

/-- A packet of a message that is not admitted (R115): RNR NAK, held SACK, or abandonment at the first, and counted; those of its packets
that come later meet the same. [DEDUCED: log 39] -/
def Dev.refuseMsg (d : Dev) (q psn first last : Nat) : Dev :=
  let x := d.qp q
  let known := x.refused.any (fun t => t.first == first)
  let d := (d.bump F.RDM_horizon_refusals).event 7 .horizonRefused [q, psn]
  let more (t : RefusedMsg) : RefusedMsg := if t.first = first then { t with seen := psn :: t.seen } else t
  let new : RefusedMsg := { first := first, last := last, seen := [psn] }
  let d := d.onQp q (fun x => { x with refused := if known then x.refused.map more else x.refused ++ [new] })
  if x.uc then
    if known then d else if x.spray then d.giveUp q [(first, last)] else d.abandonBelow q (psnAdd last 1)
  else if x.spray then d.sackReport q 2
  else (d.onQp q (fun x => { x with gapNaked := true })).sendNak q psn (0x20 + d.get F.RDM_CTL_rnr_code)

/-- A packet of a message that was not admitted starts it anew: a sender on RC sends the message again, and with it this packet. [DEDUCED: log 39] -/
def Qp.sentAgain (x : Qp) (t : RefusedMsg) (psn : Nat) : Bool :=
  !x.uc && t.seen.contains psn && (x.spray || (psn == t.first && psn == x.epsn))

/-- Open a WRITE message at its first packet to arrive: judged for access, shape and admission. `none` where it is not opened. A message of no
length, whose rkey is not checked, counts for the window its rkey names, where it is bound here. [DESIGN CHOICE: log 117] -/
def Dev.openWrite (d : Dev) (q psn first : Nat) (va rkey len : Nat) : Option Nat × Dev :=
  let x := d.qp q
  let last := psnAdd first (packetsOf len x.mtu - 1)
  let m : InMsg := { first := first, last := some last, win := none, va := va, len := len, got := [], parts := [], imm := none,
                     isSend := false }
  let put (d : Dev) (m : InMsg) : Dev := d.onQp q (fun x => { x with msgs := x.msgs ++ [m] })
  if len = 0 then
    let w := match d.access q 0 rkey with | .ok w => some w | _ => none
    (some first, put d { m with win := w })
  else match d.access q va rkey with
    | .noAccess => (none, d.accessError q psn 2)
    | .revoked => (none, d.accessError q psn 6)
    | .ok w =>
      if va % 4096 ≠ 0 then (none, d.invalidReq q psn)
      else
        let m := { m with win := some w }
        if d.orderBroken q (x.msgs ++ [m]) (x.msgs.length + 2) x.msgBase [] then (none, d.invalidReq q psn)
        else if (d.win w).limit < roundUp (va + len) 4096 then (none, d.refuseMsg q psn first last)
        else (some first, put d m)

/-- The window of an open message still serves its queue pair (R112). -/
def Dev.msgServed (d : Dev) (q : Nat) (m : InMsg) : Bool :=
  match m.win with
  | some w => (d.win w).state == .bound && (d.win w).qpn == q
  | none => true

/-- A first or only WRITE packet in order. -/
def Dev.writeFirst (d : Dev) (q : Nat) (r : Rx) (reth : Option Reth) (imm : Option Nat) : Dev :=
  let x := d.qp q
  let only := r.pos == .only
  match reth with
  | none => d.invalidReq q r.p.psn
  | some h =>
    let n := r.payload.length
    if decide (2 ^ 31 < h.len) || (only && (n != h.len || decide (x.mtu < n))) ||
        (!only && (n != x.mtu || decide (h.len ≤ x.mtu) || imm.isSome)) then d.invalidReq q r.p.psn
    else match d.openWrite q r.p.psn r.p.psn h.va h.rkey h.len with
      | (none, d) => d
      | (some f, d) => d.place q f r.p.psn 0 r.payload imm only

/-- A middle or last WRITE packet of the open message. -/
def Dev.writeNext (d : Dev) (q : Nat) (r : Rx) (imm : Option Nat) (m : InMsg) : Dev :=
  let x := d.qp q
  let last := r.pos == .last
  let off := psnSub r.p.psn m.first * x.mtu
  let n := r.payload.length
  if m.isSend || (last && (off + n != m.len || n == 0 || decide (x.mtu < n))) ||
      (!last && (n != x.mtu || decide (m.len ≤ off + n) || imm.isSome)) then d.invalidReq q r.p.psn
  else if !d.msgServed q m then d.accessError q r.p.psn 6
  else d.place q m.first r.p.psn off r.payload imm last

/-- A SEND packet: on a capture queue pair an invalid request (R131). Its content is the service's own command. -/
def Dev.sendPkt (d : Dev) (q : Nat) (r : Rx) (imm : Option Nat) : Dev :=
  let x := d.qp q
  if x.use == .capture then d.invalidReq q r.p.psn
  else match r.pos, x.msgs.find? (fun m => m.isSend) with
    | .first, none | .only, none =>
      let m : InMsg := { first := r.p.psn, last := none, win := none, va := 0, len := 0, got := [], parts := [], imm := none,
                         isSend := true }
      if decide (x.mtu < r.payload.length) then d.invalidReq q r.p.psn
      else (d.onQp q (fun x => { x with msgs := x.msgs ++ [m] })).place q r.p.psn r.p.psn 0 [] imm (r.pos == .only)
    | .middle, some m | .last, some m =>
      if decide (x.mtu < r.payload.length) || (r.pos == .middle && r.payload.length != x.mtu) then d.invalidReq q r.p.psn
      else d.place q m.first r.p.psn 0 [] imm (r.pos == .last)
    | _, _ => d.invalidReq q r.p.psn

/-! ### READ requests (R111, R123) -/

/-- The logical blocks of a window that cover a range of absolute offsets. -/
def windowLbas (r : WindowRec) (off len : Nat) : List Nat :=
  let ring := r.length / 4096
  (List.range (ceilDiv (off % 4096 + len) 4096)).map (fun i => r.startLba + (off / 4096 + i) % ring)

/-- An RDMA READ request in order. The response takes as many PSNs as packets. [DEDUCED: log 40] -/
def Dev.readReq (d : Dev) (q : Nat) (p : Pkt) (h : Reth) : Dev :=
  let x := d.qp q
  let n := packetsOf h.len x.mtu
  let mine : Nat × Nat := (p.psn, psnAdd p.psn (n - 1))
  let next := psnAdd p.psn n
  let take (d : Dev) : Dev := (d.onQp q (fun x =>
    { x.expect next with msgBase := next, msn := (x.msn + 1) % 2 ^ 24, gapNaked := false })).completeAll q
  let clash := x.msgs.any (fun m => !x.spray || psnIn p.psn (x.span m) || psnIn m.first mine)
  if x.uc || decide (16 ≤ x.readsOut) || decide (2 ^ 31 < h.len) || clash then d.invalidReq q p.psn
  else if h.len = 0 then (take d).qpSend q 0 (.readData q p.psn [])
  else match d.access q h.va h.rkey with
    | .noAccess => d.accessError q p.psn 2
    | .revoked => d.accessError q p.psn 6
    | .ok w =>
      let y := d.win w
      match d.img.window? w with
      | none => d.accessError q p.psn 2
      | some r =>
        if h.va < y.horizon - r.length ∨ y.horizon < h.va + h.len then d.accessError q p.psn 2
        else
          let d := (take d).onQp q (fun x => { x with readsOut := x.readsOut + 1 })
          d.startRead (.rdma q p.psn h.va h.len) r.nsid r.startLba (windowLbas r h.va h.len)

/-- Send the responses of an RDMA READ, one MTU each. -/
def Dev.sendReadData (d : Dev) (q psn : Nat) (data : Bytes) : Dev :=
  ((chunks (d.qp q).mtu data).zipIdx).foldl (fun (d : Dev) t => d.qpSend q t.1.length (.readData q (psnAdd psn t.2) t.1)) d

/-- An RDMA READ has its blocks, or one of them is unrecovered: the data goes out, or a remote operational error. [DESIGN CHOICE: log 41] -/
def Dev.rdmaReadDone (d : Dev) (r : ReadRec) (q psn off len : Nat) : Dev :=
  let d := d.onQp q (fun x => { x with readsOut := x.readsOut - 1 })
  if r.failed then ((d.sendNak q psn 0x63).fresh.2).qpError q (d.fresh.1 % 256)
  else d.sendReadData q psn (slice r.bytes (off % 4096) len)

/-! ### Order without spray (R120, R126, R129) -/

/-- A packet at the expected PSN. -/
def Dev.inOrder (d : Dev) (q : Nat) (r : Rx) : Dev :=
  let x := d.qp q
  match r.kind with
  | .send imm => d.sendPkt q r imm
  | .read h => d.readReq q r.p h
  | .write reth imm =>
    match r.pos, x.msgs.find? (fun m => !m.isSend && m.got.length != psnSub (m.last.getD m.first) m.first + 1) with
    | .first, none | .only, none => d.writeFirst q r reth imm
    | .first, some _ | .only, some _ =>
      if x.uc then (d.abandonBelow q r.p.psn).writeFirst q r reth imm else d.invalidReq q r.p.psn
    | _, some m => d.writeNext q r imm m
    | _, none => if x.uc then d.notePsn q r.p.psn |>.onQp q (fun x => { x with msgBase := x.epsn }) else d.invalidReq q r.p.psn
  | _ => d.invalidReq q r.p.psn

/-- A packet above the expected PSN on UC without spray: one of the open message is placed; one of a later message ends the open one. -/
def Dev.ucAhead (d : Dev) (q : Nat) (r : Rx) : Dev :=
  let x := d.qp q
  let open_ := x.msgs.find? (fun m => decide (psnSub r.p.psn m.first ≤ psnSub (m.last.getD m.first) m.first))
  match r.pos, open_ with
  | .middle, some m | .last, some m =>
    if x.ahead.contains r.p.psn then d.duplicate q
    else (match r.kind with | .write _ imm => d.writeNext q r imm m | _ => d.invalidReq q r.p.psn)
  | .middle, none | .last, none => d.abandonBelow q (psnAdd r.p.psn 1)
  | _, _ => (d.abandonBelow q r.p.psn).inOrder q r

/-- A packet of a queue pair without spray. [DEDUCED: log 39] -/
def Dev.rxPlain (d : Dev) (q : Nat) (r : Rx) : Dev :=
  let x := d.qp q
  let gap := psnSub r.p.psn x.epsn
  match x.inRefused r.p.psn with
  | some t =>
    if x.sentAgain t r.p.psn then
      (d.onQp q (fun x => { x with refused := x.refused.filter (fun y => y.first != t.first), gapNaked := false })).inOrder q r
    else d.refuseMsg q r.p.psn t.first t.last
  | none =>
    if decide (2 ^ 23 ≤ gap) then d.duplicate q
    else if gap = 0 then d.inOrder q r
    else if x.uc then d.ucAhead q r
    else if x.gapNaked then d
    else
      let d := (d.onQp q (fun x => { x with gapNaked := true })).bump F.RDM_psn_seq_naks
      (d.event 7 .psnGap [q, r.p.psn]).sendNak q x.epsn 0x60

/-! ### Spray (R125 to R127) -/

/-- Reorder trackers in use. -/
def Dev.trackers (d : Dev) : Nat := (d.net.qps.filter (fun e => e.2.tracker)).length

/-- Shape of a sprayed packet: whole MTUs but for the last, offsets that follow from the PSN. -/
def sprayShape (mtu : Nat) (h : SprayHdr) (last : Bool) (psn n : Nat) : Bool :=
  let i := psnSub psn h.msgPsn
  decide (h.msgLen ≤ 2 ^ 31) && decide (i < packetsOf h.msgLen mtu) && h.pktOffset == i * mtu &&
    (if last then h.pktOffset + n == h.msgLen && i + 1 == packetsOf h.msgLen mtu else n == mtu && decide (h.pktOffset + n < h.msgLen))

/-- A sprayed WRITE packet within the reorder window: it opens its message or joins it. -/
def Dev.sprayIn (d : Dev) (q : Nat) (r : Rx) (h : SprayHdr) (last : Bool) (imm : Option Nat) : Dev :=
  let x := d.qp q
  let first := h.msgPsn % 2 ^ 24
  if !sprayShape x.mtu h last r.p.psn r.payload.length then d.invalidReq q r.p.psn
  else
    let o := match x.msgs.find? (fun m => m.first == first) with
      | some m => if !d.msgServed q m then (none, d.accessError q r.p.psn 6)
        else if m.va != h.va || m.len != h.msgLen || m.isSend then (none, d.invalidReq q r.p.psn) else (some first, d)
      | none => d.openWrite q r.p.psn first h.va h.rkey h.msgLen
    match o with
    | (none, d) => d
    | (some f, d) =>
      let gap := r.p.psn != x.epsn
      let d := if gap then d.bump F.RDM_out_of_order else d
      let d := d.place q f r.p.psn h.pktOffset r.payload imm last
      if gap then d.sackReport q 0 else d

/-- The runs of PSNs from `c` up to `b` that belong to no message any packet of which has come and to none abandoned. -/
def Qp.unknownRuns (x : Qp) (b : Nat) : Nat → Nat → List (Nat × Nat)
  | 0, _ => []
  | f + 1, c =>
    if 2 ^ 23 ≤ psnSub b c then []
    else
      let spans := x.msgs.map x.span ++ x.gaveUp
      match spans.find? (psnIn c) with
      | some t => x.unknownRuns b f (psnAdd t.2 1)
      | none =>
        let n := spans.foldl (fun a t => min a (psnSub t.1 c)) (psnSub b c + 1)
        (c, psnAdd c (n - 1)) :: x.unknownRuns b f (psnAdd c n)

/-- The runs up to a PSN, from the oldest message not complete. -/
def Qp.runsTo (x : Qp) (b : Nat) : List (Nat × Nat) := x.unknownRuns b (2 * (x.msgs.length + x.gaveUp.length) + 2) x.msgBase

/-- What a packet at PSN `p` abandons on a sprayed UC queue pair (R129): the messages whose first missing PSN lies 4,096 or more below it,
and a run of PSNs there of which no packet has come as one message. [DESIGN CHOICE: log 117] -/
def Qp.overdue (x : Qp) (p : Nat) : List (Nat × Nat) :=
  let b := psnAdd p (2 ^ 24 - 4096)
  let old (m : InMsg) : Bool := !m.whole && decide (psnSub b (nextMissing m.got (m.got.length + 1) m.first) < 2 ^ 23)
  (x.msgs.filter old).map x.span ++ x.runsTo b

/-- A packet above the reorder window (R126, R129): on UC it abandons what is 4,096 PSNs behind; it is discarded, counted and reported. -/
def Dev.beyondWindow (d : Dev) (q psn : Nat) : Dev :=
  let d := if (d.qp q).uc then d.giveUp q ((d.qp q).overdue psn) else d
  ((d.bump F.RDM_beyond_window).event 7 .beyondWindow [q, psn]).sackReport q 1

/-- A packet of a sprayed queue pair. [DEDUCED: log 40] -/
def Dev.rxSpray (d : Dev) (q : Nat) (r : Rx) : Dev :=
  let x := d.qp q
  let psn := r.p.psn
  let gap := psnSub psn x.epsn
  let take (d : Dev) : Dev := match r.kind with
    | .write _ _ => d.invalidReq q psn
    | .spray h last imm =>
      if decide (4096 ≤ gap) then d.beyondWindow q psn
      else if gap ≠ 0 ∧ !x.tracker ∧ 1024 ≤ d.trackers then (d.bump F.RDM_no_tracker).sackReport q 4
      else d.sprayIn q r h last imm
    | _ => if gap = 0 then d.inOrder q r else d.sackReport q 0
  match x.inRefused psn with
  | some t =>
    if x.sentAgain t psn then take (d.onQp q (fun x => { x with refused := x.refused.filter (fun y => y.first != t.first) }))
    else d.refuseMsg q psn t.first t.last
  | none =>
    if decide (2 ^ 23 ≤ gap) || x.ahead.contains psn then d.duplicate q
    else if x.gaveUp.any (psnIn psn) then d
    else take d

/-! ### The device as requester (R128, R131) -/

/-- Send a request on a queue pair: it takes the next PSN and waits for its acknowledgement. -/
def Dev.request (d : Dev) (q : Nat) (r : OutReq) (len : Nat) (o : Nat → Output) : Dev :=
  let psn := (d.qp q).sendPsn
  let d := d.onQp q (fun x => { x with reqs := x.reqs ++ [{ r with psn := psn }],
                                       sendPsn := psnAdd psn (packetsOf len x.mtu) })
  d.qpSend q (min len (d.qp q).mtu) (o psn)

/-- Send a SEND message. -/
def Dev.sendMsg (d : Dev) (q : Nat) (data : Bytes) : Dev :=
  d.request q { psn := 0, attempts := 1, isRead := false, ctrl := 0, sq := 0, cid := 0, payload := data } data.length
    (fun psn => .send q psn data)

/-- Retransmit every request from a PSN on. -/
def Dev.resendFrom (d : Dev) (q psn : Nat) : Dev :=
  let l := (d.qp q).reqs.filter (fun r => !r.finished && decide (psnSub r.psn psn < 2 ^ 23))
  l.foldl (fun (d : Dev) r => d.qpSend q r.payload.length (.resend q r.psn)) d

/-- Another attempt of the oldest request, or Error with cause 4 after the seventh (R131). -/
def Dev.retry (d : Dev) (q psn : Nat) : Dev :=
  match (d.qp q).reqs.find? (fun r => !r.finished) with
  | none => d
  | some r =>
    if 7 ≤ r.attempts then d.qpError q 4
    else
      let d := d.onQp q (fun x => { x with reqs := x.reqs.map (fun y => if y.psn = r.psn then { y with attempts := y.attempts + 1 } else y) })
      d.resendFrom q psn

/-- RETRANSMISSION_TIMEOUT (R131). -/
def Dev.retransmit (d : Dev) (q : Nat) : Dev :=
  match (d.qp q).reqs.find? (fun r => !r.finished) with
  | some r => d.retry q r.psn
  | none => d

/-- REQUESTER_RETRIES_EXHAUSTED (R131): Error with cause 4, where a request stands open. -/
def Dev.retriesOut (d : Dev) (q : Nat) : Dev := if (d.qp q).reqs.any (fun r => !r.finished) then d.qpError q 4 else d

/-- ACKNOWLEDGE (R131): an ACK ends the requests up to its PSN; NAK 0x60 and RNR send again; any other NAK is an error of the
connection. [DEDUCED: log 38] -/
def Dev.acked (d : Dev) (q psn syndrome : Nat) : Dev :=
  let drop (d : Dev) (p : Nat) : Dev := d.onQp q (fun x => { x with reqs := x.reqs.filter (fun r => r.isRead || decide (0 < psnSub r.psn p ∧ psnSub r.psn p < 2 ^ 23)) })
  if syndrome < 0x20 then drop d psn
  else if syndrome < 0x40 ∨ syndrome = 0x60 then (drop d (psnAdd psn (2 ^ 24 - 1))).retry q psn
  else d.qpError q 4

/-- RDMA_READ_RESPONSE: data of the device's oldest READ on the queue pair; a fault, or the last packet, ends it (R34). -/
def Dev.readResponseIn (d : Dev) (q : Nat) (payload : Bytes) (last error : Bool) : Dev :=
  match (d.qp q).reqs.find? (fun r => r.isRead && !r.finished) with
  | none => d
  | some r =>
    d.onQp q (fun x => { x with reqs := x.reqs.map (fun y => if y.psn = r.psn ∧ y.isRead then
      { y with got := y.got ++ payload, finished := last || error, failed := error } else y) })

/-! ### Reception (R101, R103, R106, R107, R130, R131) -/

/-- A CE mark (R130): one CNP to the sender at most every cnp_interval_us, and the pace of the queue pair's windows. -/
def Dev.ceMark (d : Dev) (q : Nat) (p : Pkt) : Dev :=
  if !p.ce then d else
  let x := d.qp q
  let soon := match x.cnpAt with
    | some t => decide (d.pow.aon < t + 1000 * d.get F.RDM_CTL_cnp_interval_us)
    | none => false
  let d := if soon then d else
    ((d.onQp q (fun x => { x with cnpAt := some d.pow.aon })).bump (F.NET_P_cnp_sent.at p.port.port)).qpSend q 16 (.cnp q)
  d.markPace q false

/-- Whether a packet was valid (R103), by the queue pair before and after it: it belongs to the device's own requests, or it was taken. -/
def Rx.valid (r : Rx) (x y : Qp) : Bool :=
  match r.kind with
  | .acknowledge _ _ | .cnp | .readResponse _ _ => true
  | _ => y.epsn != x.epsn || y.ahead != x.ahead || y.msn != x.msn

/-- Process a packet whose context is at hand. The first valid one takes a queue pair from RTR to RTS (R103). -/
def Dev.rxRun (d : Dev) (r : Rx) : Dev :=
  let q := r.p.qpn
  let x := d.qp q
  if x.state == .error || x.state == .reset || x.flushing then d else
  let d := match r.kind with
    | .acknowledge s _ => d.acked q r.p.psn s
    | .cnp => (d.bump (F.NET_P_cnp_rcvd.at r.p.port.port)).markPace q true
    | .readResponse last err => d.readResponseIn q r.payload last err
    | .unsupported =>
      let d := d.event 7 .unsupported [q]
      let gap := psnSub r.p.psn x.epsn
      if x.spray && gap != 0 then (if 2 ^ 23 ≤ gap then d.duplicate q else d.sackReport q 0)
      else if !x.uc then d.invalidReq q r.p.psn
      else
        let d := d.bump F.RDM_invalid_req_naks
        if 2 ^ 23 ≤ gap then d else if x.spray then d.giveUp q [(r.p.psn, r.p.psn)] else d.abandonBelow q (psnAdd r.p.psn 1)
    | .spray _ _ _ => if x.spray then d.rxSpray q r else d.invalidReq q r.p.psn
    | _ => if x.spray then d.rxSpray q r else d.rxPlain q r
  let y := d.qp q
  let d := if y.state == .rtr && r.valid x y then d.qpTo q .rts else d
  let dup := decide (2 ^ 23 ≤ psnSub r.p.psn x.epsn) || x.ahead.contains r.p.psn
  if r.p.ackReq && (y.state == .rts || y.state == .rtr) && (y.inRefused r.p.psn).isNone && !y.gapNaked && !dup then d.sendAck q else d

/-- PFC of a port's priority. -/
def Dev.pfcOn (d : Dev) (port prio : Nat) : Bool := tb (d.get (F.NET_P_CFG_pfc_mask.at port)) prio

/-- The priorities of a port's packets in the miss buffer. -/
def Dev.heldPrios (d : Dev) (port : Nat) : List Nat :=
  ((d.net.qps.flatMap (fun e => e.2.held)).filterMap (fun c => (rxOf c).bind (fun r =>
    if r.p.port.port.val = port then some (pktPrio r.p) else none))).eraseDups

/-- XOFF for the priorities whose packets a port holds, once its use of the miss buffer reaches the threshold (R107). -/
def Dev.sendXoffs (d : Dev) (port : Nat) : Dev :=
  if Tab.getD d.net.missUse port 0 < 1024 * d.get (F.NET_P_CTL_miss_pfc_kib.at port) then d else
  ((d.heldPrios port).filter (fun p => d.pfcOn port p && !d.net.sentXoff.contains (port, p))).foldl (fun (d : Dev) p =>
    ((d.onNet (fun x => { x with sentXoff := x.sentXoff ++ [(port, p)] })).bump (F.NET_P_xoff_sent.at port)).emit (.pfc port p true)) d

/-- A packet whose context is not cached waits in the miss buffer, or finds its port's 1 MiB, or the 4 MiB of all ports, full (R106,
R107). [DESIGN CHOICE: log 117] -/
def Dev.hold (d : Dev) (r : Rx) (c : Instr) : Dev :=
  let q := r.p.qpn
  let port := r.p.port.port.val
  let n := (heldOctets c).2
  let use := Tab.getD d.net.missUse port 0 + n
  let d := d.bump F.RDM_ctx_misses
  if 2 ^ 20 < use ∨ 2 ^ 22 < (d.net.missUse.map (·.2)).sum + n then (d.bump (F.NET_P_miss_drops.at port)).event 6 .missFull [port, q]
  else
    let d := (d.onQp q (fun x => { x with held := x.held ++ [c], fetching := true })).bump F.RDM_miss_waits
    (d.onNet (fun x => { x with missUse := Tab.put port use x.missUse })).sendXoffs port

/-- Whether the image gives a head a sub-port: the port is enabled and split into at least so many. -/
def Dev.hasSubPort (d : Dev) (s : SubPort) : Bool :=
  d.on (F.NET_P_CFG_enabled.at s.port) && decide (s.sub.val < 2 ^ d.get (F.NET_P_CFG_split.at s.port))

/-- Whether a sub-port holds an address on a VLAN: its own, or one it announces after a takeover (R99, R259). -/
def Dev.holdsAddr (d : Dev) (s : SubPort) (a : Bytes × Nat) : Bool :=
  let own := !d.head.addrsOut && (d.img.netAddr.filter (fun r => r.head == d.headNo)).any (fun r => r.entries.any (fun e =>
    e.port == s.port.val && e.subport == s.sub.val && e.address == a.1 && e.vlan == a.2))
  own || d.head.announce.any (fun x => x.1 == s.port.val && x.2.1 == s.sub.val && x.2.2.1 == a.1)

/-- Whether a queue pair takes a packet: one on an address that a sub-port of its paths holds (R124). -/
def Dev.qpTakes (d : Dev) (x : Qp) (p : Pkt) : Bool :=
  match p.dst with
  | none => x.paths.isEmpty || x.paths.contains p.port
  | some a => x.paths.any (fun s => d.holdsAddr s a)

/-- A packet reaches the head on an enabled sub-port, in a frame of at most 9,216 octets (R99): counted, checked (R101, R103, R131), marked,
and processed or held. [DESIGN CHOICE: log 22, DEDUCED: log 37, DESIGN CHOICE: log 119] -/
def Dev.receive (d : Dev) (c : Instr) : Dev :=
  match rxOf c with
  | none => d
  | some r =>
    let q := r.p.qpn
    let port := r.p.port.port
    if !d.hasSubPort r.p.port then d else
    let d := (d.bump (F.NET_P_rx_packets.at port)).bump (F.NET_P_rx_bytes.at port) (Config.frameOctets r.payload.length)
    let x := d.qp q
    if r.p.badFcs then (d.bump (F.NET_P_fcs_err.at port)).event 6 .packetBad [port]
    else if r.p.badIcrc then (d.bump (F.NET_P_icrc_err.at port)).event 6 .packetBad [port]
    else if 9216 < Config.frameOctets r.payload.length then d.event 6 .packetBad [port]
    else if r.p.pkey ≠ 0xFFFF ∨ 131071 < q ∨ x.state = .reset ∨ x.state = .init ∨ !d.qpTakes x r.p then
      (d.bump F.RDM_unknown_qp).event 7 .unknownQp [q]
    else if x.state = .error then
      let d := d.bump F.RDM_unknown_qp
      match x.owedNak with
      | some s => (d.onQp q (fun x => { x with owedNak := none })).sendNak q r.p.psn s
      | none => d
    else
      let d := d.ceMark q r.p
      if x.cached then ((d.bump F.RDM_ctx_hits).touchQp q).rxRun r else d.hold r c

/-- UNSUPPORTED_OPCODE (R100): XRC, RD and UD packets belong to no queue pair; on RC and UC the packet meets its queue pair. -/
def Dev.unsupported (d : Dev) (p : Pkt) (t : Transport) (c : Instr) : Dev :=
  match t with
  | .rc | .uc => d.receive c
  | _ =>
    if !d.hasSubPort p.port then d else
    let d := d.bump (F.NET_P_rx_packets.at p.port.port)
    (d.bump F.RDM_unknown_qp).event 7 .unknownQp [p.qpn]

/-- Held packets in PSN order (R106). -/
def byPsn (base : Nat) : List Instr → List Instr
  | [] => []
  | c :: t =>
    let key (c : Instr) : Nat := ((rxOf c).map (fun r => psnSub r.p.psn base)).getD 0
    let rest := byPsn base t
    rest.takeWhile (fun x => decide (key x < key c)) ++ c :: rest.dropWhile (fun x => decide (key x < key c))

/-- CONTEXT_FETCH_DONE (R30, R106): the context enters the cache and the held packets are processed in PSN order; a fault moves the
queue pair to Error, discards them, and leaves the next packet a NAK 0x63. With every cached context pinned the fetch waits. -/
def Dev.contextFetched (d : Dev) (q : Nat) (fault : Bool) : Dev :=
  let x := d.qp q
  if !x.fetching then d
  else if fault then
    let d := d.onQp q (fun x => { x with owedNak := some 0x63 })
    ((d.event 7 .contextFault [q]).qpError q 3).retireContext q
  else
    let d := (d.onQp q (fun x => { x with fetching := false })).cacheQp q
    if !(d.qp q).cached then d.onQp q (fun x => { x with fetching := true })
    else
      let l := byPsn x.epsn x.held
      let d := d.dropHeld q
      l.foldl (fun (d : Dev) c => match rxOf c with | some r => d.rxRun r | none => d) d

/-! ### Timers, flow control, links -/

/-- UC_MESSAGE_TIMEOUT (R129): the incomplete messages that no packet has reached for 5 ms, at least the one that waited longest, are
abandoned; where only messages of which nothing came are missing, those before the first that is whole. [DESIGN CHOICE: log 117] -/
def Dev.ucTimeout (d : Dev) (q : Nat) : Dev :=
  let x := d.qp q
  if !x.uc then d else
  let l := x.msgs.filter (fun m => !m.whole)
  let first := l.foldl (fun a m => min a m.lastAt) d.pow.aon
  let stale := l.filter (fun m => decide (m.lastAt + 5000000 ≤ d.pow.aon) || m.lastAt == first)
  if x.spray then
    if stale.isEmpty then
      match x.msgs with
      | [] => d
      | m :: t => d.giveUp q (x.runsTo (psnAdd (t.foldl (fun a m => if psnSub m.first x.msgBase < psnSub a x.msgBase then m.first else a) m.first) (2 ^ 24 - 1)))
    else d.giveUp q (stale.map x.span)
  else match stale with
    | m :: _ => (d.abandonBelow q (psnAdd (x.span m).2 1)).completeAll q
    | [] => d

/-- SACK_GAP_TIMER (R127): a report while a gap persists. -/
def Dev.sackGap (d : Dev) (q : Nat) : Dev := if (d.qp q).tracker then d.sackReport q 0 else d

/-- PFC_FRAME (R130): a priority of the mask is paused, and nothing of it is sent until it is resumed; any other is only counted. -/
def Dev.pfcFrame (d : Dev) (s : SubPort) (prio : Nat) (pause : Bool) : Dev :=
  let port := s.port.val
  let d := if pause then d.bump (F.NET_P_xoff_rcvd.at port) else d
  if !d.pfcOn port prio then d.event 6 .pfcIgnored [port, prio]
  else
    let rest := d.net.gotXoff.filter (· != (port, prio))
    (d.onNet (fun x => { x with gotXoff := if pause then rest ++ [(port, prio)] else rest })).resumeTx

/-- TCP_SEGMENT (R100): a segment that opens a connection to a data address is answered with RST; no other is served. -/
def Dev.tcpSegment (d : Dev) (s : SubPort) (opens toData : Bool) : Dev :=
  if opens && toData && !d.fenced then (d.bump (F.NET_P_tx_packets.at s.port)).emit (.tcpRst s) else d

/-- NET_LINK_DOWN (R128, R261, R390): protected queue pairs go on alone; a connection whose only path it was fails. [DEDUCED: log 36] -/
def Dev.linkDown (d : Dev) (s : SubPort) : Dev :=
  if !d.net.up.contains s then d else
  let d := (d.onNet (fun x => { x with up := x.up.filter (· != s) })).event 6 .netLinkDown [s.port, s.sub]
  let d : Dev := { d with txHeld := d.txHeld.filter (fun t => t.port != s) }
  let d := if d.net.up.any (fun t => t.port == s.port) then d
    else (d.onNet (fun x => { x with gotXoff := x.gotXoff.filter (fun k => k.1 != s.port.val) })).resumeTx
  let hit := d.net.qps.filter (fun e => e.2.paths.contains s && e.2.state != .error)
  hit.foldl (fun (d : Dev) e => if (d.upPaths (d.qp e.1)).isEmpty then d.disconnect e.1 else d.judgePaths e.1) d

/-- NET_LINK_UP (R128): the sub-port serves again unless it is held down, and protected queue pairs send on both paths. -/
def Dev.linkUp (d : Dev) (s : SubPort) : Dev :=
  if d.net.up.contains s || !d.hasSubPort s || tb (d.get (F.NET_P_CTL_force_down.at s.port)) s.sub then d else
  let d := d.onNet (fun x => { x with up := x.up ++ [s] })
  (d.net.qps.filter (fun e => e.2.paths.contains s)).foldl (fun (d : Dev) e => d.judgePaths e.1) d

/-! ### Connection management (R102, R103, R124) -/

/-- The lowest queue pair number free (R99, R103). -/
def Dev.freeQpn (d : Dev) : Option Nat :=
  let busy : Tab Unit := (d.net.qps.map (fun e => (e.1, ()))) ++ (d.net.quarantine.filter (fun e => decide (d.pow.aon < e.2))).map (fun e => (e.1, ()))
  let n := Tab.freeKey busy 131070 2
  if n ≤ 131071 then some n else none

/-- The first private-data octet of a consumer reject (R102, R310). -/
def Dev.cmReject (d : Dev) (r : CmReq) (code : Nat) : Dev := d.emit (.cmRej r.peerAddr 28 code)

/-- A queue pair leaves Reset on a valid REQ and goes on to RTR with the REP (R103, R105). -/
def Dev.acceptQp (d : Dev) (n : Nat) (r : CmReq) (use : QpUse) (paths : List SubPort) (spray prot : Bool) : Dev :=
  let x : Qp := { state := .rtr, use := use, uc := r.uc, spray := spray, prot := prot, epsn := r.psn % 2 ^ 24,
                  msgBase := r.psn % 2 ^ 24, mtu := r.mtu, peerAddr := r.peerAddr, peerQpn := r.peerQpn, paths := paths }
  (((d.onNet (fun y => { y with qps := Tab.put n x y.qps })).cacheQp n).judgePaths n).trace 3 7 (n % 65536) [n, x.state.code]

/-- A path port octet of the capability block (R124): port in bits 7:4, sub-port in bits 3:0. -/
def pathOf (b : Nat) : Option SubPort :=
  if h : b / 16 < 6 ∧ b % 16 < 8 then some { port := ⟨b / 16, h.1⟩, sub := ⟨b % 16, h.2⟩ } else none

/-- The capability block of a capture REQ (R124), where it is sound: spray, duplicate-path, windows, path octets. -/
def capability (p : Bytes) : Option (Bool × Bool × List Nat × List Nat) :=
  let fl := beAt p 3 1
  let wc := beAt p 4 1
  let pc := beAt p 5 1
  if p.length < 24 ∨ beAt p 0 2 ≠ 0x4D53 ∨ beAt p 2 1 ≠ 1 ∨ !tb fl 2 ∨ wc = 0 ∨ 4 < wc ∨ pc = 0 ∨ 8 < pc ∨ (tb fl 1 ∧ pc < 2) then none
  else some (tb fl 0, tb fl 1, (List.range wc).map (fun i => beAt p (8 + 2 * i) 2 % 2 ^ 14), (List.range pc).map (fun i => beAt p (16 + i) 1))

/-- Why a capture REQ is refused (R102); 0 where it is not. [DEDUCED: log 43] -/
def Dev.captureRefusal (d : Dev) (cap : Option (Bool × Bool × List Nat × List Nat)) : Nat :=
  match cap with
  | none => 1
  | some (spray, prot, ws, ps) =>
    let recs := ws.map (fun w => d.img.window? w)
    if recs.any (fun r => r.isNone) then 2
    else if (ws.any (fun w => (d.win w).state != .openUnbound)) then
      (if recs.any (fun r => !(match r with | some x => d.owns (d.poolOf x.nsid) | none => false)) then 8 else 3)
    else if recs.any (fun r => !(match r with | some x => d.owns (d.poolOf x.nsid) | none => false)) then 8
    else if d.maxBound < d.boundCount + ws.length then 4
    else if recs.any (fun r => match r with
      | some x => (prot && !tb x.winFlags 0) || (spray && !tb x.winFlags 1)
      | none => false) then 5
    else if ps.any (fun b => match pathOf b with | some s => !d.hasSubPort s | none => true) then 6
    else if d.freeQpn.isNone then 7
    else 0

/-- The private data of a capture REP (R124). -/
def Dev.captureRep (d : Dev) (spray prot : Bool) (ws : List Nat) : Bytes :=
  beBytes 2 0x4D53 ++ [b8 1, b8 (b2n spray + 2 * b2n prot + 4), b8 ws.length, b8 12, 0, 0] ++
  ws.flatMap (fun w => beBytes 2 w ++ [0, 0] ++ beBytes 4 (((d.img.window? w).map (·.rkey)).getD 0) ++
    beBytes 8 (d.win w).shownH ++ beBytes 8 (d.win w).shownL)

/-- A capture REQ (R102): refused with its code, or a queue pair is made, its windows bound, the spans recomputed, and the REP sent
with the initial horizons and limits, as far as they may be told (R113). The first path is the sub-port the REQ came on (R124).
[DESIGN CHOICE: log 117] -/
def Dev.captureReq (d : Dev) (r : CmReq) : Dev :=
  let cap := capability r.priv
  let code := d.captureRefusal cap
  match cap, d.freeQpn with
  | some (spray, prot, ws, ps), some n =>
    if code ≠ 0 then d.cmReject r code else
    let d := d.acceptQp n r .capture (r.port :: (ps.drop 1).filterMap pathOf) spray prot
    let d := (ws.foldl (fun (d : Dev) w => d.bindWin n w) d).onQp n (fun x => { x with windows := ws })
    let d := d.recomputeSpans
    let d := (ws.foldl (fun (d : Dev) w => d.advanceLimit w) d).mirrorQp n
    let d := ws.foldl (fun (d : Dev) w => d.tell w) d
    let d := ws.foldl (fun (d : Dev) w => d.onWin w (fun x => { x with owes := false })) d
    d.emit (.cmRep n (d.captureRep spray prot ws))
  | _, _ => d.cmReject r code

/-- CM_RTU (R103): the queue pair moves to RTS. -/
def Dev.cmRtu (d : Dev) (q : Nat) : Dev :=
  if (d.qp q).state == .rtr then d.qpTo q .rts else d

/-- CM_DREQ (R103): the queue pair moves through a flush toward Reset; its windows return to open-unbound. [DEDUCED: log 35] -/
def Dev.cmDreq (d : Dev) (q : Nat) : Dev :=
  if (d.qp q).state == .reset then d else (d.disconnect q).emit (.cmDrep q)

end Sys2Proof.Machine
end

