-- ==== Sys2Proof/Machine/NvmeCore.lean ====
section
/-! DEFINITION. NVMe controllers (R135 to R139, R150 to R158): statuses, completions, queues, features, asynchronous events, ANA
states, resets and power-state wake-up. Status numbers, feature and log layouts are those of NVMe 2.0, which the manual names (R15,
R141, R142). -/
namespace Sys2Proof.Machine

/-! ### Statuses, as status code type × 256 + status code -/

/-- Successful completion. -/
def nvOk : Nat := 0x000
/-- Invalid Command Opcode. -/
def nvBadOpcode : Nat := 0x001
/-- Invalid Field in Command. [PRESUMED: log 44] -/
def nvBadField : Nat := 0x002
/-- Data Transfer Error. -/
def nvDataXfer : Nat := 0x004
/-- Command Abort Requested. -/
def nvAborted : Nat := 0x007
/-- Command Aborted due to SQ Deletion. -/
def nvSqDeleted : Nat := 0x008
/-- Invalid Namespace or Format. -/
def nvBadNs : Nat := 0x00B
/-- Command Sequence Error. -/
def nvSequence : Nat := 0x00C
/-- Data SGL Length Invalid. -/
def nvSglLength : Nat := 0x00F
/-- Namespace Is Write Protected. -/
def nvWriteProtected : Nat := 0x020
/-- LBA Out of Range. -/
def nvLbaRange : Nat := 0x080
/-- Completion Queue Invalid. -/
def nvBadCq : Nat := 0x100
/-- Invalid Queue Identifier. -/
def nvBadQid : Nat := 0x101
/-- Invalid Queue Size. -/
def nvBadQsize : Nat := 0x102
/-- Abort Command Limit Exceeded. -/
def nvAbortLimit : Nat := 0x103
/-- Asynchronous Event Request Limit Exceeded. -/
def nvAerLimit : Nat := 0x105
/-- Invalid Interrupt Vector. -/
def nvBadVector : Nat := 0x108
/-- Invalid Log Page. -/
def nvBadLog : Nat := 0x109
/-- Invalid Queue Deletion. -/
def nvBadDelete : Nat := 0x10C
/-- Feature Identifier Not Saveable. -/
def nvNotSaveable : Nat := 0x10D
/-- Feature Not Changeable. -/
def nvNotChangeable : Nat := 0x10E
/-- Connect Invalid Parameters. -/
def nvBadConnect : Nat := 0x182
/-- Unrecovered Read Error. -/
def nvUnrecovered : Nat := 0x281
/-- Compare Failure. -/
def nvMiscompare : Nat := 0x285
/-- Asymmetric Access Inaccessible. -/
def nvInaccessible : Nat := 0x302
/-- Asymmetric Access Transition. -/
def nvTransition : Nat := 0x303
/-- Retention Limit Reached (R165). -/
def nvRetention : Nat := 0x7C0
/-- Cairn Not Available (R165). -/
def nvNoCairn : Nat := 0x7C1
/-- Channel Not Active Here (R165). -/
def nvNoChannel : Nat := 0x7C2
/-- Keys Not Loaded (R165). -/
def nvNoKeys : Nat := 0x7C3

/-! ### Controllers, commands, completions -/

/-- Change the NVMe state. -/
def Dev.onNv (d : Dev) (f : NvState → NvState) : Dev := { d with nv := f d.nv }
/-- A controller. -/
def Dev.ctrl? (d : Dev) (c : Nat) : Option Ctrl := Tab.find? c d.nv.ctrls
/-- Change a controller. -/
def Dev.onCtrl (d : Dev) (c : Nat) (f : Ctrl → Ctrl) : Dev := d.onNv (fun n => { n with ctrls := Tab.upd c f n.ctrls })
/-- The local controller's identifier (R135). -/
def Dev.localId (d : Dev) : Nat := 0x1001 + d.headNo

/-- A command leaves a power state being entered, or one entered: the entry reverses and is counted, or the head wakes (R157). -/
def Dev.wake (d : Dev) : Dev :=
  match d.nv.entering with
  | some _ => ((d.onNv (fun n => { n with entering := none })).set F.NVQ_PS_entering 0).bump F.NVQ_ps_reversals
  | none =>
    if 2 ≤ d.get F.NVQ_PS_current then (d.set F.NVQ_PS_current (d.nv.held.getD 0)).set F.RST_STAT_ps 0 else d

/-- A command is taken by its controller; `lba` is its first block. -/
def Dev.nvTake (d : Dev) (h : NvHdr) (opcode : Nat) (admin : Bool) (lba : Nat := 0) : Dev :=
  d.wake.onCtrl h.ctrl (fun c =>
    { c with cmds := c.cmds ++ [{ sq := h.sq, cid := h.cid, nsid := h.nsid, opcode := opcode, admin := admin, lba := lba }] })

/-- The first block in which a command fails (R153). -/
def Dev.failsAt (d : Dev) (h : NvHdr) (lba : Nat) : Dev :=
  d.onCtrl h.ctrl (fun c => { c with cmds := c.cmds.map (fun x => if x.sq == h.sq && x.cid == h.cid then { x with lba := lba } else x) })

/-- Whether a command is outstanding. -/
def Dev.nvOpen (d : Dev) (h : NvHdr) : Bool :=
  match d.ctrl? h.ctrl with
  | some c => c.cmds.any (fun x => x.sq == h.sq && x.cid == h.cid)
  | none => false

/-- Submission queue key of the local controller; completion queues are kept 65,536 above. -/
def cqKey (qid : Nat) : Nat := 65536 + qid

/-- The vector a posted completion of a submission queue signals (R166, NVMe 2.0): 0 for the admin queue, else that of the completion
queue where it interrupts. -/
def Ctrl.signals (c : Ctrl) (sq : Nat) : Option Nat :=
  if sq = 0 then some 0 else
  match Tab.find? (cqKey (Tab.getD c.queues sq {}).cq) c.queues with
  | some q => if q.ien then some q.vector else none
  | none => none

/-- The completion queue that a submission queue of the local controller is bound to; 0 is the admin queue. -/
def Ctrl.cqOf (c : Ctrl) (sq : Nat) : Nat := if sq = 0 then 0 else (Tab.getD c.queues sq {}).cq

/-- Entries of a completion queue (R136). An admin queue that AQA gives less than two entries has the most. [DESIGN CHOICE: log 120] -/
def Ctrl.cqSize (c : Ctrl) (cq : Nat) : Nat :=
  if cq = 0 then (if bits c.aqa 27 16 = 0 then 4096 else bits c.aqa 27 16 + 1) else (Tab.getD c.queues (cqKey cq) {}).size

/-- Entries of a completion queue that hold a completion the host has not consumed. -/
def Ctrl.cqHeld (c : Ctrl) (cq : Nat) : Nat :=
  let p := Tab.getD c.cqs cq {}
  (p.tail + c.cqSize cq - p.head) % c.cqSize cq

/-- Whether room for one more completion can be reserved in a submission queue's completion queue, beside that of the commands fetched and
not completed (R383); a queue of n entries holds n - 1. -/
def Ctrl.cqRoom (c : Ctrl) (sq : Nat) : Bool :=
  let q := c.cqOf sq
  decide (c.cqHeld q + (c.cmds.filter (fun x => c.cqOf x.sq == q)).length + 1 < c.cqSize q)

/-- A completion is posted in a completion queue. -/
def Ctrl.postIn (c : Ctrl) (cq : Nat) : Ctrl :=
  { c with cqs := Tab.updD cq {} (fun p => { p with tail := (p.tail + 1) % c.cqSize cq }) c.cqs }

/-- Whether a command that arrives is fetched at once: on the local controller only where room for its completion can be reserved and no
command submitted to its queue before it still waits (R383). [DESIGN CHOICE: log 120] -/
def Dev.fetches (d : Dev) (h : NvHdr) : Bool :=
  !(h.ctrl == d.localId && (d.nv.unfetched.any (fun e => e.1.sq == h.sq) || (d.ctrl? h.ctrl).any (fun c => !c.cqRoom h.sq)))

/-- A command arrives at its queue, and has its effect or waits there to be fetched; it wakes the head either way (R156). -/
def Dev.arrives (d : Dev) (h : NvHdr) (i : Instr) (f : Dev → Dev) : Dev :=
  if d.fetches h then f d else d.wake.onNv (fun n => { n with unfetched := n.unfetched ++ [(h, i)] })

/-- Signal a posted completion; the local controller alone has vectors. -/
def Dev.nvSignal (d : Dev) (h : NvHdr) : Dev :=
  if h.ctrl ≠ d.localId then d else
  match (d.ctrl? h.ctrl).bind (fun c => c.signals h.sq) with
  | some v => d.message v
  | none => d

/-- A command of a controller ends: it is no longer outstanding, and an error enters the log, with its namespace and block (R153). -/
def Ctrl.ended (c : Ctrl) (sq cid status : Nat) : Ctrl :=
  let mine (x : NvCmd) : Bool := x.sq == sq && x.cid == cid
  let c' := { c with cmds := c.cmds.filter (fun x => !mine x) }
  if status = 0 then c' else
  let x := c.cmds.find? mine
  let err : NvError := { sq := sq, cid := cid, status := status, nsid := (x.map (·.nsid)).getD 0, lba := (x.map (·.lba)).getD 0 }
  { c' with errors := (err :: c.errors).take 64, errorCount := c.errorCount + 1 }

/-- Post a completion: the command is no longer outstanding, and its completion queue holds one entry more. A command that was dropped with
its queue or controller gets none. -/
def Dev.nvDone (d : Dev) (h : NvHdr) (status : Nat) (dw0 : Nat := 0) (dw1 : Nat := 0) : Dev :=
  if !d.nvOpen h then d else
  let d := d.onCtrl h.ctrl (fun c =>
    let c := c.ended h.sq h.cid status
    if c.kind == .local_ then c.postIn (c.cqOf h.sq) else c)
  let d := if status = nvDataXfer then d.bump F.NVQ_data_xfer_errors else if status = nvNoKeys then d.bump F.NVQ_keys_refusals else d
  if d.fenced && h.ctrl != d.localId then d else (d.emit (.completion h.ctrl h.sq h.cid status dw0 dw1)).nvSignal h

/-- Answer a command at once, where its controller is there to take it. -/
def Dev.nvAnswer (d : Dev) (h : NvHdr) (opcode : Nat) (admin : Bool) (status : Nat) (dw0 : Nat := 0) (dw1 : Nat := 0) (lba : Nat := 0) : Dev :=
  if (d.ctrl? h.ctrl).isNone then d else (d.nvTake h opcode admin lba).nvDone h status dw0 dw1

/-- A DMA ends in a fault: its error status is reported (R28), and its command ends with Data Transfer Error (R34). -/
def Dev.dmaFails (d : Dev) (h : NvHdr) (f : DmaFault) : Dev :=
  ({ d with nv := { d.nv with dma := some f } } : Dev).nvDone h nvDataXfer

/-- Send data of a command to the host: a fault ends the command with Data Transfer Error and no completion of a part (R34). -/
def Dev.nvData (d : Dev) (h : NvHdr) (buf : NvBuf) (data : Bytes) : Dev :=
  match buf.fault with
  | some f => d.dmaFails h f
  | none =>
  if !d.nvOpen h then d
  else (d.emit (.hostData h.ctrl h.sq h.cid buf data)).nvDone h nvOk

/-- Answer a command with data, cut to the host's buffer. -/
def Dev.nvReply (d : Dev) (h : NvHdr) (opcode : Nat) (buf : NvBuf) (data : Bytes) : Dev :=
  if (d.ctrl? h.ctrl).isNone then d else (d.nvTake h opcode true).nvData h buf (data.take buf.len)

/-- A command takes effect only on a controller that is there; `f` is its effect with the command outstanding. -/
def Dev.nvRun (d : Dev) (h : NvHdr) (opcode : Nat) (admin : Bool) (f : Dev → Dev) (lba : Nat := 0) : Dev :=
  if (d.ctrl? h.ctrl).isNone || (h.ctrl == d.localId && !d.pow.pcieUp) then d else f (d.nvTake h opcode admin lba)

/-! ### ANA (R158, R256) -/

/-- A group's state on this head's controllers. -/
def Dev.anaOf (d : Dev) (pool : Nat) : Ana :=
  if d.fenced then .inaccessible
  else if (d.head.phase == .takeover || d.head.phase == .giving || d.head.phase == .taking) && tb d.head.phasePools pool then .change
  else if d.owns pool then .optimized else .inaccessible

/-- The state's number in the log page (NVMe 2.0: 1 optimized, 3 inaccessible, 15 change). -/
def Ana.code : Ana → Nat
  | .optimized => 1
  | .inaccessible => 3
  | .change => 15

/-! ### Features (R151, R152) -/

/-- Default value of a feature, by identifier × 256 + selector (the temperature threshold has one per sensor and side). -/
def featureDefault (key : Nat) : Nat :=
  let fid := key / 256
  if fid = 0x01 then 3
  else if fid = 0x04 then (if tb key 4 then 273 else 373)
  else if fid = 0x06 then 1
  else 0

/-- Features a controller may save (R151). -/
def featureSaves (fid : Nat) : Bool := fid == 0x02 || fid == 0x04 || fid == 0x05 || fid == 0x0B

/-- Whether a controller of a kind supports a feature. -/
def featureKnown (kind : CtrlKind) (fid : Nat) : Bool :=
  [0x01, 0x02, 0x04, 0x05, 0x06, 0x07, 0x0B, 0x0E].contains fid || (fid == 0x08 && kind == .local_) ||
    (fid == 0x0F && kind != .local_)

/-- The keys a Set of the Temperature Threshold changes: one sensor's on one side, every sensor's for TMPSEL 0xF (NVMe 2.0); none where it
names no sensor or side. [PRESUMED: log 44] -/
def thresholdKeys (dw11 : Nat) : List Nat :=
  let s := bits dw11 19 16
  let side := bits dw11 21 20
  if 1 < side then []
  else if s = 15 then (List.range 9).map (fun s => 0x0400 + 16 * side + s)
  else if s ≤ 8 then [0x0400 + 16 * side + s] else []

/-- Key of a feature: the temperature threshold has one value for each sensor (TMPSEL 19:16) and side (THSEL 21:20). -/
def featureKey (fid dw11 : Nat) : Nat := if fid = 0x04 then fid * 256 + bits dw11 21 16 else fid * 256

/-- A saved value, or the default. -/
def Dev.featureSaved (d : Dev) (key : Nat) : Nat := Tab.getD d.boot.settings.features key (featureDefault key)

/-- A controller as it is created, and after its reset: with the saved values of the features (R152). -/
def Dev.newCtrl (d : Dev) (kind : CtrlKind) : Ctrl := { kind := kind, features := d.boot.settings.features }

/-- A controller's current value. -/
def Dev.feature (_d : Dev) (c : Ctrl) (key : Nat) : Nat :=
  if key = 0x0F00 then c.kato else Tab.getD c.features key (featureDefault key)

/-- TIME in milliseconds, as the Timestamp feature gives it. -/
def Dev.timestampMs (d : Dev) (c : Ctrl) : Nat := (d.now / 10 ^ 6 + Tab.getD c.features 0x0E00 0) % 2 ^ 48

/-! ### Asynchronous events (R154) -/

/-- Whether a controller has enabled an event of type × 256 + information (Asynchronous Event Configuration). -/
def Dev.aerEnabled (d : Dev) (c : Ctrl) (typ info : Nat) : Bool :=
  let v := d.feature c 0x0B00
  if typ = 1 then tb v info else if info = 0 then tb v 8 else tb v 11

/-- The information field of an event (NVMe 2.0): of a SMART event by its warning bit, 0 spare, 1 temperature, 2 and 3 reliability. -/
def aerInfo (typ info : Nat) : Nat := if typ = 1 then (if info = 0 then 2 else if info = 1 then 1 else 0) else info

/-- Post an asynchronous event on a controller: to a request held, or kept for the next one. -/
def Dev.postEvent (d : Dev) (cid typ info page : Nat) : Dev :=
  match d.ctrl? cid with
  | none => d
  | some c =>
    if !d.aerEnabled c typ info then d
    else match c.aers with
      | (sq, id) :: rest =>
        let d := d.onCtrl cid (fun c => { c with aers := rest })
        d.nvDone { ctrl := cid, sq := sq, cid := id, nsid := 0 } nvOk (typ + aerInfo typ info * 256 + page * 65536)
      | [] => if c.aerPending.contains (typ, info, page) then d
        else d.onCtrl cid (fun c => { c with aerPending := c.aerPending ++ [(typ, info, page)] })

/-- Post an event on every I/O controller. -/
def Dev.postAll (d : Dev) (typ info page : Nat) : Dev :=
  (d.nv.ctrls.map (·.1)).foldl (fun (d : Dev) c => d.postEvent c typ info page) d

/-- ASYNCHRONOUS_EVENT_REQUEST (R154): held, up to 8 for a controller, until an event is posted. -/
def Dev.aer (d : Dev) (h : NvHdr) : Dev :=
  match d.ctrl? h.ctrl with
  | none => d
  | some c =>
    let d := d.nvTake h 0x0C true
    if 8 ≤ c.aers.length then d.nvDone h nvAerLimit
    else match c.aerPending with
      | (t, i, p) :: rest =>
        (d.onCtrl h.ctrl (fun c => { c with aerPending := rest })).nvDone h nvOk (t + aerInfo t i * 256 + p * 65536)
      | [] => d.onCtrl h.ctrl (fun c => { c with aers := c.aers ++ [(h.sq, h.cid)] })

/-- Groups whose state has changed since it was last reported post an ANA change (R158). -/
def Dev.settleAna (d : Dev) : Dev :=
  d.img.pools.foldl (fun (d : Dev) p =>
    let now := (d.anaOf p.poolId).code
    match Tab.find? p.poolId d.nv.anaShown with
    | some old =>
      if old = now then d else
      let d := (d.onNv (fun n => { n with anaShown := Tab.put p.poolId now n.anaShown,
                                          ctrls := Tab.mapV (fun (c : Ctrl) => { c with anaCount := c.anaCount + 1 }) n.ctrls })).bump
        F.NVQ_ana_transitions
      d.postAll 2 3 0x0C
    | none => d.onNv (fun n => { n with anaShown := Tab.put p.poolId now n.anaShown })) d

/-! ### The end of controllers and queues -/

/-- Commands of a controller on some queues end: with Command Aborted due to SQ Deletion on the local controller, without a completion
on a fabrics one (R141). What waited for them goes. -/
def Dev.dropCmds (d : Dev) (ctrl : Nat) (onQueue : Nat → Bool) : Dev :=
  match d.ctrl? ctrl with
  | none => d
  | some c =>
    let gone := c.cmds.filter (fun x => onQueue x.sq)
    let hit (h : NvHdr) : Bool := h.ctrl == ctrl && onQueue h.sq
    let freed := ((d.nv.waits.filter (fun w => hit w.hdr)).map (·.reserves)).sum
    let d := d.onNv (fun n =>
      { n with waits := n.waits.filter (fun w => !hit w.hdr)
               reads := List.filter (fun (e : Nat × ReadRec) => !(match e.2.for_ with
                 | .read h _ | .compare h _ | .verify h => hit h
                 | .rdma _ _ _ _ => false)) n.reads
               flushes := n.flushes.filter (fun f => !hit f.1)
               placeWaits := n.placeWaits.filter (fun f => !hit f.1)
               unfetched := n.unfetched.filter (fun f => !hit f.1) })
    let d := d.onStg (fun s => { s with reserved := s.reserved - freed })
    let d := d.onCtrl ctrl (fun c => { c with aers := c.aers.filter (fun a => !onQueue a.1) })
    if c.kind == .local_ then
      gone.foldl (fun (d : Dev) x => d.nvDone { ctrl := ctrl, sq := x.sq, cid := x.cid, nsid := x.nsid } nvSqDeleted) d
    else d.onCtrl ctrl (fun c => { c with cmds := c.cmds.filter (fun x => !onQueue x.sq) })

/-- A fabrics controller's association ends: commands dropped, queue pairs disconnected, the controller gone. -/
def Dev.endAssociation (d : Dev) (ctrl : Nat) : Dev :=
  match d.ctrl? ctrl with
  | none => d
  | some c =>
    if c.kind == .local_ then d else
    let d := d.dropCmds ctrl (fun _ => true)
    let d := (c.queues.map (fun e => e.2.qpn)).foldl (fun (d : Dev) q => d.disconnect q) d
    d.onNv (fun n => { n with ctrls := Tab.del ctrl n.ctrls })

/-- The local controller is reset (R152): commands dropped, queues and unsaved features lost, not ready. -/
def Dev.resetLocal (d : Dev) : Dev :=
  let d := d.dropCmds d.localId (fun _ => true)
  let d := d.onCtrl d.localId (fun c => { d.newCtrl .local_ with
    cc := c.cc, aqa := c.aqa, asq := c.asq, acq := c.acq, errors := c.errors, errorCount := c.errorCount })
  d.set F.NVQ_STAT_local_ready 0

/-- CONTROLLER_RESET (R152): CC.EN cleared. -/
def Dev.controllerReset (d : Dev) : Dev :=
  ((d.resetLocal).onCtrl d.localId (fun c => { c with cc := c.cc - c.cc % 2, csts := 0 })).event 8 .controllerReset [d.localId]

/-- CC of the local controller is written, its reserved bits ignored (R7): setting EN makes it ready, clearing it resets it (R166). -/
def Dev.writeCc (d : Dev) (v : Nat) : Dev :=
  let v := Nat.land v 0xFFFFF1
  match d.ctrl? d.localId with
  | none => d
  | some c =>
    if tb c.cc 0 && !tb v 0 then (d.onCtrl d.localId (fun c => { c with cc := v })).controllerReset
    else
      let d := d.onCtrl d.localId (fun c => { c with cc := v, enabled := tb v 0, ready := tb v 0, csts := b2n (tb v 0) + if bits v 15 14 = 0 then 0 else 8 })
      d.setB F.NVQ_STAT_local_ready (tb v 0)

/-- KEEP_ALIVE (R151): the timer starts again; it runs outside the model's commands. -/
def Dev.keepAlive (d : Dev) (h : NvHdr) : Dev :=
  match d.ctrl? h.ctrl with
  | none => d
  | some c => d.nvAnswer h 0x18 true (if c.kind == .local_ then nvBadOpcode else nvOk)

/-- KEEP_ALIVE_TIMEOUT (R151): a controller with a timer loses its association. -/
def Dev.katoExpired (d : Dev) (ctrl : Nat) : Dev :=
  match d.ctrl? ctrl with
  | none => d
  | some c => if c.kato = 0 ∨ c.kind = .local_ then d else (d.bump F.NVQ_kato_expiries).endAssociation ctrl

/-- Fabrics controllers whose queue pairs have failed follow them: the admin queue takes the association with it, an I/O queue its
commands. -/
def Dev.settleCtrls (d : Dev) : Dev :=
  let dead (q : Nat) : Bool := (d.qp q).state == .error || (d.qp q).state == .reset
  (d.nv.ctrls.filter (fun e => e.2.kind != .local_)).foldl (fun (d : Dev) e =>
    if e.2.queues.any (fun x => x.1 == 0 && dead x.2.qpn) then d.endAssociation e.1
    else
      let gone := (e.2.queues.filter (fun x => x.1 != 0 && dead x.2.qpn)).map (·.1)
      if gone.isEmpty then d else
      (d.dropCmds e.1 (fun q => gone.contains q)).onCtrl e.1 (fun c => { c with queues := c.queues.filter (fun x => !gone.contains x.1) })) d

/-! ### Connect, properties, queues (R136 to R139) -/

/-- The subsystem NQN (R135): the array_id as 16 lowercase hexadecimal digits. -/
def hexDigits (n : Nat) : Bytes :=
  (List.range 16).map (fun i => let x := bits n (63 - 4 * i) (60 - 4 * i); b8 (if x < 10 then 48 + x else 87 + x))

/-- The subsystem NQN. -/
def Dev.nqn (d : Dev) : Bytes := asc "nqn.2031-04.com.mulukel:septalurn:" ++ hexDigits d.img.arrayId

/-- The well-known discovery NQN. -/
def discoveryNqn : Bytes := asc "nqn.2014-08.org.nvmexpress.discovery"

/-- NVMe queue pairs on this head. -/
def Dev.nvmeQps (d : Dev) : Nat := (d.net.qps.filter (fun e => e.2.use == .nvme && e.2.state != .error)).length

/-- A REQ on port 4420 (R103, R136, R167): refused while accept_off is set, on UC, or past the queue pairs a head gives NVMe. -/
def Dev.nvmeReq (d : Dev) (r : CmReq) : Dev :=
  match d.freeQpn with
  | some n =>
    if d.on F.NVQ_CTL_accept_off || r.uc || decide (32768 ≤ d.nvmeQps) then d.cmReject r 0
    else (d.acceptQp n r .nvme [r.port] false false).emit (.cmRep n [])
  | none => d.cmReject r 0

/-- First fabrics controller identifier of this head (R135). -/
def Dev.firstCtrl (d : Dev) : Nat := if d.headNo = 0 then 0x0001 else 0x0801

/-- FABRICS_CONNECT (R135 to R138): an admin queue makes a controller, an I/O queue joins one. Every discovery controller has the ID
0xFFFF; the commands of this model tell them apart by numbers from 0x10000 on. Like any command it wakes the head (R157). -/
def Dev.connect (d : Dev) (c : ConnectArgs) : Dev :=
  let x := d.qp c.qpn
  if x.use != .nvme || (x.state != .rts && x.state != .rtr) then d else
  let d := d.wake
  let answer (d : Dev) (ctrl status dw0 : Nat) : Dev := d.emit (.completion ctrl c.qid c.cid status dw0 0)
  let bad := answer d c.cntlid nvBadConnect 0
  if c.sqsize_m1 = 0 then bad else
  let want := if c.discovery then discoveryNqn else d.nqn
  if c.wantsAuth || c.subnqn != want then bad
  else if c.qid = 0 then
    let n := if c.discovery then Tab.freeKey d.nv.ctrls 65536 0x10000 else Tab.freeKey d.nv.ctrls 0x800 d.firstCtrl
    if 32 ≤ c.sqsize_m1 ∨ (!c.discovery ∧ d.firstCtrl + 0x800 ≤ n) then bad
    else
      let k : Ctrl := { d.newCtrl (if c.discovery then .discovery else .fabrics) with
                        kato := c.kato, queues := [(0, { qpn := c.qpn, size := c.sqsize_m1 + 1 })] }
      answer (d.onNv (fun v => { v with ctrls := Tab.put n k v.ctrls })) n nvOk (if c.discovery then 0xFFFF else n)
  else match d.ctrl? c.cntlid with
    | none => bad
    | some k =>
      if k.kind != .fabrics || !k.ready || Tab.has c.qid k.queues || decide (1024 ≤ c.sqsize_m1) || decide (min k.grantedSq 64 < c.qid) then bad
      else answer (d.onCtrl c.cntlid (fun k => { k with queues := Tab.put c.qid { qpn := c.qpn, size := c.sqsize_m1 + 1 } k.queues }))
        c.cntlid nvOk c.cntlid

/-- CAP of a controller (R166): queue entries, contiguous queues, 20 s, NVM command set, 4 to 64 KiB pages. -/
def capValue (kind : CtrlKind) : Nat :=
  (if kind == .local_ then 4095 else 1023) + 2 ^ 16 + 40 * 2 ^ 24 + 2 ^ 37 + 4 * 2 ^ 52

/-- A controller property (R138, R166). -/
def Ctrl.property (c : Ctrl) (off : Nat) : Option Nat :=
  if off = 0x00 then some (capValue c.kind)
  else if off = 0x08 then some 0x20000
  else if off = 0x14 then some c.cc
  else if off = 0x1C then some c.csts
  else none

/-- PROPERTY_GET (R138). -/
def Dev.propertyGet (d : Dev) (h : NvHdr) (off : Nat) (eight : Bool) : Dev :=
  match d.ctrl? h.ctrl with
  | none => d
  | some c =>
    if c.kind == .local_ then d.nvAnswer h 0x7F true nvBadOpcode
    else match c.property off with
      | some v => if eight != (off == 0) then d.nvAnswer h 0x7F true nvBadField else d.nvAnswer h 0x7F true nvOk (v % 2 ^ 32) (v / 2 ^ 32)
      | none => d.nvAnswer h 0x7F true nvBadField

/-- PROPERTY_SET (R138): CC enables the controller, or resets it and ends its I/O queues. -/
def Dev.propertySet (d : Dev) (h : NvHdr) (off : Nat) (eight : Bool) (v : Nat) : Dev :=
  match d.ctrl? h.ctrl with
  | none => d
  | some c =>
    if c.kind == .local_ then d.nvAnswer h 0x7F true nvBadOpcode
    else if off != 0x14 || eight then d.nvAnswer h 0x7F true nvBadField
    else
      let d := d.nvTake h 0x7F true
      let d := if tb c.cc 0 && !tb v 0 then
          let d := d.dropCmds h.ctrl (fun q => q != 0)
          let io := (c.queues.filter (fun e => e.1 != 0)).map (fun e => e.2.qpn)
          let d := io.foldl (fun (d : Dev) q => d.disconnect q) d
          d.onCtrl h.ctrl (fun c => { c with queues := c.queues.filter (fun e => e.1 == 0), features := (d.newCtrl c.kind).features, aerPending := [], grantedSq := 0,
                                             grantedCq := 0 })
        else d
      (d.onCtrl h.ctrl (fun c => { c with cc := v % 2 ^ 32, enabled := tb v 0, ready := tb v 0, csts := b2n (tb v 0) })).nvDone h nvOk

/-- CREATE_IO_COMPLETION_QUEUE (R139). -/
def Dev.createCq (d : Dev) (h : NvHdr) (qid size : Nat) (contig ien : Bool) (vector base : Nat) : Dev :=
  match d.ctrl? h.ctrl with
  | none => d
  | some c =>
    let st := if c.kind != .local_ then nvBadOpcode
      else if !contig then nvBadField
      else if qid = 0 ∨ 128 < qid ∨ Tab.has (cqKey qid) c.queues ∨ (c.grantedCq ≠ 0 ∧ c.grantedCq < qid) then nvBadQid
      else if size < 2 ∨ 4096 < size then nvBadQsize
      else if ien ∧ 128 < vector then nvBadVector
      else nvOk
    let d := if st = nvOk then d.onCtrl h.ctrl (fun c =>
        { c with queues := Tab.put (cqKey qid) { size := size, isCq := true, base := base, ien := ien, vector := vector } c.queues
                 cqs := Tab.del qid c.cqs }) else d
    d.nvAnswer h 0x05 true st

/-- CREATE_IO_SUBMISSION_QUEUE (R139). -/
def Dev.createSq (d : Dev) (h : NvHdr) (qid size : Nat) (contig : Bool) (cqid base : Nat) : Dev :=
  match d.ctrl? h.ctrl with
  | none => d
  | some c =>
    let st := if c.kind != .local_ then nvBadOpcode
      else if !contig then nvBadField
      else if qid = 0 ∨ 128 < qid ∨ Tab.has qid c.queues ∨ (c.grantedSq ≠ 0 ∧ c.grantedSq < qid) then nvBadQid
      else if size < 2 ∨ 4096 < size then nvBadQsize
      else if !Tab.has (cqKey cqid) c.queues then nvBadCq
      else nvOk
    let d := if st = nvOk then d.onCtrl h.ctrl (fun c => { c with queues := Tab.put qid { size := size, cq := cqid, base := base } c.queues }) else d
    d.nvAnswer h 0x01 true st

/-- DELETE_IO_SUBMISSION_QUEUE (R139, R141): its outstanding commands end. -/
def Dev.deleteSq (d : Dev) (h : NvHdr) (qid : Nat) : Dev :=
  match d.ctrl? h.ctrl with
  | none => d
  | some c =>
    if c.kind != .local_ then d.nvAnswer h 0x00 true nvBadOpcode
    else if qid = 0 ∨ !Tab.has qid c.queues then d.nvAnswer h 0x00 true nvBadQid
    else ((d.dropCmds h.ctrl (fun q => q == qid)).onCtrl h.ctrl (fun c => { c with queues := Tab.del qid c.queues })).nvAnswer h 0x00 true nvOk

/-- DELETE_IO_COMPLETION_QUEUE (R139): not while a submission queue names it. -/
def Dev.deleteCq (d : Dev) (h : NvHdr) (qid : Nat) : Dev :=
  match d.ctrl? h.ctrl with
  | none => d
  | some c =>
    if c.kind != .local_ then d.nvAnswer h 0x04 true nvBadOpcode
    else if qid = 0 ∨ !Tab.has (cqKey qid) c.queues then d.nvAnswer h 0x04 true nvBadQid
    else if c.queues.any (fun e => !e.2.isCq && e.1 != 0 && e.2.cq == qid) then d.nvAnswer h 0x04 true nvBadDelete
    else (d.onCtrl h.ctrl (fun c => { c with queues := Tab.del (cqKey qid) c.queues })).nvAnswer h 0x04 true nvOk

/-- INVALID_COMMAND_OPCODE (R138 to R140). -/
def Dev.badOpcode (d : Dev) (h : NvHdr) (admin : Bool) (opcode : Nat) : Dev := d.nvAnswer h opcode admin nvBadOpcode

/-! ### Set and Get Features -/

/-- Whether a controller has an I/O queue. -/
def Ctrl.hasIoQueue (c : Ctrl) : Bool := c.queues.any (fun e => e.1 != 0)

/-- How host data may come (R136): by PRPs on the local controller, by a keyed SGL or in the capsule on a fabrics one, in an I/O capsule
only. Data given as transferred already belongs to either. [PRESUMED: log 47] -/
def badTransfer (kind : CtrlKind) (admin : Bool) : NvData → Bool
  | .dma _ _ => false
  | .keyed _ _ _ => kind == .local_
  | .capsule b => kind == .local_ || (admin && !b.isEmpty)

/-- The Timestamp is set (R151): under PTP or PPS the Set is ignored. -/
def Dev.setTimestamp (d : Dev) (h : NvHdr) (data : Bytes) : Dev :=
  let d := if d.timeSource ≠ 2 then d else d.onCtrl h.ctrl (fun c =>
    { c with features := Tab.put 0x0E00 ((leAt data 0 6 + 2 ^ 48 - d.now / 10 ^ 6 % 2 ^ 48) % 2 ^ 48) c.features })
  d.nvDone h nvOk

/-- SET_FEATURES (R137, R151, R152). The timestamp's octets that a host transfers may end in a DMA fault (R34). -/
def Dev.setFeatures (d : Dev) (h : NvHdr) (fid : Nat) (save : Bool) (dw11 dw12 : Nat) (x : NvData) : Dev :=
  match d.ctrl? h.ctrl with
  | none => d
  | some c =>
    let put (d : Dev) (v k : Nat) : Dev := d.onCtrl h.ctrl (fun c => { c with features := Tab.put k v c.features })
    let keep (d : Dev) (v k : Nat) : Dev := { d with boot := { d.boot with settings :=
      { d.boot.settings with features := Tab.put k v d.boot.settings.features } } }
    if !featureKnown c.kind fid then d.nvAnswer h 0x09 true nvBadField
    else if save && !featureSaves fid then d.nvAnswer h 0x09 true nvNotSaveable
    else if fid = 0x06 then d.nvAnswer h 0x09 true (if tb dw11 0 then nvOk else nvNotChangeable)
    else if fid = 0x07 then
      if c.hasIoQueue then d.nvAnswer h 0x09 true nvSequence
      else
        let most := if c.kind == .local_ then 128 else 64
        let sq := min (bits dw11 15 0 + 1) most
        let cq := min (bits dw11 31 16 + 1) most
        (d.onCtrl h.ctrl (fun c => { c with grantedSq := sq, grantedCq := cq })).nvAnswer h 0x09 true nvOk ((sq - 1) + (cq - 1) * 65536)
    else if fid = 0x0E then
      if badTransfer c.kind true x then d.nvAnswer h 0x09 true nvBadField
      else match x with
      | .dma _ (some f) => (d.nvTake h 0x09 true).dmaFails h f
      | .dma b none | .capsule b => (d.nvTake h 0x09 true).setTimestamp h b
      | .keyed _ _ n =>
        if n < 8 then d.nvAnswer h 0x09 true nvSglLength
        else (d.nvTake h 0x09 true).onNv (fun v => { v with waits := v.waits ++
          [{ hdr := h, slba := 0, blocks := 0, fua := false, data := x, stamp := true }] })
    else if fid = 0x0F then (d.onCtrl h.ctrl (fun c => { c with kato := dw11 })).nvAnswer h 0x09 true nvOk
    else if fid = 0x02 ∧ 3 < bits dw11 4 0 then d.nvAnswer h 0x09 true nvBadField
    else if fid = 0x01 ∧ dw12 ≠ 0 then d.nvAnswer h 0x09 true nvBadField
    else if fid = 0x05 ∧ tb dw11 16 then d.nvAnswer h 0x09 true nvBadField
    else
      let ks := if fid = 0x04 then thresholdKeys dw11 else [fid * 256]
      let v := if fid = 0x04 then bits dw11 15 0 else dw11
      if ks.isEmpty then d.nvAnswer h 0x09 true nvBadField
      else
        let d := ks.foldl (fun (d : Dev) k => put d v k) d
        let d := if save then ks.foldl (fun (d : Dev) k => keep d v k) d else d
        d.nvAnswer h 0x09 true nvOk

/-- GET_FEATURES (R151): sel 0 current, 1 default, 2 saved, 3 what the feature allows. -/
def Dev.getFeatures (d : Dev) (h : NvHdr) (fid sel dw11 : Nat) (buf : NvBuf) : Dev :=
  match d.ctrl? h.ctrl with
  | none => d
  | some c =>
    let k := featureKey fid dw11
    if !featureKnown c.kind fid then d.nvAnswer h 0x0A true nvBadField
    else if fid = 0x04 ∧ (thresholdKeys dw11).length ≠ 1 then d.nvAnswer h 0x0A true nvBadField
    else if sel = 3 then d.nvAnswer h 0x0A true nvOk (b2n (featureSaves fid) + 4)
    else if fid = 0x0E then d.nvReply h 0x0A buf (leBytes 6 (d.timestampMs c) ++ [0, 0])
    else if fid = 0x07 ∧ sel = 0 then
      d.nvAnswer h 0x0A true nvOk ((c.grantedSq - 1) + (c.grantedCq - 1) * 65536)
    else d.nvAnswer h 0x0A true nvOk (match sel with
      | 0 => d.feature c k
      | 1 => featureDefault k
      | _ => d.featureSaved k)

/-! ### Power states (R155, R156) -/

/-- The power state the controllers permit: the lowest-numbered that any has set. [DEDUCED: log 45] -/
def Dev.psTarget (d : Dev) : Nat :=
  d.nv.ctrls.foldl (fun a e => min a (bits (d.feature e.2 0x0200) 4 0)) 3

/-- A ring has jobs: fetched, or submitted and still on the ring (R196). -/
def ringWaits (on_ : Bool) (fetched head tail : Nat) : Bool := decide (0 < fetched) || (on_ && head != tail)

/-- A host job runs or waits on a ring (R196). -/
def Dev.jobsWait (d : Dev) : Bool :=
  (List.range 4).any (fun n => ringWaits (d.on (F.RED_RING_CFG_enable.at n)) (Tab.getD d.red.rings n {}).fetched
    (d.get (F.RED_RING_SQ_HEAD_sq_head.at n)) (d.get (F.RED_RING_SQ_TAIL_sq_tail.at n))) ||
  (List.range 2).any (fun n => ringWaits (d.on (F.CIP_RING_CFG_enable.at n)) (Tab.getD d.cip.rings n {}).fetched
    (d.get (F.CIP_RING_SQ_HEAD_sq_head.at n)) (d.get (F.CIP_RING_SQ_TAIL_sq_tail.at n)))

/-- Why the head stays above a non-operational state (R156, R167): 1 command outstanding, 2 mode in effect, 3 dirty staging, 4 peer mirroring.
Asynchronous Event Requests, which wait for an event and not for the head, are not counted. [DEDUCED: log 45] -/
def Dev.psHeldAt (d : Dev) (t : Nat) : Nat :=
  if d.nv.ctrls.any (fun e => e.2.cmds.any (fun x => !(x.admin && x.opcode == 0x0C))) || !d.nv.unfetched.isEmpty || d.jobsWait then 1
  else if d.mode 0 || d.mode 6 || d.mode 7 || d.shipping then 2
  else if t = 3 && d.dirty != 0 then 3
  else if t = 3 && d.peerUp && (match d.head.peerHb with | some b => b.mirrorReq | none => false) then 4
  else 0

/-- What holds the head above the state its controllers permit. -/
def Dev.psHeld (d : Dev) : Nat := if d.psTarget < 2 then 0 else d.psHeldAt d.psTarget

/-- Target, hold and operational state follow what the controllers have set; a condition that fails wakes the head (R156). -/
def Dev.settlePs (d : Dev) : Dev :=
  let t := if d.nv.ctrls.isEmpty then 0 else d.psTarget
  let d := (d.set F.NVQ_PS_target t).set F.NVQ_PS_held d.psHeld
  let d := if (t < 2 ∨ d.psHeld ≠ 0) ∧ (d.nv.entering.isSome ∨ 2 ≤ d.get F.NVQ_PS_current) then d.wake else d
  if d.nv.entering.isNone ∧ d.get F.NVQ_PS_current < 2 then
    (d.onNv (fun n => { n with held := some (min t 1) })).set F.NVQ_PS_current (min t 1)
  else d

/-- POWER_STATE_ENTRY (R155, R156): with nothing holding the head, the lowest state permitted begins to be entered. [DEDUCED: log 45] -/
def Dev.psEntry (d : Dev) (_p : PsQuiet) : Dev :=
  let t := d.psTarget
  if d.nv.ctrls.isEmpty ∨ t < 2 ∨ d.psHeld ≠ 0 ∨ d.nv.entering.isSome ∨ 2 ≤ d.get F.NVQ_PS_current then d
  else (d.onNv (fun n => { n with entering := some t })).set F.NVQ_PS_entering 1

end Sys2Proof.Machine
end

