-- ==== Sys2Proof/Machine/NvmeIo.lean ====
section
/-! DEFINITION. NVMe I/O commands (R140, R141, R143 to R150) and how writes and reads under way come to their end: acknowledgement of
writes (R16, R17, R113), completion of reads, Flush (R54, R146), data fetch and budget (R223). -/
namespace Sys2Proof.Machine

/-! ### Checks -/

/-- Why an I/O command to a namespace does nothing (R141, R158); 0 where it goes on. -/
def Dev.ioStatus (d : Dev) (nsid : Nat) : Nat :=
  match d.img.ns? nsid with
  | none => nvBadNs
  | some n => match d.anaOf n.poolId with
    | .optimized => nvOk
    | .inaccessible => nvInaccessible
    | .change => nvTransition

/-- Whether a range leaves its namespace. -/
def Dev.outOfRange (d : Dev) (nsid slba blocks : Nat) : Bool :=
  match (d.imgFor nsid).ns? nsid with
  | some n => decide (n.sizeBlocks < slba + blocks)
  | none => true

/-- The host stream of a namespace (R144): its lowest-numbered STREAM record that no WINDOW record names. -/
def Dev.hostStream (d : Dev) (nsid : Nat) : Option Nat :=
  let l := ((d.imgFor nsid).stream.filter (fun s => s.nsid == nsid && !d.img.window.any (fun w => w.streamId == s.streamId))).map (·.streamId)
  match l with
  | [] => none
  | x :: t => some (t.foldl min x)

/-- A slot behind a location is sealed. -/
def Dev.locSealed (d : Dev) (pool : Nat) (l : Loc) : Bool :=
  match (d.pool pool).resolve l with
  | .staged n => ((Tab.find? n d.stg.slots).map (fun s => descSealed s.desc)).getD false
  | .stored _ m s _ x => (((d.pool pool).slotAt m s x).map (fun t => descSealed t.desc)).getD false
  | _ => false

/-- Reading a range needs keys that are not there (R141, R149, R216). -/
def Dev.readNeedsKeys (d : Dev) (nsid slba blocks : Nat) : Bool :=
  !d.keysUsable && (d.keysClosed nsid ||
    (List.range blocks).any (fun i => d.locSealed (d.poolOf nsid) (d.blockLoc nsid (slba + i))))

/-- Status of a command that writes to a namespace: access, range, host stream and read-only pool, keys. [PRESUMED: log 44] -/
def Dev.writeStatus (d : Dev) (nsid : Nat) (ranges : List (Nat × Nat)) : Nat :=
  let s := d.ioStatus nsid
  if s ≠ nvOk then s
  else if ranges.any (fun r => d.outOfRange nsid r.1 r.2) then nvLbaRange
  else if (d.hostStream nsid).isNone || (d.pool (d.poolOf nsid)).readOnly then nvWriteProtected
  else if d.keysClosed nsid then nvNoKeys
  else nvOk

/-- Octets an NVMe data description offers. -/
def dataLen : NvData → Nat
  | .capsule b => b.length
  | .dma b _ => b.length
  | .keyed _ _ n => n

/-- What is wrong with the data description of a command of so many blocks (R136, R148); 0 where nothing is. [PRESUMED: log 47, DESIGN CHOICE: log 108] -/
def dataStatus (kind : CtrlKind) (blocks : Nat) (x : NvData) : Nat :=
  if 2 ^ 21 < 4096 * blocks then nvBadField
  else if badTransfer kind false x then nvBadField
  else if (match x with | .capsule b => decide (16384 < b.length) | _ => false) then nvBadField
  else if (match x with | .dma _ (some _) => false | _ => decide (dataLen x < 4096 * blocks)) then nvSglLength
  else nvOk

/-! ### Writes and compares (R143 to R145, R148, R223) -/

/-- The kind of the controller a command came to. -/
def Dev.kindOf (d : Dev) (h : NvHdr) : CtrlKind := ((d.ctrl? h.ctrl).map (·.kind)).getD .fabrics

/-- NVME_WRITE: checked, then waiting for budget and data. [DESIGN CHOICE: log 108] -/
def Dev.nvWrite (d : Dev) (h : NvHdr) (slba nlb : Nat) (fua : Bool) (x : NvData) : Dev :=
  let n := nlb + 1
  let s := d.writeStatus h.nsid [(slba, n)]
  let s := if s = nvOk then dataStatus (d.kindOf h) n x else s
  if s ≠ nvOk then d.nvAnswer h 0x01 false s (lba := slba)
  else d.nvRun h 0x01 false (fun d => d.onNv (fun v =>
    { v with waits := v.waits ++ [{ hdr := h, slba := slba, blocks := n, fua := fua, data := x }] })) slba

/-- NVME_COMPARE: checked, then waiting for its data. -/
def Dev.nvCompare (d : Dev) (h : NvHdr) (slba nlb : Nat) (x : NvData) : Dev :=
  let n := nlb + 1
  let s := d.ioStatus h.nsid
  let s := if s ≠ nvOk then s else if d.outOfRange h.nsid slba n then nvLbaRange
    else if d.readNeedsKeys h.nsid slba n then nvNoKeys else dataStatus (d.kindOf h) n x
  if s ≠ nvOk then d.nvAnswer h 0x05 false s (lba := slba)
  else d.nvRun h 0x05 false (fun d => d.onNv (fun v =>
    { v with waits := v.waits ++ [{ hdr := h, slba := slba, blocks := n, fua := false, data := x, compare := true }] })) slba

/-- Take a waiting command off the list. -/
def Dev.unwait (d : Dev) (h : NvHdr) : Dev :=
  d.onNv (fun v => { v with waits := v.waits.filter (fun w => !(w.hdr.ctrl == h.ctrl && w.hdr.sq == h.sq && w.hdr.cid == h.cid)) })

/-- A command's data has arrived, or failed (R34): a write takes its sequence number and its blocks are taken, unless its namespace is sealed
and the keys have gone (R149); a compare reads. -/
def Dev.nvArrived (d : Dev) (w : NvWait) (bytes : Bytes) (fault : Option DmaFault) : Dev :=
  let d := d.unwait w.hdr
  let d := d.onStg (fun s => { s with reserved := s.reserved - w.reserves })
  let data := bytes.take (4096 * w.blocks)
  match fault with
  | some f => d.dmaFails w.hdr f
  | none =>
  if w.stamp then d.setTimestamp w.hdr bytes
  else if data.length < 4096 * w.blocks then d.nvDone w.hdr nvDataXfer
  else if w.compare then
    d.startRead (.compare w.hdr data) w.hdr.nsid w.slba ((List.range w.blocks).map (w.slba + ·))
  else if d.keysClosed w.hdr.nsid then d.nvDone w.hdr nvNoKeys
  else match d.hostStream w.hdr.nsid with
    | none => d.nvDone w.hdr nvWriteProtected
    | some st =>
      let blocks := ((chunks 4096 data).zipIdx).map (fun t => (w.slba + t.2, BlockIn.data t.1))
      (d.beginWrite (.command w.hdr.ctrl w.hdr.sq w.hdr.cid) w.hdr.nsid st blocks w.fua).2

/-- The queue pair of a fabrics command. -/
def Dev.qpnOf (d : Dev) (h : NvHdr) : Nat := (((d.ctrl? h.ctrl).bind (fun c => Tab.find? h.sq c.queues)).map (·.qpn)).getD 0

/-- A waiting write may not begin to fetch: budget reached, or admission to its pool closed (R222, R268, R369, R436). -/
def Dev.nvHeld (d : Dev) (nsid : Nat) : Bool :=
  let p := d.pool (d.poolOf nsid)
  d.stg.budgetReached || p.hostHeld || p.writesHeld || d.on F.SYS_CFG_STAT_frozen || d.safetyClosed

/-- Begin to fetch a waiting command's data; its reservation stands from here (R221). [DESIGN CHOICE: log 33] -/
def Dev.beginFetch (d : Dev) (w : NvWait) : Dev :=
  match w.data with
  | .capsule b => d.nvArrived w b none
  | .dma b f => d.nvArrived w b f
  | .keyed addr rkey len =>
    let q := d.qpnOf w.hdr
    if 16 ≤ ((d.qp q).reqs.filter (fun r => r.isRead && !r.finished)).length then d else
    let d := d.onNv (fun v => { v with waits := v.waits.map (fun x => if x.hdr = w.hdr then { x with fetching := true } else x) })
    let d := d.onStg (fun s => { s with reserved := s.reserved + ({ w with fetching := true } : NvWait).reserves })
    d.request q { psn := 0, attempts := 1, isRead := true, ctrl := w.hdr.ctrl, sq := w.hdr.sq, cid := w.hdr.cid, payload := [] } len
      (fun _ => .readReq q addr rkey len)

/-- Bring one waiting command on: refused where its pool turned read-only or its keys went, waiting where budget or admission says
so, otherwise fetched; a READ that has ended gives it its data. -/
def Dev.pumpWait (d : Dev) (w : NvWait) : Dev :=
  if w.fetching then
    let q := d.qpnOf w.hdr
    match (d.qp q).reqs.find? (fun r => r.isRead && r.finished && !r.orphan && r.ctrl == w.hdr.ctrl && r.sq == w.hdr.sq && r.cid == w.hdr.cid) with
    | some r =>
      let d := d.onQp q (fun x => { x with reqs := x.reqs.filter (fun y => y.psn != r.psn || !y.isRead) })
      let addr := match w.data with | .keyed a _ _ => a | _ => 0
      d.nvArrived w r.got (if r.failed then some { bytes := r.got.length, addr := addr + r.got.length } else none)
    | none => d
  else if w.compare || w.stamp then d.beginFetch w
  else if (d.pool (d.poolOf w.hdr.nsid)).readOnly then (d.unwait w.hdr).nvDone w.hdr nvWriteProtected
  else if d.keysClosed w.hdr.nsid then (d.unwait w.hdr).nvDone w.hdr nvNoKeys
  else if d.nvHeld w.hdr.nsid then d
  else if d.budget < d.dirty + 4096 * w.blocks then
    if w.counted then d
    else (d.bump F.STG_nvme_budget_waits).onNv (fun v =>
      { v with waits := v.waits.map (fun x => if x.hdr = w.hdr then { x with counted := true } else x) })
  else d.beginFetch w

/-- READs of aborted commands go once they have ended: their data go nowhere (R150). -/
def Dev.dropOrphans (d : Dev) : Dev :=
  let done (r : OutReq) : Bool := r.orphan && r.finished
  (d.net.qps.filter (fun e => e.2.reqs.any done)).foldl (fun (d : Dev) e =>
    d.onQp e.1 (fun x => { x with reqs := x.reqs.filter (fun r => !done r) })) d

/-- Bring every waiting command on, in order. -/
def Dev.pumpWaits (d : Dev) : Dev := d.nv.waits.foldl Dev.pumpWait d.dropOrphans

/-! ### Write Zeroes, Dataset Management (R147, R148) -/

/-- Blocks set to zero or deallocated. -/
def zeroRange (slba n : Nat) (dealloc : Bool) : List (Nat × BlockIn) :=
  (List.range n).map (fun i => (slba + i, if dealloc then BlockIn.dealloc else BlockIn.zero))

/-- A command that only changes the map takes its sequence number at once. -/
def Dev.nvMapOnly (d : Dev) (h : NvHdr) (opcode : Nat) (fua : Bool) (blocks : List (Nat × BlockIn)) : Dev :=
  match d.hostStream h.nsid with
  | none => d.nvAnswer h opcode false nvWriteProtected
  | some st => d.nvRun h opcode false (fun d => (d.beginWrite (.command h.ctrl h.sq h.cid) h.nsid st blocks fua).2)
      ((blocks.head?.map (·.1)).getD 0)

/-- NVME_WRITE_ZEROES. -/
def Dev.nvWriteZeroes (d : Dev) (h : NvHdr) (slba nlb : Nat) (deac fua : Bool) : Dev :=
  let s := d.writeStatus h.nsid [(slba, nlb + 1)]
  if s ≠ nvOk then d.nvAnswer h 0x08 false s (lba := slba) else d.nvMapOnly h 0x08 fua (zeroRange slba (nlb + 1) deac)

/-- NVME_DATASET_MANAGEMENT: deallocates its ranges, NR plus one of them (R15); empty ranges are skipped; other attributes are ignored.
Fewer ranges than NR calls for is a data SGL that is too short. [PRESUMED: log 47] -/
def Dev.nvDsm (d : Dev) (h : NvHdr) (nr : Nat) (ad : Bool) (ranges : List DsmRange) (fault : Option DmaFault) : Dev :=
  let l := (ranges.take (nr + 1)).filter (fun r => r.len != 0)
  match fault with
  | some f => if (d.ctrl? h.ctrl).isNone then d else (d.nvTake h 0x09 false).dmaFails h f
  | none =>
  let s := if ranges.length ≤ nr then nvSglLength else d.writeStatus h.nsid (l.map (fun r => (r.slba, r.len)))
  if s ≠ nvOk then d.nvAnswer h 0x09 false s (lba := (l.head?.map (·.slba)).getD 0)
  else if !ad || l.isEmpty then d.nvAnswer h 0x09 false nvOk
  else d.nvMapOnly h 0x09 false (l.flatMap (fun r => zeroRange r.slba r.len true))

/-! ### Read, Verify, Flush -/

/-- Status of a command that reads blocks. [PRESUMED: log 44] -/
def Dev.readStatus (d : Dev) (nsid slba n : Nat) : Nat :=
  let s := d.ioStatus nsid
  if s ≠ nvOk then s else if d.outOfRange nsid slba n then nvLbaRange else if d.readNeedsKeys nsid slba n then nvNoKeys else nvOk

/-- NVME_READ (R22). -/
def Dev.nvRead (d : Dev) (h : NvHdr) (slba nlb : Nat) (buf : NvBuf) : Dev :=
  let n := nlb + 1
  let s := d.readStatus h.nsid slba n
  let s := if s ≠ nvOk then s else if 2 ^ 21 < 4096 * n then nvBadField else if buf.len < 4096 * n then nvSglLength else nvOk
  if s ≠ nvOk then d.nvAnswer h 0x02 false s (lba := slba)
  else d.nvRun h 0x02 false (fun d => d.startRead (.read h buf) h.nsid slba ((List.range n).map (slba + ·))) slba

/-- NVME_VERIFY: every block is read and checked; nothing is transferred. -/
def Dev.nvVerify (d : Dev) (h : NvHdr) (slba nlb : Nat) : Dev :=
  let s := d.readStatus h.nsid slba (nlb + 1)
  if s ≠ nvOk then d.nvAnswer h 0x0C false s (lba := slba)
  else d.nvRun h 0x0C false (fun d => d.startRead (.verify h) h.nsid slba ((List.range (nlb + 1)).map (slba + ·))) slba

/-- The staged slots that blocks of a namespace rest on, a slot of another namespace of its domain among them (R54, R182). -/
def Dev.slotsNamed (d : Dev) (nsid : Nat) : List Nat :=
  (d.ns nsid).map.filterMap (fun e => match (d.pool (d.poolOf nsid)).resolve e.2 with
    | .staged n => some n
    | _ => none)

/-- The staged slots of a namespace's completed writes, of every namespace for NSID 0xFFFF_FFFF, and those its blocks rest on. -/
def Dev.slotsOf (d : Dev) (nsid : Nat) : List Nat :=
  let own := (List.filter (fun (e : Nat × Staged) => (nsid == 0xFFFFFFFF || e.2.nsid == nsid) && !Tab.has e.2.write d.stg.writes) d.stg.slots).map (·.1)
  own ++ (d.slotsNamed nsid).filter (fun n => !own.contains n)

/-- Status of a command that touches no block of its namespace: access, keys (R141). -/
def Dev.plainStatus (d : Dev) (nsid : Nat) : Nat :=
  let s := d.ioStatus nsid
  if s ≠ nvOk then s else if d.keysClosed nsid then nvNoKeys else nvOk

/-- NVME_FLUSH (R54, R146): at once with Mirror in effect, or with nothing dirty; otherwise when what was completed is on the media. -/
def Dev.nvFlush (d : Dev) (h : NvHdr) : Dev :=
  let s := if h.nsid = 0xFFFFFFFF then nvOk else d.plainStatus h.nsid
  if s ≠ nvOk then d.nvAnswer h 0x00 false s
  else
    let d := d.bump F.NVQ_flushes
    let l := d.slotsOf h.nsid
    if d.mode 1 || l.isEmpty then d.nvAnswer h 0x00 false nvOk
    else d.nvRun h 0x00 false (fun d => d.onNv (fun v => { v with flushes := v.flushes ++ [(h, l)] }))

/-- Slots are off the media's waiting list once released (R20). -/
def Dev.onMedia (d : Dev) (l : List Nat) : Bool := l.all (fun n => !Tab.has n d.stg.slots)

/-- Close the assembling stripes that hold some slots, which a Flush or FUA write needs on the media (R270). -/
def Dev.closeFor (d : Dev) (l : List Nat) : Dev :=
  l.foldl (fun (d : Dev) n => match (Tab.find? n d.stg.slots).bind (·.stripe) with
    | some p => d.closeStripe p.1 p.2
    | none => d) d

/-- Flushes whose slots are on the media complete; the others close the stripes they wait for. -/
def Dev.settleFlushes (d : Dev) : Dev :=
  d.nv.flushes.foldl (fun (d : Dev) f =>
    if d.onMedia f.2 then (d.onNv (fun v => { v with flushes := v.flushes.filter (fun g => g.1 != f.1) })).nvDone f.1 nvOk
    else d.closeFor f.2) d

/-! ### Reads that end -/

/-- Blocks of a command. -/
def Dev.countRead (d : Dev) (n : Nat) : Dev := (d.bump F.NVQ_reads).bump F.NVQ_bytes_read (4096 * n)

/-- The first block in which two contents differ. -/
def firstDiff (a b : Bytes) : Nat :=
  (((chunks 4096 a).zip (chunks 4096 b)).takeWhile (fun t => t.1 == t.2)).length

/-- A read has all its blocks, or one that cannot be had: its command or message is answered. -/
def Dev.readDone (d : Dev) (id : Nat) (r : ReadRec) : Dev :=
  let d := d.onNv (fun v => { v with reads := Tab.del id v.reads })
  let lost (d : Dev) (h : NvHdr) : Dev := ((d.bump F.FTL_unrecovered_reads).failsAt h (r.slba + r.badAt.getD 0)).nvDone h nvUnrecovered
  if r.noKeys then
    match r.for_ with
    | .read h _ | .compare h _ | .verify h => d.nvDone h nvNoKeys
    | .rdma q psn off len => d.rdmaReadDone { r with failed := true } q psn off len
  else
  match r.for_ with
  | .read h buf => if r.failed then lost d h else (if buf.fault.isSome then d else d.countRead r.blocks).nvData h buf r.bytes
  | .compare h x => if r.failed then lost d h else
      if r.bytes = x then d.nvDone h nvOk else (d.failsAt h (r.slba + firstDiff r.bytes x)).nvDone h nvMiscompare
  | .verify h => if r.failed then lost d h else d.nvDone h nvOk
  | .rdma q psn off len => (if r.failed then d.bump F.FTL_unrecovered_reads else d).rdmaReadDone r q psn off len

/-- Every read that has ended is answered. -/
def Dev.settleReads (d : Dev) : Dev :=
  d.nv.reads.foldl (fun (d : Dev) (e : Nat × ReadRec) => if e.2.failed || e.2.noKeys || e.2.ready then d.readDone e.1 e.2 else d) d

/-! ### Writes that are acknowledged (R16, R17, R54, R113) -/

/-- A command's write meets its acknowledgement: it completes, and becomes visible with its completion (R18). -/
def Dev.commandAcked (d : Dev) (w : Nat) (r : WriteRec) (h : NvHdr) : Dev :=
  if r.fua && !d.mode 1 && !d.onMedia r.slots then d.closeFor r.slots
  else
    let d := d.showWrite w
    let d := d.onStg (fun s => { s with writes := Tab.del w s.writes })
    ((d.bump F.NVQ_writes).bump F.NVQ_bytes_written (4096 * r.blocks)).nvDone h nvOk

/-- One write under way: acknowledged where every block is staged, and at the peer with Mirror; its ingest buffers are released. -/
def Dev.settleWrite (d : Dev) (e : Nat × WriteRec) : Dev :=
  if e.2.acked || !d.writeReady e.1 e.2 then d
  else
    let d := d.releaseIngest e.1
    match e.2.owner with
    | .command c sq cid => d.commandAcked e.1 e.2 { ctrl := c, sq := sq, cid := cid, nsid := e.2.nsid }
    | _ => d.onStg (fun s => { s with writes := Tab.upd e.1 (fun r => { r with acked := true }) s.writes })

/-- Horizons advance over the acknowledged messages at the head of the order (R113). -/
def Dev.horizonSteps (d : Dev) (w : Nat) : List DoneMsg → Dev
  | [] => d
  | m :: t =>
    if !d.writeAcked m.write then d
    else
      let d := if (d.win w).horizon < m.stop then d.trace 4 7 ((d.win w).qpn % 65536) [w, m.stop] else d
      let d := d.onWin w (fun x => { x with horizon := max x.horizon m.stop, lastImm := m.imm.getD x.lastImm, done := x.done.drop 1 })
      let d := d.onStg (fun s => { s with writes := Tab.del m.write s.writes })
      d.horizonSteps w t

/-- A window's horizon and limit, what the peer and the sender are told of them, and of a frame just matched (R87, R113, R115, R117). -/
def Dev.settleWin (d : Dev) (w : Nat) : Dev :=
  let old := d.win w
  let d := d.horizonSteps w old.done
  let d := d.advanceLimit w
  let x := d.win w
  let say := (d.channelOf w).any (fun c => (d.chan c).sayLast)
  let d := if x.horizon ≠ old.horizon ∨ x.limit ≠ old.limit ∨ say then
      (if x.state == .bound && (d.qp x.qpn).use == .capture then (d.mirrorState (.qp (d.qpMirror x.qpn))).mirrorWin w else d.mirrorWin w)
    else d
  (d.tell w).payCredit w

/-- A command's write none of whose blocks has reached encryption, some of them to be sealed with keys that have gone (R149). -/
def Dev.keyless (d : Dev) (e : Nat × WriteRec) : Bool :=
  !d.keysUsable && e.2.slots.isEmpty && !e.2.acked &&
    (match e.2.owner with | .command _ _ _ => true | _ => false) &&
    List.any d.stg.ingest (fun (i : Nat × Ingest) => i.2.write == e.1 && !i.2.staged && !i.2.waitKeys && d.needsKeys i.2.nsid i.2.wid)

/-- Such a write ends with Keys Not Loaded and has no effect. -/
def Dev.dropKeyless (d : Dev) (e : Nat × WriteRec) : Dev :=
  match e.2.owner with
  | .command c sq cid =>
    let gone := (List.filter (fun (i : Nat × Ingest) => i.2.write == e.1) d.stg.ingest).map (·.1)
    let d := (d.releaseIngest e.1).onStg (fun s => { s with writes := Tab.del e.1 s.writes })
    let d : Dev := { d with red := { d.red with lookups := d.red.lookups.filter (fun l => !gone.contains l.1) } }
    let d := d.onNs e.2.nsid (fun x => { x with log := Tab.upd e.2.stream (fun l => l.filter (fun w => w.1 != e.2.seq)) x.log })
    d.nvDone { ctrl := c, sq := sq, cid := cid, nsid := e.2.nsid } nvNoKeys
  | _ => d

/-- Writes, horizons, limits and frame slots are brought to what the rest of the state allows. -/
def Dev.settleWrites (d : Dev) : Dev :=
  let d := (List.filter d.keyless d.stg.writes).foldl Dev.dropKeyless d
  let d := d.stg.writes.foldl Dev.settleWrite d
  let d := (d.net.wins.map (·.1)).foldl Dev.settleWin d
  (d.ipt.chans.map (·.1)).foldl Dev.slotsBack d

/-! ### Abort (R150) -/

/-- A Place Cairn command behind a Cairn that waits to be placed. -/
def Placed.of (p : Placed) (ctrl sq cid : Nat) : Bool :=
  p.byCommand.any (fun c => c.1.ctrl == ctrl && c.1.sq == sq && c.1.cid == cid)

/-- A namespace without the Cairn that a caught command asked for: where no later one waits, positions and octet counts are as if it had
not been asked for. -/
def Ns.unask (x : Ns) (ctrl sq cid : Nat) : Ns :=
  let left := x.waiting.filter (fun p => !p.of ctrl sq cid)
  match x.waiting.getLast? with
  | some p =>
    if !p.of ctrl sq cid then { x with waiting := left }
    else { x with waiting := left, pos := p.before.1
                  log := x.log.map (fun e => (e.1, (Tab.getD p.before.2 e.1 []).filter (fun w => !e.2.contains w) ++ e.2)) }
  | none => x

/-- Drop what a caught command waits in; data of a READ under way go nowhere. -/
def Dev.forget (d : Dev) (ctrl sq cid : Nat) : Dev :=
  let hit (h : NvHdr) : Bool := h.ctrl == ctrl && h.sq == sq && h.cid == cid
  let freed := ((d.nv.waits.filter (fun w => hit w.hdr)).map (·.reserves)).sum
  let q := d.qpnOf { ctrl := ctrl, sq := sq, cid := cid, nsid := 0 }
  let d := d.onStg (fun s => { s with reserved := s.reserved - freed })
  let d := d.onQp q (fun x => { x with reqs := x.reqs.map (fun r =>
    if r.isRead && r.ctrl == ctrl && r.sq == sq && r.cid == cid then { r with orphan := true } else r) })
  let d := d.onEachNs (fun _ x => x.unask ctrl sq cid)
  d.onNv (fun n => { n with
    waits := n.waits.filter (fun w => !hit w.hdr)
    reads := List.filter (fun (e : Nat × ReadRec) => !(match e.2.for_ with
      | .read h _ | .compare h _ | .verify h => hit h
      | .rdma _ _ _ _ => false)) n.reads })

/-- Whether a command has not yet passed the point after which it completes normally. -/
def Dev.catchable (d : Dev) (ctrl sq cid : Nat) : Bool :=
  let hit (h : NvHdr) : Bool := h.ctrl == ctrl && h.sq == sq && h.cid == cid
  d.nv.waits.any (fun w => hit w.hdr && !w.stamp) ||
  d.snp.nss.any (fun e => e.2.waiting.any (fun p => p.of ctrl sq cid)) ||
  List.any d.nv.reads (fun (e : Nat × ReadRec) => match e.2.for_ with
    | .read h _ | .compare h _ | .verify h => hit h
    | .rdma _ _ _ _ => false)

/-- ABORT: a command still waiting or reading is caught; Dword 0 bit 0 of the Abort says whether it was. [DEDUCED: log 48] -/
def Dev.abortCmd (d : Dev) (h : NvHdr) (sqid target : Nat) : Dev :=
  match d.ctrl? h.ctrl with
  | none => d
  | some c =>
    let d := d.nvTake h 0x08 true
    if 4 ≤ c.abortsOut then d.nvDone h nvAbortLimit
    else if d.catchable h.ctrl sqid target then
      let d := (d.forget h.ctrl sqid target).nvDone { ctrl := h.ctrl, sq := sqid, cid := target, nsid := 0 } nvAborted
      (d.bump F.NVQ_aborts_caught).nvDone h nvOk 0
    else ((d.bump F.NVQ_aborts_missed).event 8 .abortMissed [sqid, target]).nvDone h nvOk 1

end Sys2Proof.Machine
end

