-- ==== Sys2Proof/Machine/Cairns.lean ====
section
/-! DEFINITION. Cairns (R296 to R308): placement by byte count, command and timer, close with overlaps, ownership (R180 to R183),
entries and digests, retained Cairns. -/
namespace Sys2Proof.Machine

/-! ### Placement (R296, R297, R299, R42) -/

/-- The streams of a namespace. -/
def Dev.streamsOf (d : Dev) (nsid : Nat) : List StreamRec := (d.imgFor nsid).stream.filter (fun s => s.nsid == nsid)

/-- The first sequence at which the octets written since the position reach a limit (R297). -/
def markOf (most : Nat) : List (Nat × Nat) → Nat → Option Nat
  | [], _ => none
  | (q, n) :: t, acc => if most ≤ acc + n then some q else markOf most t (acc + n)

/-- A byte-count stream's mark, where it has reached it. -/
def Dev.mark (d : Dev) (nsid : Nat) (s : StreamRec) : Option Nat := markOf s.cairnMaxBytes (Tab.getD (d.ns nsid).log s.streamId []) 0

/-- Retained Cairns of the array (R307): this head's and the peer's. -/
def Dev.retainedAll (d : Dev) : Nat := (d.snp.nss.map (fun e => e.2.retained.length)).sum + d.head.store.retained.length

/-- Cairns of a namespace that wait to be placed and then retained (R162). -/
def Ns.toRetain (x : Ns) : Nat := (x.waiting.filter (·.retain)).length

/-- A retention of one more Cairn in a namespace would pass a limit (R162, R307), those asked for and not placed yet counted. -/
def Dev.retainFull (d : Dev) (nsid : Nat) : Bool :=
  decide (4096 ≤ (d.ns nsid).retained.length + (d.ns nsid).toRetain) ||
    decide (16384 ≤ d.retainedAll + (d.snp.nss.map (fun e => e.2.toRetain)).sum)

/-- Open-epoch state as the peer keeps it (R249). -/
def Dev.cairnMirror (d : Dev) (nsid : Nat) : CairnMirror :=
  let x := d.ns nsid
  { nsid := nsid, closed := x.closed, digest := x.digest, placed := x.placed.map (fun p => (p.num, p.pos)), heads := x.heads
    kcv := (d.pool (d.poolOf nsid)).kcv, rkcv := (d.pool (d.poolOf nsid)).rkcv }

/-- The retained list as the peer keeps it (R249, R308). -/
def Dev.retainedList (d : Dev) : List (Nat × Nat) := d.snp.nss.flatMap (fun e => e.2.retained.map (fun k => (e.1, k)))

/-- The setting the next epoch is coded in follows the request (R42): Seal is taken up only with keys, and kept without them. [DEDUCED: log 49] -/
def Dev.codeNext (d : Dev) (nsid : Nat) : Dev :=
  let opts (b : Nat) : Bool := ((d.imgFor nsid).ns? nsid).any (fun n => tb n.nsFlags b)
  d.onNs nsid (fun x => { x with
    codeReduce := d.on F.SYS_MODE_REQ_reduce && (opts 0 || (d.streamsOf nsid).any (fun s => tb s.stFlags 0))
    codeSeal := d.on F.SYS_MODE_REQ_seal && opts 1 && (d.keysUsable || x.codeSeal || d.mode 3) })

/-- The peer is told of the retained list (R249, R308). -/
def Dev.sayRetained (d : Dev) : Dev := d.mirrorState (.retained d.retainedList)

/-- Place the oldest waiting Cairn of a namespace, while fewer than 16 stand open (R299): it takes the next number, keeps the setting its
epoch is coded in, and a Place Cairn that does not wait for the close completes. A change of Reduce or Seal asked for before the placement
applies to the epoch after it (R42). [DEDUCED: log 49] -/
def Dev.placeOne (d : Dev) (nsid : Nat) : Dev :=
  let x := d.ns nsid
  match x.waiting with
  | [] => d
  | p :: rest =>
    if 16 ≤ x.placed.length then d else
    let n := x.placedNum + 1
    let d := d.onNs nsid (fun x => { x with
      placedNum := n, placed := x.placed ++ [{ p with num := n, reduce := x.codeReduce, sealOn := x.codeSeal, before := ([], []) }], waiting := rest,
      retained := if p.retain then x.retained ++ [n] else x.retained })
    let d := d.codeNext nsid
    let d := d.bump F.SNP_cairns_placed
    let d := if p.byteCount then d.bump F.SNP_bytecount_cairns else if p.timer then d.bump F.SNP_timer_cairns else d
    let d := d.mirrorState (.cairn (d.cairnMirror nsid))
    let d := if p.retain then d.sayRetained else d
    let d := if d.mirroring then d.onNs nsid (fun x => { x with placed := x.placed.map (fun q =>
      if q.num = n then { q with sentAt := some d.head.txLseq } else q) }) else d
    match p.byCommand with
    | some (h, true) => d.onNv (fun v => { v with placeWaits := v.placeWaits ++ [(h, n)] })
    | some (h, false) => d.nvDone h nvOk (n % 2 ^ 32) (n / 2 ^ 32)
    | none => d

/-- Place every waiting Cairn there is room for. -/
def Dev.placeWaiting (d : Dev) (nsid : Nat) : Dev := (List.range (d.ns nsid).waiting.length).foldl (fun (d : Dev) _ => d.placeOne nsid) d

/-- A Cairn is asked for with its positions: every stream's count restarts, and it is placed or waits. [DEDUCED: log 49] -/
def Dev.askCairn (d : Dev) (nsid : Nat) (p : Placed) : Dev :=
  let d := d.onNs nsid (fun x => { x with
    pos := p.pos
    log := x.log.map (fun e => (e.1, if p.byteCount && Tab.getD p.pos e.1 0 == Tab.getD x.pos e.1 0 then [] else
      e.2.filter (fun w => decide (Tab.getD p.pos e.1 0 < w.1))))
    waiting := x.waiting ++ [{ p with before := (x.pos, x.log) }] })
  d.placeWaiting nsid

/-- Positions of a command or timer Cairn: the highest sequence assigned in each stream. -/
def Dev.headPos (d : Dev) (nsid : Nat) : Tab Nat := (d.ns nsid).heads

/-- BYTE_COUNT_CAIRN (R297): placed once every byte-count stream of the namespace has reached its mark. [DEDUCED: log 49] -/
def Dev.byteCount (d : Dev) (nsid : Nat) : Dev :=
  let l := (d.streamsOf nsid).filter (fun s => s.cairnMaxBytes != 0)
  let marks := l.map (fun s => (s.streamId, d.mark nsid s))
  if l.isEmpty || marks.any (fun m => m.2.isNone) || !(d.ns nsid).waiting.isEmpty || decide (16 ≤ (d.ns nsid).placed.length) then d
  else
    let pos := marks.foldl (fun (t : Tab Nat) m => Tab.put m.1 (m.2.getD 0) t) (d.ns nsid).pos
    d.askCairn nsid { num := 0, pos := pos, byteCount := true }

/-- Byte-count Cairns are placed, one after another while marks stand. -/
def Dev.byteCounts (d : Dev) : Dev :=
  (d.img.ns.map (·.nsid)).foldl (fun (d : Dev) n =>
    if d.owns (d.poolOf n) then (List.range (17 - (d.ns n).placed.length)).foldl (fun (d : Dev) _ => (d.placeWaiting n).byteCount n) d else d) d

/-- PLACE_CAIRN (R162). -/
def Dev.placeCairn (d : Dev) (h : NvHdr) (retain waitClose : Bool) : Dev :=
  let s := d.plainStatus h.nsid
  let s := if s ≠ nvOk then s else if retain && d.retainFull h.nsid then nvRetention else nvOk
  if s ≠ nvOk then d.nvAnswer h 0x80 false s
  else d.nvRun h 0x80 false (fun d =>
    d.askCairn h.nsid { num := 0, pos := d.headPos h.nsid, retain := retain, byCommand := some (h, waitClose) })

/-- TIMER_CAIRN (R297, R298): placed where the namespace permits timer Cairns and the stream has a time. -/
def Dev.timerCairn (d : Dev) (stream : Nat) : Dev :=
  match d.img.stream? stream with
  | none => d
  | some s =>
    let permitted := ((d.imgFor s.nsid).ns? s.nsid).any (fun n => tb n.nsFlags 3)
    if s.timerCairnMs = 0 ∨ !permitted ∨ !d.owns (d.poolOf s.nsid) then d
    else d.askCairn s.nsid { num := 0, pos := d.headPos s.nsid, timer := true }

/-! ### Conditions of a close (R299) -/

/-- The next close of a namespace is the activation point (R71), but the copy whose state word its switch step programs is still being
written to boot flash: the close is held until it is. [DEDUCED: log 53] -/
def Dev.copyAwaited (d : Dev) (nsid : Nat) : Bool :=
  let s := d.sim
  s.staged.isSome && s.live && s.waiting && !s.armed && !s.onFlash && s.sub.isNone && s.own.isNone &&
    (d.get F.SIM_ACT_NS_anchor_nsid == 0 || d.get F.SIM_ACT_NS_anchor_nsid == nsid)

/-- The oldest Cairn placed and not closed, where its close may begin: writes acknowledged, lookups finished, with Mirror in effect its
positions at the peer, and at an activation point the staged copy on flash. [DEDUCED: log 53] -/
def Dev.closable (d : Dev) (nsid : Nat) : Option Placed :=
  match (d.ns nsid).placed with
  | [] => none
  | p :: _ =>
    let open_ := List.any d.stg.writes (fun (e : Nat × WriteRec) => e.2.nsid == nsid && !e.2.acked && decide (e.2.seq ≤ Tab.getD p.pos e.2.stream 0))
    let waits := List.any d.stg.ingest (fun (e : Nat × Ingest) => !e.2.staged && e.2.nsid == nsid && inEpoch p.pos e.2.wid) ||
      List.any d.red.lookups (fun (e : Nat × Lookup) => e.2.nsid == nsid && inEpoch p.pos e.2.wid)
    let held := match p.sentAt with
      | some l => d.mode 1 && !decide ((d.head.acked + 2 ^ 32 - l) % 2 ^ 32 < 2 ^ 31)
      | none => false
    if open_ || waits || held || d.copyAwaited nsid then none else some p

/-! ### The close (R180 to R183, R300 to R302) -/

/-- Overlaps (R300): each block's version of the highest (stream, sequence). -/
def survivors (l : List EpochBlock) : Tab EpochBlock :=
  l.foldl (fun (t : Tab EpochBlock) b => match Tab.find? b.lba t with
    | some x => if identityLt x.wid b.wid then Tab.put b.lba b t else t
    | none => Tab.put b.lba b t) []

/-- The version of the lowest write identity. -/
def lowest : List EpochBlock → Option EpochBlock
  | [] => none
  | b :: t => match lowest t with
    | some x => if identityLt x.wid b.wid then some x else some b
    | none => some b

/-- Whether a version's slot is sealed. -/
def Dev.versionSealed (d : Dev) (pool : Nat) (b : EpochBlock) : Bool :=
  match b.entry.bind (fun e => Tab.find? e (d.pool pool).index) with
  | some e => e.isSealed
  | none => d.locSealed pool b.loc

/-- Replace the surviving versions of some blocks. [DEDUCED: log 52] -/
def putVersions (sv : Tab EpochBlock) (l : List EpochBlock) : Tab EpochBlock := l.foldl (fun (t : Tab EpochBlock) b => Tab.put b.lba b t) sv

/-- A version becomes a reference to an entry. -/
def Dev.asRef (d : Dev) (pool e : Nat) (loc : Loc) (b : EpochBlock) : EpochBlock :=
  { b with loc := .ref (d.locClass pool loc) e, entry := some e, deferred := false, alone := false }

/-- Change an index entry. -/
def Dev.onEntry (d : Dev) (pool e : Nat) (f : IndexEntry → IndexEntry) : Dev := d.onPool pool (fun p => { p with index := Tab.upd e f p.index })

/-- Whether a holder that came in for an epoch still open, or a record of an epoch still to land, rests on an entry. [DEDUCED: log 52] -/
def Dev.heldLater (d : Dev) (nsid e : Nat) : Bool :=
  let x := d.ns nsid
  let isRef (l : Loc) : Bool := match l with | .ref _ k => k == e | _ => false
  x.epoch.any (fun b => isRef b.loc || b.entry == some e) ||
  List.any d.stg.writes (fun (w : Nat × WriteRec) => w.2.nsid == nsid && w.2.vers.any (fun b => isRef b.loc || b.entry == some e)) ||
  (match x.landing with
    | some l => l.entries.any (fun y => isRef y.2) || l.closedEpochs.any (fun c => decide (x.closed < c.1) && c.2.2.any (fun y => isRef y.2))
    | none => false)

/-- Holders of a later epoch that rest on a collided entry keep the slot they were compared with, and stand alone (R183). [DEDUCED: log 52] -/
def Dev.standApart (d : Dev) (nsid e : Nat) (old : Loc) : Dev :=
  let isRef (l : Loc) : Bool := match l with | .ref _ k => k == e | _ => false
  let f (b : EpochBlock) : EpochBlock := if isRef b.loc then { b with loc := old, entry := none, alone := true } else b
  let d := d.onNs nsid (fun x => { x with epoch := x.epoch.map f, map := Tab.mapV (fun l => if isRef l then old else l) x.map })
  d.onStg (fun x => { x with writes := Tab.mapV (fun (w : WriteRec) => if w.nsid = nsid then { w with vers := w.vers.map f } else w) x.writes })

/-- Store a block again as one that stands alone (R183): a sealed slot is sealed under the nonce rule of an unreduced block; one that
cannot be sealed now stays as it is. [DEDUCED: log 58] -/
def Dev.storeAlone (d : Dev) (nsid : Nat) (b : EpochBlock) : EpochBlock × Dev :=
  let pool := d.poolOf nsid
  let alone (l : Loc) : EpochBlock := { b with loc := l, entry := none, alone := true }
  match d.locBytes pool b.loc with
  | some p => if d.locSealed pool b.loc && d.keysUsable then
      let w := d.stg.nextWrite
      let r := (d.onStg (fun s => { s with nextWrite := w + 1 })).stageBlock nsid b.lba b.wid w p none
      (alone (.staged r.1), r.2)
    else (alone b.loc, d)
  | none => (alone b.loc, d)

/-- Compare the deferred holders of a fingerprint with the slot they would reference (R183): an unequal one is stored alone, its entry is
marked collided and an event recorded. -/
def Dev.compareDeferred (d : Dev) (nsid : Nat) (entry : Option Nat) (ref : Loc) (sv : Tab EpochBlock) (l : List EpochBlock) :
    Tab EpochBlock × Dev :=
  let pool := d.poolOf nsid
  if !d.verifies nsid then (sv, d) else
  (l.filter (·.deferred)).foldl (fun (r : Tab EpochBlock × Dev) b =>
    let d := r.2.bump F.RED_verify_compares
    if d.agree pool b.loc ref then (r.1, d) else
    let d := (d.bump F.RED_verify_collisions).event 9 .lookupCollision [nsid, b.lba]
    let d := match entry with
      | some e => d.onEntry pool e (fun x => { x with collided := true })
      | none => d
    let y := d.storeAlone nsid b
    (Tab.put b.lba y.1 r.1, y.2)) (sv, d)

/-- Finalize one fingerprint of an epoch (R180, R183): deferred holders are compared, the surviving holders become references, ownership
settles on the lowest write identity, a pending entry without a survivor goes, and of a collided one the group with the lowest identity
keeps the entry. [DEDUCED: log 58] -/
def Dev.finalize (d : Dev) (nsid : Nat) (sv : Tab EpochBlock) (fp : Bytes) (sealed_ : Bool) : Tab EpochBlock × Dev :=
  let pool := d.poolOf nsid
  let holders (d : Dev) (sv : Tab EpochBlock) : List EpochBlock :=
    (sv.map (·.2)).filter (fun b => b.kind == 1 && b.content == fp && d.versionSealed pool b == sealed_)
  let joined (d : Dev) (sv : Tab EpochBlock) : List EpochBlock := (holders d sv).filter (fun b => !b.alone)
  match d.ownEntry nsid sealed_ fp with
  | some (e, x) =>
    let c := d.compareDeferred nsid (some e) x.loc sv (joined d sv)
    let sv := c.1
    let d := c.2
    let all := holders d sv
    if !x.pending then (putVersions sv ((joined d sv).map (d.asRef pool e x.loc)), d)
    else match lowest all with
      | none => (sv, if d.heldLater nsid e then d else d.onPool pool (fun p => { p with index := Tab.del e p.index }))
      | some low =>
        if low.alone then
          let same := (all.filter (·.alone)).filter (fun b => d.locBytes pool b.loc == d.locBytes pool low.loc)
          let old := x.loc
          let d := (d.standApart nsid e old).onEntry pool e (fun x => { x with loc := low.loc, owner := low.wid, pending := false, collided := true })
          (putVersions (putVersions sv ((joined d sv).map (fun b => { b with loc := old, entry := none, alone := true })))
            (same.map (d.asRef pool e low.loc)), d)
        else
          (putVersions sv ((joined d sv).map (d.asRef pool e x.loc)),
            d.onEntry pool e (fun x => { x with owner := low.wid, pending := false }))
  | none => match lowest (joined d sv) with
    | none => (sv, d)
    | some low =>
      let c := d.compareDeferred nsid none low.loc sv (joined d sv)
      let r := c.2.addEntry nsid low.wid fp sealed_ false low.loc
      let l := joined r.2 c.1
      let d := r.2.onEntry pool r.1 (fun x => { x with collided := l.length != (joined d sv).length })
      (putVersions c.1 (l.map (d.asRef pool r.1 low.loc)), d)

/-- Finalize every fingerprint of an epoch. -/
def Dev.finalizeAll (d : Dev) (nsid : Nat) (epoch : List EpochBlock) (sv : Tab EpochBlock) : Tab EpochBlock × Dev :=
  let pool := d.poolOf nsid
  let keys := ((epoch.filter (fun b => b.kind == 1)).map (fun b => (b.content, d.versionSealed pool b))).eraseDups
  keys.foldl (fun (r : Tab EpochBlock × Dev) k => r.2.finalize nsid r.1 k.1 k.2) (sv, d)

/-- Apply a namespace's pending releases (R181, R308). -/
def Ns.release (x : Ns) : Ns :=
  { x with retained := x.retained.filter (fun k => !x.releasing.contains k)
           retMaps := x.releasing.foldl (fun t k => Tab.del k t) x.retMaps
           retImages := x.releasing.foldl (fun t k => Tab.del k t) x.retImages
           retPages := x.releasing.foldl (fun t k => Tab.del k t) x.retPages
           releasing := [] }

/-- Apply a namespace's pending releases, and tell the peer of the retained list (R249). -/
def Dev.applyReleases (d : Dev) (nsid : Nat) : Dev :=
  if (d.ns nsid).releasing.isEmpty then d else (d.onNs nsid Ns.release).sayRetained

/-- The block versions that reference an entry (R181), each once: content at the latest close and at retained Cairns. -/
def Ns.versionsOf (x : Ns) (e : Nat) : List (Nat × Option WriteId) :=
  let held (m : Tab Loc) (im : Tab ImageEntry) : List (Nat × Option WriteId) := m.filterMap (fun v => match v.2 with
    | .ref _ k => if k = e then some (v.1, (Tab.find? v.1 im).map (·.version)) else none
    | _ => none)
  (held x.closedMap x.image ++ x.retMaps.flatMap (fun r => held r.2 (Tab.getD x.retImages r.1 []))).eraseDups

/-- Counts are adjusted at the close, and an entry that nothing references is retired (R181). Where holders of a later epoch came in
before the close and rest on its slot, they start the new entry: it is pending again, and its owner is settled at their close. -/
def Dev.countRefs (d : Dev) (nsid : Nat) : Dev :=
  let pool := d.poolOf nsid
  let mine := List.filter (fun (e : Nat × IndexEntry) => e.2.nsid == nsid && !e.2.pending) (d.pool pool).index
  mine.foldl (fun (d : Dev) e =>
    let n := ((d.ns nsid).versionsOf e.1).length
    if n ≠ 0 then d.onEntry pool e.1 (fun x => { x with refs := n })
    else if d.heldLater nsid e.1 then d.onEntry pool e.1 (fun x => { x with refs := 0, pending := true, collided := false })
    else d.onPool pool (fun p => { p with index := Tab.del e.1 p.index })) d

/-- The entry of a surviving version (R301): a fingerprint's owner is its index entry's. -/
def Dev.entryOf (d : Dev) (nsid : Nat) (b : EpochBlock) : ImageEntry :=
  let pool := d.poolOf nsid
  let owner := if b.kind = 1 then
      (match b.loc with
        | .ref _ e => ((Tab.find? e (d.pool pool).index).map (·.owner)).getD b.wid
        | _ => ((d.ownEntry nsid (d.versionSealed pool b) b.content).map (fun e => e.2.owner)).getD b.wid)
    else b.wid
  { lba := b.lba, kind := b.kind, owner := owner, content := b.content, version := b.wid }

/-- An entry's 56 octets (R301). -/
def ImageEntry.bytes (e : ImageEntry) : Bytes :=
  leBytes 8 e.lba ++ leBytes 1 e.kind ++ [0] ++ leBytes 2 e.owner.stream ++ leBytes 4 e.owner.block ++ leBytes 8 e.owner.seq ++
    sliceZ e.content 0 32

/-- The chained digest (R302). -/
def chainDigest (prev : Bytes) (k : Nat) (es : List ImageEntry) : Bytes :=
  sha256 (prev ++ leBytes 8 k ++ leBytes 8 es.length ++ es.flatMap ImageEntry.bytes)

/-- The image digest (R302). -/
def imageDigest (k : Nat) (es : List ImageEntry) : Bytes := sha256 (leBytes 8 k ++ leBytes 8 es.length ++ es.flatMap ImageEntry.bytes)

/-- Digests kept: the newest 65,536 Cairns and the retained (R163). -/
def Ns.trimCairns (x : Ns) : Ns := { x with cairns := x.cairns.filter (fun e => decide (x.closed < e.1 + 65536) || x.retained.contains e.1) }

/-- The lowest Cairn from which a target may still need this namespace's epochs; none where no target takes them. -/
def Dev.neededFrom (d : Dev) (nsid : Nat) : Option Nat :=
  let l := (d.img.replTarget.filter (fun t => t.srcNsid == nsid && tb t.tgtFlags 0)).map (fun t =>
    (((Tab.find? t.targetId d.snp.cars).map (·.lastCairn)).getD 0))
  match l with
  | [] => none
  | a :: t => some (t.foldl min a)

/-- Epochs no target needs are let go. [DEDUCED: log 50] -/
def Dev.trimEpochs (d : Dev) (nsid : Nat) : Dev :=
  match d.neededFrom nsid with
  | none => d.onNs nsid (fun x => { x with epochOf := [], epochMaps := [] })
  | some k => d.onNs nsid (fun x => { x with epochOf := x.epochOf.filter (fun e => decide (k < e.1)), epochMaps := x.epochMaps.filter (fun e => decide (k < e.1)) })

/-- The check values of the first share accepted go into the pool's metadata at a Cairn, where it holds none (R203). -/
def Dev.noteCheckValues (d : Dev) (pool : Nat) : Dev :=
  d.onPool pool (fun q => { q with kcv := q.kcv <|> d.cip.recordedKcv, rkcv := q.rkcv <|> d.cip.recordedRkcv })

/-- Write down a Cairn that closes with some entries and their places: image, maps, digest, record (R163, R299 steps 3 to 5). -/
def Dev.recordCairn (d : Dev) (nsid k : Nat) (es : List ImageEntry) (sv : Tab Loc) (rec_ : CairnRec) (retain : Bool) : Dev :=
  let pool := d.poolOf nsid
  let p := d.pool pool
  let d := d.onNs nsid (fun x =>
    let cm := List.foldl (fun (t : Tab Loc) (e : Nat × Loc) => Tab.put e.1 e.2 t) x.closedMap sv
    let im := es.foldl (fun (t : Tab ImageEntry) e => Tab.put e.lba e t) x.image
    { x with closed := k, placedNum := max x.placedNum k, digest := rec_.digest, cairns := Tab.put k rec_ x.cairns, closedMap := cm, image := im
             epochOf := Tab.put k es x.epochOf, epochMaps := Tab.put k (Tab.mapV p.resolve sv) x.epochMaps
             retMaps := if retain then Tab.put k cm x.retMaps else x.retMaps
             retImages := if retain then Tab.put k im x.retImages else x.retImages }.trimCairns)
  let d := (((d.trimEpochs nsid).countRefs nsid).noteCheckValues pool).writeBackPool pool
  let d := if retain then d.onNs nsid (fun x => { x with retPages := Tab.put k x.pages x.retPages }) else d
  d.bump F.SNP_cairns_closed

/-- The tracked offsets of a pool's dies are saved with its metadata (R342). -/
def Dev.saveOffsets (d : Dev) (pool : Nat) : Dev :=
  match d.img.pool? pool with
  | none => d
  | some p =>
    let of_ (m : Nat) : Tab Int := ((d.laneOf (memberMod m)).map (fun l => (d.die l (memberDie m)).offsets)).getD []
    let put (t : Tab (Tab Int)) (m : Nat) : Tab (Tab Int) :=
      if (of_ m).isEmpty then t else Tab.put (dieKey (memberMod m) (memberDie m)) (of_ m) t
    d.onPool pool (fun q => { q with offsets := p.members.foldl put q.offsets })

/-- What waits on a close beside the image: Place Cairn commands and the frame index copy (R92, R162, R299). -/
def Dev.afterClose (d : Dev) (nsid k : Nat) : Dev :=
  let l := d.nv.placeWaits.filter (fun w => w.1.nsid == nsid && w.2 == k)
  let d := d.onNv (fun v => { v with placeWaits := v.placeWaits.filter (fun w => !(w.1.nsid == nsid && w.2 == k)) })
  let d := l.foldl (fun (d : Dev) w => d.nvDone w.1 nvOk (k % 2 ^ 32) (k / 2 ^ 32)) d
  let d := d.saveOffsets (d.poolOf nsid)
  let chans := (List.range 8).filter (fun c => (d.chanRec c).any (fun r => (d.img.window? r.windowId).any (fun w => w.nsid == nsid)))
  let d := chans.foldl Dev.copyIndex d
  (d.mirrorState (.cairn (d.cairnMirror nsid))).placeWaiting nsid

/-- A Cairn closes (R299): overlaps, ownership and releases, entries, digest, record, and what waits on it. -/
def Dev.closeCairn (d : Dev) (nsid : Nat) (p : Placed) : Dev :=
  let x := d.ns nsid
  let epoch := x.epoch.filter (fun b => inEpoch p.pos b.wid)
  let rest := x.epoch.filter (fun b => !inEpoch p.pos b.wid)
  let r := (d.onNs nsid (fun x => { x with epoch := rest })).finalizeAll nsid epoch (survivors epoch)
  let sv := r.1
  let show_ (x : Ns) (e : Nat × EpochBlock) : Ns := if rest.any (fun b => b.lba == e.1) then x else x.showLoc e.1 e.2.loc
  let d := (r.2.onNs nsid (fun x => List.foldl show_ { x with placed := x.placed.drop 1, outside := x.outside || p.timer } sv)).applyReleases nsid
  let d := sv.foldl (fun (d : Dev) e => match e.2.loc with
    | .ref _ _ => d.mirrorState (.delta { pool := d.poolOf nsid, stripeSeq := 0, nsid := nsid, lba := e.1, loc := e.2.loc, wid := e.2.wid })
    | _ => d) d
  let es := sv.map (fun e => d.entryOf nsid e.2)
  let y := d.ns nsid
  let rec_ : CairnRec := { digest := chainDigest y.digest p.num es, generation := y.epochGen, closeNs := d.now,
                           flags := b2n y.outside + 2 * b2n (y.retained.contains p.num), fwMajor := d.get F.SYS_FW_major, pos := p.pos }
  let d := d.recordCairn nsid p.num es (Tab.mapV (fun (b : EpochBlock) => b.loc) sv) rec_ (y.retained.contains p.num)
  (d.afterClose nsid p.num).trace 7 15 (d.poolOf nsid) [nsid, p.num]

/-! ### Read Epoch Digest, retention (R163, R307, R308) -/

/-- A Cairn that the other head closed, still kept (R163), whose record this head has not: what the record says is open to it.
[DESIGN CHOICE: log 66] -/
def Dev.foreignCairn (d : Dev) (nsid k : Nat) : Dev :=
  let x := d.ns nsid
  let kept := x.foreign && !Tab.has k x.cairns && decide (0 < k) && decide (k ≤ x.closed) &&
    (decide (x.closed < k + 65536) || x.retained.contains k)
  if !kept then d else
  let v := d.fresh.1
  let r : CairnRec := { digest := leBytes 32 v, generation := v / 2 ^ 256 % 2 ^ 64, closeNs := v / 2 ^ 320 % 2 ^ 64, flags := v / 2 ^ 384 % 2,
                        fwMajor := v / 2 ^ 385 % 2 ^ 16, pos := [] }
  d.fresh.2.onNs nsid (fun x => { x with cairns := Tab.put k r x.cairns })

/-- READ_EPOCH_DIGEST (R163). -/
def Dev.readDigest (d : Dev) (h : NvHdr) (cairn : Nat) (latest : Bool) (buf : NvBuf) : Dev :=
  let k := if latest then (d.ns h.nsid).closed else cairn
  if (d.img.ns? h.nsid).isNone then d.nvAnswer h 0xC2 true nvBadNs
  else
    let d := d.foreignCairn h.nsid k
    let x := d.ns h.nsid
    match Tab.find? k x.cairns with
    | none => d.nvAnswer h 0xC2 true nvNoCairn
    | some c =>
      if buf.len < 64 then d.nvAnswer h 0xC2 true (if h.ctrl = d.localId then nvBadField else nvSglLength)
      else
        let flags := bit c.flags 0 + 2 * b2n (x.retained.contains k)
        d.nvReply h 0xC2 buf (leBytes 8 k ++ sliceZ c.digest 0 32 ++ leBytes 8 c.generation ++ leBytes 8 c.closeNs ++ leBytes 4 flags ++
          leBytes 2 c.fwMajor ++ [0, 0])

/-- SNP_RETAIN (R307): the latest closed Cairn, within the limits. -/
def Dev.snpRetain (d : Dev) : Dev :=
  let n := d.get F.SNP_NS_SEL_nsid
  let k := d.get F.SNP_RET_CAIRN_cairn
  let x := d.ns n
  if x.retained.contains k && !x.releasing.contains k then d.set F.SNP_RET_CTL_result 1
  else if k = 0 ∨ k ≠ x.closed ∨ !d.owns (d.poolOf n) then d.set F.SNP_RET_CTL_result 3
  else if d.retainFull n then d.set F.SNP_RET_CTL_result 2
  else
    let d := d.onNs n (fun x => { x with retained := x.retained.filter (· != k) ++ [k], releasing := x.releasing.filter (· != k),
                                         retMaps := Tab.put k x.closedMap x.retMaps, retImages := Tab.put k x.image x.retImages
                                         retPages := Tab.put k x.pages x.retPages })
    d.sayRetained.set F.SNP_RET_CTL_result 1

/-- A Cairn is the base or end of a Caravan in progress, or the base kept for the next one. -/
def Dev.heldByCaravan (d : Dev) (nsid k : Nat) : Bool :=
  d.snp.cars.any (fun e => (d.img.replTarget.any (fun t => t.targetId == e.1 && t.srcNsid == nsid)) &&
    e.2.state != .idle && e.2.state != .refused && (e.2.base == k || e.2.end_ == k))

/-- Release a Cairn at the namespace's next close. -/
def Ns.letGo (x : Ns) (k : Nat) : Ns := if x.retained.contains k && !x.releasing.contains k then { x with releasing := x.releasing ++ [k] } else x

/-- SNP_RELEASE (R308): at the next close, unless a Caravan holds it. -/
def Dev.snpRelease (d : Dev) : Dev :=
  let n := d.get F.SNP_NS_SEL_nsid
  let k := d.get F.SNP_RET_CAIRN_cairn
  if !(d.ns n).retained.contains k then d.set F.SNP_RET_CTL_result 3
  else if d.heldByCaravan n k then d.set F.SNP_RET_CTL_result 4
  else (d.onNs n (fun x => x.letGo k)).set F.SNP_RET_CTL_result 1

end Sys2Proof.Machine
end

