-- ==== Sys2Proof/Machine/Caravans.lean ====
section
/-! DEFINITION. Caravans (R309 to R314, R210): records of a source namespace and how they are sent, confirmed and given up; landing at
the target. -/
namespace Sys2Proof.Machine

/-! ### Source: content at a Cairn -/

/-- The device ID (R309). -/
def Dev.deviceId (d : Dev) : Nat := d.img.arrayId % 4096 * 2 + d.headNo

/-- A target's state. -/
def Dev.car (d : Dev) (t : Nat) : Caravan := Tab.getD d.snp.cars t {}
/-- Change a target's state. -/
def Dev.onCar (d : Dev) (t : Nat) (f : Caravan → Caravan) : Dev := { d with snp := { d.snp with cars := Tab.updD t {} f d.snp.cars } }

/-- Lay the epochs b + 1 to e over a content, where all of them are still held. -/
def overEpochs {α : Type} (base : Tab α) (eps : Tab (Tab α)) (b e : Nat) : Option (Tab α) :=
  (List.range (e - b)).foldl (fun (a : Option (Tab α)) i => a.bind (fun t => (Tab.find? (b + 1 + i) eps).map (fun ep =>
    List.foldl (fun (u : Tab α) (x : Nat × α) => Tab.put x.1 x.2 u) t ep))) (some base)

/-- The places of a namespace's content at a closed Cairn, where they are still held. -/
def Ns.mapAt (x : Ns) (e : Nat) : Option (Tab Loc) :=
  if e = x.closed then some x.closedMap
  else match Tab.find? e x.retMaps with
    | some m => some m
    | none =>
      match (x.retMaps.filter (fun r => decide (r.1 < e))).getLast? with
      | some r => overEpochs r.2 x.epochMaps r.1 e
      | none => overEpochs [] x.epochMaps 0 e

/-- The content image of a namespace at a closed Cairn. -/
def Ns.imageAt (x : Ns) (e : Nat) : Option (Tab ImageEntry) :=
  if e = x.closed then some x.image
  else match Tab.find? e x.retImages with
    | some m => some m
    | none =>
      let eps := Tab.mapV (fun (l : List ImageEntry) => l.map (fun (y : ImageEntry) => (y.lba, y))) x.epochOf
      match (x.retImages.filter (fun r => decide (r.1 < e))).getLast? with
      | some r => overEpochs r.2 eps r.1 e
      | none => overEpochs [] eps 0 e

/-! ### Source: records (R311) -/

/-- A record: type, flags, body, and whether it stands for a lost block. -/
structure CarRec where
  typ : Nat
  flags : Nat := 0
  body : Bytes
  lost : Bool := false
  deriving DecidableEq, Repr

/-- Descriptor, slot image and content behind a location. -/
def Dev.locSlot (d : Dev) (pool : Nat) (l : Loc) : Option (Desc × Bytes × Bytes) :=
  match (d.pool pool).resolve l with
  | .staged n => (Tab.find? n d.stg.slots).map (fun s => (s.desc, s.image, s.plain))
  | .stored _ m s _ x => ((d.pool pool).slotAt m s x).map (fun t => (t.desc, t.image, t.plain))
  | _ => none

/-- A slot in the clear, as a record carries it: sealed 0, key label 0, tag 0. -/
def clearSlot (x : Desc × Bytes × Bytes) : Desc × Bytes :=
  let c := descCls x.1
  let desc : Desc := { crc := x.1.crc, ctl := c + 16 * bits x.1.ctl 7 4, codecVer := x.1.codecVer, keyLabel := 0, tag := [] }
  if descSealed x.1 then
    (desc, (slotOf (if c < 4 then some (compressBlock x.1.codecVer (bits x.1.ctl 7 4) x.2.2) else none) x.2.2).2)
  else (desc, x.2.1)

/-- The descriptor of a class 0 block, where one has to be given (R174). -/
def zeroDesc : Desc := { crc := crc32c (zeros 4096) }

/-- The body of an OPEN record (R311). -/
def openBody (src : Nat) (full : Bool) (base end_ : Nat) (digest : Bytes) : Bytes :=
  beBytes 2 src ++ beBytes 2 (b2n full) ++ zeros 4 ++ beBytes 8 base ++ beBytes 8 end_ ++ sliceZ digest 0 32
/-- The body of an EPOCH or a CLOSE record: two numbers. -/
def pairBody (a b : Nat) : Bytes := beBytes 8 a ++ beBytes 8 b
/-- The body of a BLOCK record. -/
def blockBody (e : ImageEntry) (x : Desc) (image : Bytes) : Bytes := e.bytes ++ descBytes x ++ image
/-- The body of an EPOCH_END or IMAGE_END record. -/
def endBody (k : Nat) (digests : Bytes) : Bytes := beBytes 8 k ++ digests

/-- One BLOCK record of an entry; `sent` are the owners whose slots have gone already. Of a block that the other head placed neither the
content nor its coding is known here. [DESIGN CHOICE: log 66] -/
def Dev.blockRec (d : Dev) (pool : Nat) (e : ImageEntry) (l : Loc) (sent : List WriteId) : CarRec :=
  if e.kind = 0 then { typ := 3, body := blockBody e zeroDesc [] }
  else
    let x : Option (Desc × Bytes) := if (d.pool pool).resolve l = .foreign then
        let p := leBytes 4096 (Config.freeNat (d.free + e.lba))
        some ({ crc := crc32c p, ctl := 4 }, p)
      else (d.locSlot pool l).map clearSlot
    match x with
    | none => { typ := 3, body := blockBody e { ctl := 7 } [], lost := true }
    | some x => if e.kind = 1 ∧ sent.contains e.owner then { typ := 3, flags := 1, body := blockBody e x.1 [] }
      else { typ := 3, body := blockBody e x.1 x.2 }

/-- BLOCK records of some entries, with the owners sent after them. -/
def Dev.blockRecs (d : Dev) (pool : Nat) (m : Tab Loc) : List ImageEntry → List WriteId → List CarRec × List WriteId
  | [], sent => ([], sent)
  | e :: t, sent =>
    let r := d.blockRec pool e (Tab.getD m e.lba .lost) sent
    let u := d.blockRecs pool m t (if e.kind = 1 ∧ r.flags = 0 ∧ !r.lost then e.owner :: sent else sent)
    (r :: u.1, u.2)

/-- The records of a chained Caravan's epochs. -/
def Dev.epochRecs (d : Dev) (pool : Nat) (x : Ns) : List Nat → List WriteId → List CarRec
  | [], _ => []
  | k :: t, sent =>
    let es := (Tab.find? k x.epochOf).getD []
    let r := d.blockRecs pool ((Tab.find? k x.epochMaps).getD []) es sent
    let dk := ((Tab.find? k x.cairns).map (·.digest)).getD []
    { typ := 2, body := pairBody k es.length } :: (r.1 ++ { typ := 4, body := endBody k (sliceZ dk 0 32) } ::
      d.epochRecs pool x t r.2)

/-- Every record of a target's Caravan, in order. [DEDUCED: log 50] -/
def Dev.caravanRecs (d : Dev) (c : Caravan) : List CarRec :=
  match c.tgt with
  | none => []
  | some t =>
    let x := d.ns t.srcNsid
    let pool := d.poolOf t.srcNsid
    let digest (k : Nat) : Bytes := ((Tab.find? k x.cairns).map (·.digest)).getD (zeros 32)
    let head : CarRec := { typ := 1, body := openBody t.srcNsid c.full c.base c.end_ (if c.full then [] else digest c.base) }
    let body := if c.full then
        let es := ((x.imageAt c.end_).getD []).map (·.2)
        let fin : CarRec := { typ := 5, body := endBody c.end_ (imageDigest c.end_ es ++ sliceZ (digest c.end_) 0 32) }
        (d.blockRecs pool ((x.mapAt c.end_).getD []) es []).1 ++ [fin]
      else
        let landed := (((x.imageAt c.base).getD []).map (·.2)).filterMap (fun e => if e.kind = 1 then some e.owner else none)
        d.epochRecs pool x ((List.range (c.end_ - c.base)).map (c.base + 1 + ·)) landed
    let l := head :: body
    l ++ [{ typ := 6, body := pairBody (l.length + 1) c.end_ }]

/-- The key label octets record of a Caravan (R210): the target's label, or the namespace's where that is 0. -/
def Dev.carLabel (d : Dev) (t : ReplTargetRec) : KeyLabelRec := d.label (if t.keyLabel = 0 then d.labelOf t.srcNsid else t.keyLabel)

/-- The context of a Caravan's key (R205). -/
def caravanCtx (l : KeyLabelRec) (srcDevice caravan : Nat) : Bytes := l.label ++ beBytes 2 srcDevice ++ beBytes 8 caravan

/-- MSL-CARAVAN (R205). -/
def caravanKey (m : Bytes) (l : KeyLabelRec) (srcDevice caravan : Nat) : Bytes := kdf m "MSL-CARAVAN" (caravanCtx l srcDevice caravan) l.bitsOf

/-- The key of a target's Caravan (R210): derived at its first record, and held to its end, so that a share whose M is all zeros holds
Caravans at their boundary (R203). -/
def Dev.carKey (d : Dev) (t : Nat) : Option (Bytes × Dev) :=
  let c := d.car t
  match Tab.find? t d.cip.carKeys, c.tgt, d.cip.master with
  | some k, _, _ => some (k, d)
  | none, some r, some m =>
    let l := d.carLabel r
    let k := caravanKey m l c.srcDevice c.num
    some (k, (d.useKey (caravanCtx l c.srcDevice c.num) (asc "MSL-CARAVAN") k).onCip (fun x => { x with carKeys := Tab.put t k x.carKeys }))
  | _, _, _ => none

/-- A record as it is sent (R210, R311): header, body sealed or in the clear, tag. -/
def sealRecord (key : Bytes) (sealOn : Bool) (caravan index : Nat) (r : CarRec) : Bytes :=
  let hdr := beBytes 1 r.typ ++ beBytes 1 r.flags ++ [0, 0] ++ beBytes 4 r.body.length ++ beBytes 8 index ++ beBytes 8 caravan
  let nonce := zeros 4 ++ beBytes 8 index
  if sealOn then
    let x := gcmEnc key nonce hdr r.body
    hdr ++ x.1 ++ x.2
  else
    let x := gcmEnc key nonce (hdr ++ r.body) []
    hdr ++ r.body ++ x.2

/-! ### Source: opening, connecting, sending (R310, R313, R314) -/

/-- Connect to a target: a queue pair of the head's own and a REQ with the Caravan's private data (R103, R310). -/
def Dev.carConnect (d : Dev) (t : Nat) : Dev :=
  let c := d.car t
  match c.tgt, d.freeQpn with
  | some r, some n =>
    let q : Qp := { state := .init, use := .caravanOut, peerAddr := r.address, peerQpn := 1 }
    let d := ((d.onNet (fun y => { y with qps := Tab.put n q y.qps })).cacheQp n).trace 3 7 (n % 65536) [n, q.state.code]
    let priv := beBytes 2 0x4D43 ++ [b8 1, b8 (b2n c.sealOn)] ++ beBytes 2 c.srcDevice ++ beBytes 2 r.deviceId ++ beBytes 2 r.dstNsid ++
      [0, 0] ++ beBytes 8 c.num ++ beBytes 4 (d.get F.CIP_RKCV_kcv % 2 ^ 32)
    (d.onCar t (fun c => { c with state := .connecting, qpn := n })).emit (.cmReq n r.address priv)
  | _, _ => d

/-- The end of the next Caravan (R313): the latest closed Cairn, capped; where the capped Cairn's content is no longer held, the
latest. [DEDUCED: log 50] -/
def Dev.nextEnd (d : Dev) (x : Ns) (last : Nat) : Nat :=
  let e := min x.closed (last + d.get F.SNP_CTL_car_max_epochs)
  if (x.mapAt e).isSome && (x.imageAt e).isSome then e else x.closed

/-- CARAVAN_OPENS (R313): with Replicate in effect and a closed Cairn above the target's latest. The end is retained. -/
def Dev.caravanOpens (d : Dev) (t : Nat) : Dev :=
  match d.img.replTarget.find? (fun r => r.targetId == t) with
  | none => d
  | some r =>
    let c := d.car t
    let x := d.ns r.srcNsid
    if !d.mode 5 || !d.on F.SYS_MODE_REQ_replicate || !tb r.tgtFlags 0 || c.state != .idle || !d.owns (d.poolOf r.srcNsid) ||
        decide (x.closed ≤ c.lastCairn) || d.cip.master.isNone then d
    else
      let e := d.nextEnd x c.lastCairn
      let full := decide (c.lastCairn = 0) || c.makeFull || !x.retained.contains c.lastCairn
      if !x.retained.contains e && d.retainFull r.srcNsid then d else
      let d := d.onNs r.srcNsid (fun x => { x with
        retained := if x.retained.contains e then x.retained else x.retained ++ [e]
        releasing := x.releasing.filter (· != e)
        retMaps := Tab.put e ((x.mapAt e).getD []) x.retMaps
        retImages := Tab.put e ((x.imageAt e).getD []) x.retImages
        retPages := if e = x.closed then Tab.put e x.pages x.retPages else x.retPages })
      let d := d.sayRetained
      let n := d.snp.nextCaravan
      let d : Dev := { d with snp := { d.snp with nextCaravan := n + 1 } }
      let d := d.onCar t (fun c => { c with num := n, base := if full then 0 else c.lastCairn, end_ := e, full := full, makeFull := false,
                                            err := 0, confirmed := 0, sent := 0, attempts := 0, srcDevice := d.deviceId, tgt := some r,
                                            sealOn := d.mode 3 })
      let d := d.onCar t (fun c => { c with total := (d.caravanRecs (d.car t)).length })
      d.carConnect t

/-- Send a Caravan's records from the next on: it stops before a lost block unless those are skipped, and waits while it has no key. -/
def Dev.carSend (d : Dev) (t : Nat) : Dev :=
  let c := d.car t
  if c.state != .shipping || (d.qp c.qpn).state != .rts || decide (c.total ≤ c.sent) || d.safetyClosed then d else
  match d.carKey t with
  | none => d
  | some (key, d) =>
    let recs := (d.caravanRecs c).drop c.sent
    let go := recs.takeWhile (fun x => !x.lost || c.skipLost)
    let d := (go.zipIdx).foldl (fun (d : Dev) x =>
      let b := sealRecord key c.sealOn c.num (c.sent + x.2) x.1
      (d.sendMsg c.qpn b).bump F.SNP_caravan_bytes b.length) d
    let d := d.onCar t (fun c => { c with sent := c.sent + go.length })
    if go.length < recs.length then (d.onCar t (fun c => { c with state := .stopped })).event 15 .caravanStopped [t] else d

/-- CM_REP (R103, R310): a Caravan's connection moves to RTR and, with the RTU, on to RTS; sending begins at resume_at. -/
def Dev.cmRep (d : Dev) (q peerQpn psn : Nat) (priv : Bytes) : Dev :=
  let x := d.qp q
  if x.state != .init || x.use != .caravanOut then d else
  let d := (d.qpTo q .rts).onQp q (fun x => { x with peerQpn := peerQpn, epsn := psn % 2 ^ 24, msgBase := psn % 2 ^ 24 })
  let d := d.emit (.cmRtu q)
  match List.find? (fun (e : Nat × Caravan) => e.2.qpn == q && e.2.state == .connecting) d.snp.cars with
  | none => d
  | some e =>
    let at_ := beAt priv 8 8
    (d.onCar e.1 (fun c => { c with state := .shipping, sent := at_, confirmed := at_ - 1 })).carSend e.1

/-- A Caravan ends without landing (R314): its end is let go and the target waits for a restart. -/
def Dev.carRefused (d : Dev) (t err : Nat) : Dev :=
  let c := d.car t
  let d := match c.tgt with
    | some r => d.onNs r.srcNsid (fun x => x.letGo c.end_)
    | none => d
  let d := d.onCip (fun x => { x with carKeys := Tab.del t x.carKeys })
  (d.onCar t (fun c => { c with state := .refused, err := err })).event 15 .caravanRefused [t, err]

/-- CM_REJ (R310, R314): the REQ of a Caravan is refused with its code; of another connection it ends the queue pair. -/
def Dev.cmRej (d : Dev) (q code : Nat) : Dev :=
  let x := d.qp q
  if x.state != .init then d else
  let d := d.onNet (fun y => { y with qps := Tab.del q y.qps, quarantine := Tab.put q (d.pow.aon + 10 ^ 9) y.quarantine })
  match List.find? (fun (e : Nat × Caravan) => e.2.qpn == q && e.2.state == .connecting) d.snp.cars with
  | some e => d.carRefused e.1 code
  | none => d

/-- The Caravan has landed: b is let go, e is the next base (R313); a target removed meanwhile goes (R314). -/
def Dev.carLanded (d : Dev) (t : Nat) : Dev :=
  let c := d.car t
  let d := match c.tgt with
    | some r => if c.base = 0 then d else d.onNs r.srcNsid (fun x => x.letGo c.base)
    | none => d
  let d := ((d.disconnect c.qpn).bump F.SNP_caravans_shipped).onCip (fun x => { x with carKeys := Tab.del t x.carKeys })
  let d := if c.removed then { d with snp := { d.snp with cars := Tab.del t d.snp.cars } }
    else d.onCar t (fun c => { c with state := .idle, lastCairn := c.end_, base := c.end_, skipLost := false, qpn := 0 })
  d.mirrorState (.caravan { target := t, caravan := c.num, base := c.base, end_ := c.end_, full := c.full, record := c.total, srcDevice := c.srcDevice })

/-- CARAVAN_CONFIRMATION (R312, R314): the confirmed index rises, to the end at CLOSE. A failing tag or digest is sent again once, and
then the Caravan is abandoned. -/
def Dev.carConfirmed (d : Dev) (t index : Nat) (refused : Option Nat) : Dev :=
  let c := d.car t
  if c.state != .shipping && c.state != .stopped then d else
  match refused with
  | some code =>
    let d := if code = 21 then (d.bump F.SNP_digest_mismatches).event 15 .digestMismatch [t] else d
    if c.attempts = 0 then (d.onCar t (fun c => { c with attempts := 1, sent := index, state := .shipping })).carSend t
    else (d.disconnect c.qpn).carRefused t code
  | none =>
    let d := d.onCar t (fun c => { c with confirmed := max c.confirmed index })
    if c.total ≤ index + 1 then d.carLanded t else d

/-- CARAVAN_RECONNECT_TIMER (R314): a lost connection is made again with the same Caravan number. -/
def Dev.carReconnect (d : Dev) (t : Nat) : Dev :=
  if (d.car t).state != .waiting then d else ((d.bump F.SNP_caravan_reconnects).event 15 .caravanRestarted [t]).carConnect t

/-- Caravans whose connection is lost wait to reconnect; those that ship go on (R216, R314). -/
def Dev.settleCars (d : Dev) : Dev :=
  (d.snp.cars.map (·.1)).foldl (fun (d : Dev) t =>
    let c := d.car t
    let dead := (d.qp c.qpn).state == .error || (d.qp c.qpn).state == .reset
    if (c.state == .connecting || c.state == .shipping || c.state == .stopped) && dead then d.onCar t (fun c => { c with state := .waiting })
    else d.carSend t) d

/-- SKIP_LOST (R314): a stopped Caravan ships its lost blocks with the slot omitted. -/
def Dev.skipLost (d : Dev) : Dev :=
  let t := d.get F.SNP_CAR_SEL_target
  if (d.car t).state == .stopped then (d.onCar t (fun c => { c with skipLost := true, state := .shipping })).carSend t else d

/-- CARAVAN_RESTART (R314): a refused or abandoned target leaves state 5. -/
def Dev.carRestart (d : Dev) : Dev :=
  let t := d.get F.SNP_CAR_SEL_target
  if (d.car t).state == .refused then d.onCar t (fun c => { c with state := .idle, err := 0, attempts := 0 }) else d

/-- CARAVAN_MAKE_FULL (R313). -/
def Dev.carFull (d : Dev) : Dev :=
  let t := d.get F.SNP_CAR_SEL_target
  if d.img.replTarget.any (fun r => r.targetId == t) then d.onCar t (fun c => { c with makeFull := true }) else d

/-! ### Target: connection (R310) -/

/-- Change the landing of a namespace. -/
def Dev.onLanding (d : Dev) (nsid : Nat) (f : Landing → Landing) : Dev := d.onNs nsid (fun x => { x with landing := x.landing.map f })

/-- Why a Caravan REQ is refused (R310); 0 where it is not. [DEDUCED: log 51] -/
def Dev.caravanRefusal (d : Dev) (srcDevice dstDevice nsid caravan rkcv : Nat) : Nat :=
  if dstDevice ≠ d.deviceId ∨ ((d.img.ns? nsid).isSome ∧ !d.owns (d.poolOf nsid)) then 16
  else if (d.img.ns? nsid).isNone ∨ !(d.streamsOf nsid).isEmpty then 17
  else if d.cip.master.isNone ∨ rkcv ≠ d.get F.CIP_RKCV_kcv % 2 ^ 32 then 18
  else match (d.ns nsid).landing with
    | some l => if l.srcDevice = srcDevice ∧ l.caravan = caravan then 0 else 19
    | none => 0

/-- CARAVAN_CONNECT (R310): accepted with resume_at and the latest landed Cairn, or refused. -/
def Dev.caravanReq (d : Dev) (r : CmReq) : Dev :=
  let p := r.priv
  let src := beAt p 4 2
  let nsid := beAt p 8 2
  let num := beAt p 12 8
  let code := if p.length < 24 ∨ beAt p 2 1 ≠ 1 ∨ r.uc then 16 else d.caravanRefusal src (beAt p 6 2) nsid num (beAt p 20 4)
  match d.freeQpn with
  | none => d.cmReject r 16
  | some n =>
    if code ≠ 0 then (d.cmReject r code) else
    let old := (d.ns nsid).landing
    let d := (old.map (fun l => d.disconnect l.qpn)).getD d
    let d := d.acceptQp n r .caravanIn [r.port] false false
    let l : Landing := match old with
      | some l => { l with qpn := n }
      | none => { qpn := n, srcDevice := src, caravan := num, sealedRecs := tb (beAt p 3 1) 0 }
    let d := d.onNs nsid (fun x => { x with landing := some l })
    let d := if old.isSome then d else d.onCip (fun x => { x with landKeys := Tab.del nsid x.landKeys })
    d.emit (.cmRep n (beBytes 2 0x4D43 ++ [b8 1, 0] ++ zeros 4 ++ beBytes 8 l.nextIndex ++ beBytes 8 (d.ns nsid).lastLanded))

/-- CM_REQ (R99, R100, R102, R310): by service port and magic; nothing is heard on a sub-port that the image does not enable.
[DESIGN CHOICE: log 119] -/
def Dev.cmReq (d : Dev) (r : CmReq) : Dev :=
  if !d.hasSubPort r.port then d
  else if r.service ≠ 4420 ∧ r.service ≠ 9400 then d.emit (.cmRej r.peerAddr 8 0)
  else if !(r.mtu == 1024 || r.mtu == 2048 || r.mtu == 4096) then d.emit (.cmRej r.peerAddr 26 0)
  else if r.service = 4420 then d.nvmeReq r
  else if beAt r.priv 0 2 = 0x4D43 ∧ 2 ≤ r.priv.length then d.caravanReq r
  else d.captureReq r

/-! ### Target: records (R311, R312) -/

/-- The namespace a Caravan lands in over a queue pair. -/
def Dev.landingOn (d : Dev) (q : Nat) : Option (Nat × Landing) :=
  d.snp.nss.findSome? (fun e => match e.2.landing with
    | some l => if l.qpn = q then some (e.1, l) else none
    | none => none)

/-- A landing is given up: nothing of it lands (R314). -/
def Dev.dropLanding (d : Dev) (nsid code : Nat) (l : Landing) : Dev :=
  let d := (d.emit (.confirmRecord l.qpn l.caravan l.nextIndex (some code))).event 15 .caravanRefused [nsid, code]
  let d := if code = 21 then d.bump F.SNP_digest_mismatches else d
  (d.disconnect l.qpn).onNs nsid (fun x => { x with landing := none })

/-- A record fails its check (R314): the connection is made again and records from an index on are sent again; at the second failure the
Caravan is abandoned. [DEDUCED: log 51, DEDUCED: log 91] -/
def Dev.recordFails (d : Dev) (nsid code from_ : Nat) (l : Landing) : Dev :=
  if l.failed ≠ 0 then d.dropLanding nsid code l
  else
    let again := decide (from_ ≤ l.epochStart)
    let d := d.onLanding nsid (fun l => { l with failed := 1, nextIndex := from_, entries := if again then [] else l.entries
                                                 omitted := l.omitted && !again })
    (d.emit (.confirmRecord l.qpn l.caravan from_ (some code))).disconnect l.qpn

/-- A record that cannot be taken now meets an RNR NAK: its sender sends it again (R369). [DEDUCED: log 91] -/
def Dev.recordNotReady (d : Dev) (q : Nat) : Dev := d.sendNak q (d.qp q).epsn (0x20 + d.get F.RDM_CTL_rnr_code)

/-- The key under which a record's tag holds (R210): that of the landing, or one derived from the head's own M for a key label of its
image. Which label the source's is, the connection does not say. [DESIGN CHOICE: log 122] -/
def Dev.recordKey (d : Dev) (nsid : Nat) (l : Landing) (index : Nat) (r : CarRec) (tag : Bytes) : Option (Bytes × Option KeyLabelRec) :=
  let keys := match Tab.find? nsid d.cip.landKeys, d.cip.master with
    | some k, _ => [(k, none)]
    | none, some m => d.img.keyLabel.map (fun x => (caravanKey m x l.srcDevice l.caravan, some x))
    | none, none => []
  keys.find? (fun k => (sealRecord k.1 l.sealedRecs l.caravan index r).drop (24 + r.body.length) == tag)

/-- The landing's key is held from the first record on. -/
def Dev.holdKey (d : Dev) (nsid : Nat) (l : Landing) (k : Bytes × Option KeyLabelRec) : Dev :=
  match k.2 with
  | none => d
  | some x => (d.useKey (caravanCtx x l.srcDevice l.caravan) (asc "MSL-CARAVAN") k.1).onCip
      (fun c => { c with landKeys := Tab.put nsid k.1 c.landKeys })

/-- Take a record in turn: only the next index, from a pool that lands Caravans (R369, R379), while its key can be had (R216), and only
where its tag holds (R210); `f` is its effect. -/
def Dev.takeRecord (d : Dev) (q index : Nat) (r : CarRec) (tag : Bytes) (f : Nat → Landing → Dev → Dev) : Dev :=
  match d.landingOn q with
  | none => d
  | some (nsid, l) =>
    let p := d.pool (d.poolOf nsid)
    if p.readOnly || p.landHeld || ((Tab.find? nsid d.cip.landKeys).isNone && d.cip.master.isNone) then d.recordNotReady q
    else if index ≠ l.nextIndex then d
    else match d.recordKey nsid l index r tag with
      | none => d.recordFails nsid 18 index l
      | some k => f nsid l ((d.holdKey nsid l k).onLanding nsid (fun l => { l with nextIndex := index + 1 }))

/-- CARAVAN_OPEN_RECORD (R310, R311): a chained Caravan must continue the latest landed Cairn. [DEDUCED: log 51] -/
def Dev.openRecord (d : Dev) (q : Nat) (r : CarOpen) : Dev :=
  d.takeRecord q r.index { typ := 1, body := openBody r.srcNsid r.full r.base r.end_ r.baseDigest } r.tag (fun nsid l d =>
    let x := d.ns nsid
    if !r.full && (r.base ≠ x.lastLanded || r.baseDigest ≠ x.digest) then d.dropLanding nsid 20 l
    else d.onLanding nsid (fun l => { l with open_ := true, full := r.full, base := r.base, end_ := r.end_,
                                             digest := if r.full then zeros 32 else r.baseDigest, entries := [], closedEpochs := [],
                                             epochStart := r.index + 1 }))

/-- EPOCH_RECORD (R311). -/
def Dev.epochRecord (d : Dev) (q : Nat) (r : CarEpoch) : Dev :=
  d.takeRecord q r.index { typ := 2, body := pairBody r.epoch r.count } r.tag (fun nsid _ d => d.onLanding nsid (fun l =>
    { l with epoch := r.epoch, expected := r.count, entries := [], epochStart := r.index, omitted := false }))

/-- The entry of a BLOCK record. -/
def carEntry (r : CarBlock) : ImageEntry := { lba := r.lba, kind := r.kind, owner := r.owner, content := r.content }

/-- The block in a record's slot (R312): decoded, and checked against its descriptor's CRC-32C. -/
def Dev.recordPlain (d : Dev) (r : CarBlock) : Option Bytes :=
  let c := descCls r.desc
  let p := if c = 4 then (if r.image.length = 4096 then some r.image else none)
    else if r.image.length = c * 1024 ∧ d.knowsCodec r.desc.codecVer then decodeSlot r.image else none
  p.filter (fun b => crc32c b == r.desc.crc)

/-- The index entry a reference record means. -/
def Dev.landedEntry (d : Dev) (nsid : Nat) (fp : Bytes) : Option (Nat × IndexEntry) :=
  List.find? (fun (e : Nat × IndexEntry) => e.2.nsid == nsid && e.2.fp == fp) (d.pool (d.poolOf nsid)).index

/-- Store the slot of a BLOCK record: kept as sent where the target would store that image, else coded anew, and sealed under the target's
own settings; staged as a write of the landing (R312). -/
def Dev.landSlot (d : Dev) (nsid : Nat) (r : CarBlock) (plain : Bytes) : Loc × Dev :=
  let w := d.stg.nextWrite
  let rec_ : WriteRec := { owner := .record nsid r.index, nsid := nsid, stream := r.owner.stream, seq := r.owner.seq, lba := r.lba, blocks := 1 }
  let d := d.onStg (fun s => { s with writes := Tab.put w rec_ s.writes, nextWrite := w + 1 })
  let s := d.stageBlock nsid r.lba r.owner w plain (if r.kind = 1 then some r.content else none) (some (r.desc, r.image))
  if r.kind = 1 then
    let pool := d.poolOf nsid
    let e := s.2.addEntry nsid r.owner r.content (s.2.locSealed pool (.staged s.1)) true (.staged s.1)
    (.ref (e.2.locClass pool (.staged s.1)) e.1, e.2)
  else (.staged s.1, s.2)

/-- Where the block of a BLOCK record lands; none where its slot fails its check. Kind 0 carries no slot; a reference takes the slot already
landed; of a reserved class the slot was omitted, and the block is marked unrecovered (R311, R312, R314). -/
def Dev.landBlock (d : Dev) (nsid : Nat) (r : CarBlock) : Option (Loc × Dev) :=
  if 4 < descCls r.desc then some (.lost, d)
  else if r.kind = 0 then some (.zero, d)
  else if r.reference then some (match d.landedEntry nsid r.content with
    | some e => (.ref (d.locClass (d.poolOf nsid) e.2.loc) e.1, d)
    | none => (.lost, d))
  else (d.recordPlain r).map (fun p => d.landSlot nsid r p)

/-- BLOCK_RECORD (R311, R312, R314). A namespace whose blocks are sealed lands none while its keys are gone (R209). -/
def Dev.blockRecord (d : Dev) (q : Nat) (r : CarBlock) : Dev :=
  if (d.landingOn q).any (fun x => d.needsKeys x.1 r.owner) then d.recordNotReady q else
  d.takeRecord q r.index { typ := 3, flags := b2n r.reference, body := blockBody (carEntry r) r.desc r.image } r.tag (fun nsid l d =>
    match d.landBlock nsid r with
    | none => d.recordFails nsid 21 l.epochStart l
    | some t => t.2.onLanding nsid (fun l => { l with
        entries := l.entries ++ [(carEntry r, t.1)], omitted := l.omitted || decide (4 < descCls r.desc)
        due := if (r.index + 1) % 64 = 0 then l.due ++ [r.index] else l.due }))

/-- EPOCH_END_RECORD (R312, R314): the digest is recomputed; where the epoch holds an omitted slot it is taken as sent and counted. -/
def Dev.epochEnd (d : Dev) (q : Nat) (h : CarEnd) (digest : Bytes) : Dev :=
  d.takeRecord q h.index { typ := 4, body := endBody h.cairn (sliceZ digest 0 32) } h.tag (fun nsid l d =>
    let dk := if l.omitted then digest else chainDigest l.digest l.epoch (l.entries.map (·.1))
    let d := if l.omitted then d.bump F.SNP_lost_skipped else d
    if dk ≠ digest ∨ l.entries.length ≠ l.expected ∨ h.cairn ≠ l.epoch then d.recordFails nsid 21 l.epochStart l
    else d.onLanding nsid (fun l => { l with digest := dk, closedEpochs := l.closedEpochs ++ [(l.epoch, dk, l.entries)], entries := [],
                                             omitted := false, failed := 0, due := l.due ++ [h.index] }))

/-- IMAGE_END_RECORD (R312): the image digest of a full Caravan is checked, and its chain digest adopted. -/
def Dev.imageEnd (d : Dev) (q : Nat) (h : CarEnd) (imgDigest chain : Bytes) : Dev :=
  d.takeRecord q h.index { typ := 5, body := endBody h.cairn (sliceZ imgDigest 0 32 ++ sliceZ chain 0 32) } h.tag (fun nsid l d =>
    let i := if l.omitted then imgDigest else imageDigest l.end_ (l.entries.map (·.1))
    let d := if l.omitted then d.bump F.SNP_lost_skipped else d
    if i ≠ imgDigest ∨ h.cairn ≠ l.end_ then d.recordFails nsid 21 l.epochStart l
    else d.onLanding nsid (fun l => { l with digest := chain, closedEpochs := [(l.end_, chain, l.entries)], entries := [], omitted := false,
                                             failed := 0, due := l.due ++ [h.index] }))

/-- CLOSE_RECORD (R312): the Caravan lands once every record is durable. -/
def Dev.closeRecord (d : Dev) (q : Nat) (h : CarClose) : Dev :=
  d.takeRecord q h.index { typ := 6, body := pairBody h.count h.cairn } h.tag (fun nsid _ d =>
    d.onLanding nsid (fun l => { l with closing := true, due := l.due ++ [h.index] }))

/-- Close one Cairn of a landed Caravan (R312): entries, owners and digest as sent. -/
def Dev.landEpoch (d : Dev) (nsid : Nat) (full : Bool) (e : Nat × Bytes × List (ImageEntry × Loc)) : Dev :=
  let d := if full then d.onNs nsid (fun x => { x with map := [], closedMap := [], image := [], epochOf := [], epochMaps := [] }) else d
  let sv : Tab Loc := e.2.2.foldl (fun (t : Tab Loc) y => Tab.put y.1.lba y.2 t) []
  let d := (d.onNs nsid (fun x => List.foldl (fun (z : Ns) (y : Nat × Loc) => z.showLoc y.1 y.2) x sv)).applyReleases nsid
  let pool := d.poolOf nsid
  let used := e.2.2.filterMap (fun y => match y.2 with | .ref _ k => some (k, y.1.owner) | _ => none)
  let d := used.foldl (fun (d : Dev) u => d.onEntry pool u.1 (fun x => { x with pending := false, owner := u.2 })) d
  let x := d.ns nsid
  let rec_ : CairnRec := { digest := e.2.1, generation := x.epochGen, closeNs := d.now, flags := b2n x.outside,
                           fwMajor := d.get F.SYS_FW_major, pos := [] }
  (d.recordCairn nsid e.1 (e.2.2.map (·.1)) sv rec_ false).afterClose nsid e.1

/-- A Caravan whose CLOSE is durable becomes visible in one step (R312). -/
def Dev.land (d : Dev) (nsid : Nat) (l : Landing) : Dev :=
  let d := l.closedEpochs.foldl (fun (d : Dev) e => d.landEpoch nsid l.full e) d
  let d := d.onNs nsid (fun x => { x with landing := none, lastLanded := l.end_, placedNum := max x.placedNum l.end_ })
  d.bump F.SNP_caravans_landed

/-- Confirm what is durable (R312): after every 64 records and at each end; the landing follows a durable CLOSE. -/
def Dev.settleLanding (d : Dev) (nsid : Nat) : Dev :=
  match (d.ns nsid).landing with
  | none => d
  | some l =>
    let acked := (List.filter (fun (w : Nat × WriteRec) => w.2.acked && (match w.2.owner with | .record n _ => n == nsid | _ => false)) d.stg.writes).map (·.1)
    let d := d.onStg (fun s => { s with writes := acked.foldl (fun t k => Tab.del k t) s.writes })
    let open_ := List.filterMap (fun (w : Nat × WriteRec) => match w.2.owner with | .record n i => if n = nsid then some i else none | _ => none) d.stg.writes
    let upTo := open_.foldl min l.nextIndex
    let ready := l.due.filter (fun i => decide (i < upTo))
    let d := d.onLanding nsid (fun l => { l with due := l.due.filter (fun i => !decide (i < upTo)), confirmed := upTo })
    let d := match ready.getLast? with
      | some _ => (d.emit (.confirmRecord l.qpn l.caravan (upTo - 1) none)).sendMsg l.qpn (beBytes 8 l.caravan ++ beBytes 8 (upTo - 1))
      | none => d
    if l.closing && decide (upTo = l.nextIndex) then d.land nsid l else d

/-- Every landing is brought on. -/
def Dev.settleLandings (d : Dev) : Dev := (d.snp.nss.map (·.1)).foldl Dev.settleLanding d

end Sys2Proof.Machine
end

