-- ==== Sys2Proof/Machine/NvmeData.lean ====
section
/-! DEFINITION. What NVMe commands return: Identify (R142), log pages (R153, R158, R377, R378), the frame index (R164), and the SMART
critical warnings (R154). Fields lie where NVMe 2.0 puts them, as R142 says. -/
namespace Sys2Proof.Machine

/-! ### Field helpers -/

/-- A page of `len` octets with fields put at their offsets. -/
def pageOf (len : Nat) (fields : List (Nat × Bytes)) : Bytes :=
  (fields.foldl (fun a f => overlay a f.1 f.2) (zeros len)).take len

/-- Text padded with spaces. -/
def padText (len : Nat) (t : Bytes) : Bytes := (t ++ List.replicate (len - t.length) 0x20).take len

/-- Decimal digits of a number. -/
def decDigits (n : Nat) : Bytes := asc (toString n)

/-- The running firmware version as text. -/
def Dev.fwText (d : Dev) : Bytes :=
  padText 8 (decDigits (d.get F.SYS_FW_major) ++ asc "." ++ decDigits (d.get F.SYS_FW_minor))

/-! ### Identify (R142) -/

/-- One power state descriptor (R155): maximum power in centiwatts, non-operational, entry and exit latency in µs. -/
def powerDesc (mp : Nat) (nops : Bool) (enlat exlat : Nat) : Bytes :=
  pageOf 32 [(0, leBytes 2 mp), (3, [b8 (2 * b2n nops)]), (4, leBytes 4 enlat), (8, leBytes 4 exlat)]

/-- Identify Controller. [PRESUMED: log 21] -/
def Dev.identifyCtrl (d : Dev) (cid : Nat) (kind : CtrlKind) : Bytes :=
  pageOf 4096 [
    (0, leBytes 4 Config.vendorIds),
    (4, padText 20 (hexDigits d.img.arrayId ++ asc (if d.headNo = 0 then "-0" else "-1"))),
    (24, padText 40 (asc "Septalurn MSL-9400")),
    (64, d.fwText),
    (73, leBytes 3 (Config.vendorIds / 2 ^ 32)),
    (76, [b8 0x0B, b8 9] ++ leBytes 2 (if kind == .discovery then 0xFFFF else cid) ++ leBytes 4 0x00020000),
    (92, leBytes 4 0x900),
    (111, [b8 (if kind == .discovery then 2 else 1)]),
    (256, [0, 0, b8 3, b8 7, b8 3, b8 6, b8 63, b8 3]),
    (266, leBytes 2 373 ++ leBytes 2 383),
    (320, leBytes 2 1),
    (342, [b8 1, b8 0x55] ++ leBytes 4 16 ++ leBytes 4 16),
    (512, [b8 0x66, b8 0x44]),
    (516, leBytes 4 4096 ++ leBytes 2 0x9D ++ [0, 0, 0, b8 7] ++ leBytes 2 255 ++ leBytes 2 255),
    (536, leBytes 4 (if kind == .local_ then 0 else 5) ++ leBytes 4 4096),
    (768, if kind == .discovery then discoveryNqn else d.nqn),
    (1792, leBytes 4 1028 ++ leBytes 4 1 ++ [0, 0, 0, b8 1]),
    (2048, powerDesc 36000 false 0 0 ++ powerDesc 25000 false 10 10 ++ powerDesc 14000 true 20 50 ++
      powerDesc 4500 true 3000 40000)]

/-- NUSE: blocks of kinds 1 to 4 (R376). -/
def Dev.nuse (d : Dev) (nsid : Nat) : Nat := ((d.ns nsid).map.filter (fun e => e.2 != Loc.dealloc)).length

/-- NGUID (R142): array_id, then nsid, big-endian as NVMe has it (R8). -/
def Dev.nguid (d : Dev) (nsid : Nat) : Bytes := beBytes 8 d.img.arrayId ++ beBytes 2 nsid ++ zeros 6

/-- Identify Namespace. [PRESUMED: log 21] -/
def Dev.identifyNs (d : Dev) (n : NamespaceRec) : Bytes :=
  pageOf 4096 [
    (0, leBytes 8 n.sizeBlocks ++ leBytes 8 n.sizeBlocks ++ leBytes 8 (d.nuse n.nsid)),
    (24, [b8 3]),
    (30, [b8 1]),
    (33, [b8 9] ++ leBytes 2 255 ++ leBytes 2 255),
    (92, leBytes 4 (n.poolId + 1)),
    (104, d.nguid n.nsid),
    (130, [b8 12])]

/-- The lowest entry of some numbers above a bound. -/
def leastAbove (b : Nat) (l : List Nat) : Option Nat := leastOf (l.filter (fun n => decide (b < n)))

/-- Numbers of a list above a bound in rising order, at most `fuel`. -/
def risingFrom (l : List Nat) : Nat → Nat → List Nat
  | 0, _ => []
  | f + 1, b => match leastAbove b l with
    | some n => n :: risingFrom l f n
    | none => []

/-- IDENTIFY (R139, R142): CNS 0 namespace, 1 controller, 2 active namespaces above the one named, 3 its identifiers, 6 the NVM command
set's structure, which names no limit. -/
def Dev.identify (d : Dev) (h : NvHdr) (cns : Nat) (buf : NvBuf) : Dev :=
  match d.ctrl? h.ctrl with
  | none => d
  | some c =>
    let reply (x : Bytes) : Dev := d.nvReply h 0x06 buf x
    let ofNs (f : NamespaceRec → Bytes) : Dev := match d.img.ns? h.nsid with
      | some n => reply (f n)
      | none => d.nvAnswer h 0x06 true nvBadNs
    match cns with
    | 0x00 => ofNs d.identifyNs
    | 0x01 => reply (d.identifyCtrl h.ctrl c.kind)
    | 0x02 =>
      if 0xFFFFFFFE ≤ h.nsid then d.nvAnswer h 0x06 true nvBadNs
      else reply (sliceZ ((risingFrom (d.img.ns.map (·.nsid)) 1024 h.nsid).flatMap (leBytes 4)) 0 4096)
    | 0x03 => ofNs (fun n => pageOf 4096 [(0, [b8 2, b8 16, 0, 0] ++ d.nguid n.nsid)])
    | 0x06 => reply (zeros 4096)
    | _ => d.nvAnswer h 0x06 true nvBadField

/-! ### Health (R377, R378) and critical warnings (R154) -/

/-- Pool health stands: the head is in service, no recovery runs, and the image holds a pool (R378). -/
def Dev.healthValid (d : Dev) : Bool := d.up && !d.on F.RST_STAT_recovering && !d.img.pools.isEmpty && d.fl.lifeKnown

/-- The spare of a pool against its spare at creation, in per cent. -/
def Dev.spareLeft (d : Dev) (p : PoolRec) : Nat :=
  let s0 := (d.pool p.poolId).spareAtBirth
  if s0 = 0 then 100 else 100 * d.spare p / s0

/-- The owned pool with the lowest spare. -/
def Dev.lowSpare (d : Dev) : List PoolRec → Option PoolRec
  | [] => none
  | p :: t => match d.lowSpare t with
    | some q => if d.spareLeft q < d.spareLeft p then some q else some p
    | none => some p

/-- The highest wear used of the owned pools, in per cent. -/
def Dev.worstWear (d : Dev) : Nat := (d.ownedPools.map d.wearUsed).foldl max 0

/-- Die temperature Di, °C. -/
def Dev.dieTemp (d : Dev) (i : Nat) : Int :=
  let r := if i < 4 then d.get F.THM_DIE0_temps else d.get F.THM_DIE1_temps
  signedOf 8 (r / 2 ^ (8 * (i % 4)))

/-- The composite temperature in K: the hottest of D0 to D7 (R151). -/
def Dev.composite (d : Dev) : Nat := (((List.range 8).map d.dieTemp).foldl max (-128) + 273).toNat

/-- Sensor s of Temperature Threshold and the log, in K: 0 composite, 1 to 8 the remote channels where configured. [DEDUCED: log 46] -/
def Dev.sensor (d : Dev) (s : Nat) : Option Nat :=
  if s = 0 then some d.composite
  else if d.on (F.THM_T_valid.at (s - 1)) then some (signedOf 8 (d.get (F.THM_T_temp.at (s - 1))) + 273).toNat else none

/-- A controller's temperature warning: a sensor at or over its over-threshold, or at or under its under-threshold. -/
def Dev.tempWarns (d : Dev) (c : Ctrl) : Bool :=
  (List.range 9).any (fun s => match d.sensor s with
    | some t => decide (d.feature c (0x0400 + s) ≤ t) || decide (t ≤ d.feature c (0x0410 + s))
    | none => false)

/-- The warnings that do not depend on the controller: spare below threshold, redundancy lost while Rebuild is set, read-only. -/
def Dev.poolWarnings (d : Dev) : Nat :=
  if !d.healthValid then 0 else
  let ro := d.ownedPools.any (fun p => (d.pool p.poolId).readOnly)
  b2n (d.ownedPools.any (fun p => decide (d.spare p < d.img.floorsD.spareRoPermille))) + 4 * b2n (d.mode 6) + 8 * b2n ro

/-- A controller's warnings become `v`: each that rises is posted (R154). -/
def Dev.warn (d : Dev) (cid v : Nat) : Dev :=
  match d.ctrl? cid with
  | none => d
  | some c =>
    let d := d.onCtrl cid (fun c => { c with warned := v })
    (List.range 4).foldl (fun (d : Dev) b => if tb v b && !tb c.warned b then d.postEvent cid 1 b 0x02 else d) d

/-- Warnings follow the pools. -/
def Dev.settleWarnings (d : Dev) : Dev :=
  d.nv.ctrls.foldl (fun (d : Dev) (e : Nat × Ctrl) =>
    if e.2.kind == .discovery then d else d.warn e.1 (d.poolWarnings + 2 * bit e.2.warned 1)) d

/-- Warnings follow a sample of the temperatures. [DEDUCED: log 46] -/
def Dev.judgeTemps (d : Dev) : Dev :=
  d.nv.ctrls.foldl (fun (d : Dev) (e : Nat × Ctrl) =>
    if e.2.kind == .discovery then d else d.warn e.1 (e.2.warned - 2 * bit e.2.warned 1 + 2 * b2n (d.tempWarns e.2))) d

/-- The SMART page. The fields this manual leaves to NVMe and says nothing of are open values. [PRESUMED: log 21] -/
def Dev.smartPage (d : Dev) (c : Ctrl) (open_ : Nat) : Bytes :=
  let hv := d.healthValid
  let low := d.lowSpare d.ownedPools
  let spareNow := (low.map d.spareLeft).getD 0
  let thr := match low with
    | some p => let s0 := (d.pool p.poolId).spareAtBirth; if s0 = 0 then 0 else ceilDiv (100 * d.img.floorsD.spareRoPermille) s0
    | none => 0
  let warns := if hv then c.warned else 2 * bit c.warned 1
  pageOf 512 ([
    (0, [b8 warns] ++ leBytes 2 d.composite ++ [b8 (if hv then spareNow else 0), b8 (if hv then thr else 0),
      b8 (min 255 (if hv then d.worstWear else d.boot.settings.life))]),
    (32, leBytes 96 open_),
    (112, leBytes 16 d.boot.settings.powerCycles ++ leBytes 16 (d.boot.settings.opSeconds / 3600)),
    (144, leBytes 16 (open_ / 2 ^ 768)),
    (160, leBytes 16 (if hv then d.get F.FTL_unrecovered_reads else 0)),
    (176, leBytes 16 c.errorCount),
    (192, leBytes 8 (open_ / 2 ^ 896))] ++
    (List.range 8).map (fun i => (200 + 2 * i, leBytes 2 ((d.sensor (i + 1)).getD 0))))

/-! ### Log pages (R153) -/

/-- Admin and I/O opcodes with effect: 1 supported, plus 2 where user data change and 4 where namespace capability does not. -/
def effectsPage : Bytes :=
  pageOf 4096 ([0x00, 0x01, 0x02, 0x04, 0x05, 0x06, 0x08, 0x09, 0x0A, 0x0C, 0x18, 0xC2, 0xC6].map (fun o => (4 * o, leBytes 4 1)) ++
    [0x00, 0x02, 0x05, 0x0C].map (fun o => (1024 + 4 * o, leBytes 4 1)) ++
    [0x01, 0x08, 0x09, 0x80].map (fun o => (1024 + 4 * o, leBytes 4 3)))

/-- The Error Information page: the newest first. -/
def Ctrl.errorPage (c : Ctrl) : Bytes :=
  sliceZ ((indexed c.errors).flatMap (fun e => pageOf 64 [(0, leBytes 8 (c.errorCount - e.1) ++ leBytes 2 e.2.sq ++ leBytes 2 e.2.cid ++
    leBytes 2 (2 * e.2.status)), (16, leBytes 8 e.2.lba ++ leBytes 4 e.2.nsid)])) 0 4096

/-- The ANA page: change count, number of groups, one descriptor for each with its namespaces. -/
def Dev.anaPage (d : Dev) (c : Ctrl) : Bytes :=
  leBytes 8 c.anaCount ++ leBytes 2 d.img.pools.length ++ zeros 6 ++
    d.img.pools.flatMap (fun p =>
      let ns := (d.img.ns.filter (fun n => n.poolId == p.poolId)).map (·.nsid)
      leBytes 4 (p.poolId + 1) ++ leBytes 4 ns.length ++ leBytes 8 c.anaCount ++ [b8 (d.anaOf p.poolId).code] ++ zeros 15 ++
        ns.flatMap (leBytes 4))

/-- An address as text: IPv4 in decimal, IPv6 in hexadecimal groups. -/
def addrText (family : Nat) (a : Bytes) : Bytes :=
  let join (sep : String) (l : List Bytes) : Bytes := (l.map (fun x => asc sep ++ x)).flatten.drop 1
  let hex (n : Nat) : Bytes := (hexDigits n).drop 12
  if family = 4 then join "." ((a.take 4).map (fun b => decDigits b.toNat))
  else join ":" ((List.range 8).map (fun i => hex (beAt a (2 * i) 2)))

/-- The discovery page (R135): one entry for each address of both heads. -/
def Dev.discoveryPage (d : Dev) : Bytes :=
  let l := d.img.netAddr.flatMap (·.entries)
  pageOf 1024 [(0, leBytes 8 d.img.generation ++ leBytes 8 l.length)] ++ (indexed l).flatMap (fun e =>
    pageOf 1024 [
      (0, [b8 1, b8 (if e.2.family = 4 then 1 else 2), b8 2, 0] ++ leBytes 2 e.1 ++ leBytes 2 0xFFFF ++ leBytes 2 32),
      (32, padText 32 (asc "4420")),
      (256, d.nqn),
      (512, padText 256 (addrText e.2.family e.2.address)),
      (768, [b8 1, b8 4, b8 1])])

/-- The content of a log page for a controller: every page of R153, the discovery page on discovery controllers only. -/
def Dev.logPage (d : Dev) (c : Ctrl) (lid : Nat) : Option Bytes :=
  let more := if c.kind == .discovery then [0x70] else []
  match lid with
  | 0x00 => some (pageOf 1024 (([0x00, 0x01, 0x02, 0x03, 0x04, 0x05, 0x0C] ++ more).map (fun l => (4 * l, [b8 1]))))
  | 0x01 => some c.errorPage
  | 0x02 => some (d.smartPage c d.fresh.1)
  | 0x03 => some (pageOf 512 [(0, [b8 1]), (8, d.fwText)])
  | 0x04 => some (sliceZ ((if 1024 < c.changedNs.length then [0xFFFFFFFF] else risingFrom c.changedNs 1024 0).flatMap (leBytes 4)) 0 4096)
  | 0x05 => some effectsPage
  | 0x0C => some (d.anaPage c)
  | 0x70 => if c.kind == .discovery then some d.discoveryPage else none
  | _ => none

/-- GET_LOG_PAGE (R153): `numd` dwords from an offset. Without Retain Asynchronous Event the read settles the page's event, and that of
Changed Namespace List empties the list. -/
def Dev.getLog (d : Dev) (h : NvHdr) (lid : Nat) (rae : Bool) (numd offset : Nat) (buf : NvBuf) : Dev :=
  match d.ctrl? h.ctrl with
  | none => d
  | some c =>
    match d.logPage c lid with
    | none => d.nvAnswer h 0x02 true nvBadLog
    | some page =>
      if offset % 4 ≠ 0 ∨ page.length < offset ∨ 2 ^ 21 < 4 * (numd + 1) then d.nvAnswer h 0x02 true nvBadField else
      let d := if lid = 0x02 then d.fresh.2 else d
      let d := if rae then d else d.onCtrl h.ctrl (fun c =>
        { c with changedNs := if lid = 0x04 then [] else c.changedNs
                 aerPending := c.aerPending.filter (fun a => a.2.2 != lid) })
      d.nvReply h 0x02 { buf with len := min buf.len (4 * (numd + 1)) } (sliceZ page offset (4 * (numd + 1)))

/-! ### Frame Index Query (R164) -/

/-- A frame index record's octets (R91). -/
def FrameRec.bytes (r : FrameRec) (ch : Nat) (head : Bool) : Bytes :=
  leBytes 8 r.strobeNs ++ leBytes 8 r.completeNs ++ leBytes 4 r.num ++ leBytes 4 r.size ++ leBytes 2 r.window ++
    [b8 (r.kind + 8 * ch + 64 * b2n head), b8 (b2n r.overrun + 2 * b2n r.sizeDiff + 4 * b2n r.stepped + 8 * r.quality)] ++
    leBytes 4 r.seq

/-- The records a channel still holds, oldest first: the flash area, then those of the ring not yet copied (R92). -/
def Chan.records (c : Chan) : List FrameRec := c.flash ++ c.ring.drop c.copied

/-- FRAME_INDEX_QUERY (R164): from the first record at or after the start, those whose kind the mask selects, at most `count`. -/
def Dev.frameQuery (d : Dev) (h : NvHdr) (ch : Nat) (byTime : Bool) (kindMask startSeq startNs count : Nat) (buf : NvBuf) : Dev :=
  match d.ctrl? h.ctrl with
  | none => d
  | some c =>
    let x := d.chan ch
    if x.role != .active then d.nvAnswer h 0xC6 true nvNoChannel
    else if 2 ^ 21 < 32 + 32 * count then d.nvAnswer h 0xC6 true nvBadField
    else if buf.len < 32 + 32 * count then d.nvAnswer h 0xC6 true (if c.kind == .local_ then nvBadField else nvSglLength)
    else
      let all := x.records
      let oldest := (all.head?.map (·.seq)).getD x.indexSeq
      let newest := (all.getLast?.map (·.seq)).getD ((x.indexSeq + 2 ^ 32 - 1) % 2 ^ 32)
      let before (r : FrameRec) : Bool :=
        if byTime then decide (r.strobeNs < startNs) && decide (r.completeNs < startNs)
        else decide (0 < (startSeq + 2 ^ 32 - r.seq) % 2 ^ 32) && decide ((startSeq + 2 ^ 32 - r.seq) % 2 ^ 32 < 2 ^ 31)
      let from_ := all.dropWhile before
      let picked := (from_.filter (fun r => decide (r.kind ≠ 0) && tb kindMask r.kind)).take count
      let full := decide (0 < count) && picked.length == count
      let next := match picked.getLast? with
        | some r => if full then (r.seq + 1) % 2 ^ 32 else x.indexSeq
        | none => if count = 0 then (from_.head?.map (·.seq)).getD x.indexSeq else x.indexSeq
      let head := leBytes 4 picked.length ++ leBytes 4 next ++ leBytes 4 oldest ++ leBytes 4 newest ++
        leBytes 8 (d.get (F.IPT_CH_flash_discards.at ch)) ++ zeros 8
      d.nvReply h 0xC6 buf (head ++ picked.flatMap (fun r => r.bytes ch d.pins.headSel))

/-! ### Commands that waited in their queue (R383) -/

/-- What an NVMe command does once it is fetched. -/
def Dev.nvmeRun (d : Dev) : Instr → Dev
  | .nvmeFlush h => d.nvFlush h
  | .nvmeWrite h slba nlb fua x => d.nvWrite h slba nlb fua x
  | .nvmeRead h slba nlb _ buf => d.nvRead h slba nlb buf
  | .nvmeCompare h slba nlb x => d.nvCompare h slba nlb x
  | .nvmeWriteZeroes h slba nlb deac fua => d.nvWriteZeroes h slba nlb deac fua
  | .nvmeDatasetManagement h nr ad ranges fault => d.nvDsm h nr ad ranges fault
  | .nvmeVerify h slba nlb => d.nvVerify h slba nlb
  | .placeCairn h retain waitClose => d.placeCairn h retain waitClose
  | .deleteIoSubmissionQueue h qid => d.deleteSq h qid
  | .deleteIoCompletionQueue h qid => d.deleteCq h qid
  | .createIoSubmissionQueue h qid size contig cqid base => d.createSq h qid size contig cqid base
  | .createIoCompletionQueue h qid size contig ien vector base => d.createCq h qid size contig ien vector base
  | .getLogPage h lid rae numd offset buf => d.getLog h lid rae numd offset buf
  | .identify h cns buf => d.identify h cns buf
  | .abort h sqid target => d.abortCmd h sqid target
  | .setFeatures h fid save dw11 dw12 x => d.setFeatures h fid save dw11 dw12 x
  | .getFeatures h fid sel dw11 buf => d.getFeatures h fid sel dw11 buf
  | .asynchronousEventRequest h => d.aer h
  | .keepAlive h => d.keepAlive h
  | .readEpochDigest h cairn latest buf => d.readDigest h cairn latest buf
  | .frameIndexQuery h channel byTime kindMask startSeq startNs count buf =>
    d.frameQuery h channel.val byTime kindMask startSeq startNs count buf
  | .propertyGet h off eight => d.propertyGet h off eight
  | .propertySet h off eight val => d.propertySet h off eight val
  | .invalidCommandOpcode h admin opcode => d.badOpcode h admin opcode
  | _ => d

/-- Commands that waited in their queues are fetched while there is room for their completions, those of a queue in their order. -/
def Dev.fetchWaiting (d : Dev) : Dev :=
  d.nv.unfetched.foldl (fun (d : Dev) e =>
    if (d.nv.unfetched.find? (fun x => x.1.sq == e.1.sq)) == some e && (d.ctrl? e.1.ctrl).any (fun c => c.cqRoom e.1.sq) then
      (d.onNv (fun n => { n with unfetched := n.unfetched.erase e })).nvmeRun e.2
    else d) d

/-- The doorbell of a completion queue of the local controller (R166): entries up to it are consumed. One that lies outside the queue is
ignored. [DESIGN CHOICE: log 120] -/
def Dev.cqDoorbell (d : Dev) (cq v : Nat) : Dev :=
  d.onCtrl d.localId (fun c =>
    if c.cqSize cq ≤ v then c else { c with cqs := Tab.updD cq {} (fun p => { p with head := v }) c.cqs })

end Sys2Proof.Machine
end

