-- ==== Sys2Proof/Machine/Peer.lean ====
section
/-! DEFINITION. The Pengenko link (R244 to R250): lanes, received packets in sequence, what this head holds of its peer, heartbeats,
silence and loss, resynchronization. -/
namespace Sys2Proof.Machine

/-! ### Lanes of the link (R244) -/

/-- The link's registers follow its lanes: lanes_up, HHL_LANES, mirror capacity, link_up. -/
def Dev.showLink (d : Dev) : Dev :=
  let n := d.head.lanes.length
  let up := decide (0 < n) && decide (d.img.peerLinkD.minLanes ≤ n)
  (((d.set F.HHL_STAT_lanes_up n).set F.HHL_LANES_up (d.head.lanes.map (2 ^ ·)).sum).set F.HHL_CAP_mirror_gbs (256 * n / 24)).setB
    F.HHL_STAT_link_up up

/-- Version of a firmware slot as FWU_SLOTn_VER shows it (R456). -/
def Dev.fwVersion (d : Dev) (i : Nat) : Nat :=
  let b := (if i = 0 then d.boot.fw0 else d.boot.fw1).bytes
  leAt b 6 2 * 65536 + leAt b 4 2

/-- The firmware update state as this head reports it (R245, R444). [DESIGN CHOICE: log 73] -/
def Dev.fwuPeer (d : Dev) : FwuPeer :=
  let act := d.get F.FWU_STAT_active_slot
  let at_ := if d.get F.FWU_STAT_state = 6 then act else 1 - act
  { state := d.get F.FWU_STAT_state, result := d.get F.FWU_STAT_result, slot := act, version := d.fwVersion at_ }

/-- The link comes up: sequences begin anew, and the firmware update state is sent. [DEDUCED: log 64] -/
def Dev.linkBegins (d : Dev) : Dev :=
  (d.onHead (fun h => { h with txLseq := 0, rxLseq := 0, txCseq := [], acked := 0, confirmed := 0, mirrorRx := 0, naked := false,
                               held := [], synced := false, resync := false })).peerSend (.fwu d.fwuPeer)

/-- The lanes up become `l`. [DEDUCED: log 64] -/
def Dev.setLinkLanes (d : Dev) (l : List Nat) : Dev :=
  let was := d.on F.HHL_STAT_link_up
  let d := (d.onHead (fun h => { h with lanes := l })).showLink
  if !was && d.on F.HHL_STAT_link_up then d.linkBegins else d

/-- PENGENKO_LANE_RETRAIN (R244): a lane of serdes_mask that trains joins the link. Where both heads present the same head number, the
link stays down (R466). [DEDUCED: log 64] -/
def Dev.linkLaneRetrain (d : Dev) (lane : Nat) (ok sameHead : Bool) : Dev :=
  if ok && sameHead then (d.setLinkLanes []).event 12 .headNumberClash
  else if ok && tb d.img.peerLinkD.serdesMask lane && !d.head.lanes.contains lane then d.setLinkLanes (d.head.lanes ++ [lane]) else d

/-- A lane is removed after an uncorrectable error (R247). -/
def Dev.dropLinkLane (d : Dev) (lane : Nat) : Dev :=
  if !d.head.lanes.contains lane then d
  else ((d.bump F.HHL_lane_drops).event 12 .linkLaneDropped [lane]).setLinkLanes (d.head.lanes.filter (· != lane))

/-- The link resets and trains its lanes again; the replay buffer covers it (R247, R248). -/
def Dev.linkReset (d : Dev) : Dev := (((d.bump F.HHL_link_resets).event 12 .linkReset).emit (.peer d.head.txLseq 0 .linkReset none))

/-! ### The peer heard, silent, lost (R248, R255) -/

/-- Write ARB_STAT.phase and keep the phase. -/
def Dev.setPhase (d : Dev) (p : Phase) : Dev :=
  let code := match p with | .none => 0 | .takeover => 1 | .giving => 2 | .taking => 3 | .waiting => 4
  ((d.onHead (fun h => { h with phase := p })).set F.ARB_STAT_phase code).trace 9 13 0 [code]

/-- A valid packet was heard: the peer is not silent any more. [DEDUCED: log 65] -/
def Dev.peerHeard (d : Dev) : Dev :=
  let was := d.head.silent
  let d := (d.onHead (fun h => { h with heard := some d.pow.aon, silent := false, verdictIn := false })).set F.HHL_STAT_peer_silent 0
  let d := if d.head.phase == .waiting then d.setPhase .none else d
  if was then d.raise 4 else d

/-- The peer is lost (R41, R255): no copy there counts, and what waited for it is acknowledged under R17. -/
def Dev.peerLost (d : Dev) : Dev :=
  if d.head.lost then d else
  let d := (d.onHead (fun h => { h with lost := true, synced := false, resync := false })).set F.ARB_STAT_peer_lost 1
  let d := (d.set F.HHL_STAT_peer_in_service 0).onStg (fun s =>
    { s with slots := Tab.mapV (fun (x : Staged) => { x with peerOk := false, mseq := none }) s.slots })
  (d.event 13 .peerLost).raise 4

/-- VERDICT_REQ is sent (R252): reason 1, the peer is silent. -/
def Dev.verdictReq (d : Dev) : Dev :=
  let d := (d.bump F.ARB_verdict_reqs).onHead (fun h => { h with verdictReason := 1 })
  (d.set F.ARB_LAST_reason 1).arbSend 2 false 1

/-- PEER_SILENT (R248, R255): link reset, VERDICT_REQ; under policy 0 the peer is lost at once, under policy 1 the head waits. A peer
heard again is resynchronized (R250). [DEDUCED: log 61] -/
def Dev.peerSilent (d : Dev) : Dev :=
  if d.head.silent then d else
  let d := (d.onHead (fun h => { h with silent := true, verdictIn := false, synced := false, resync := false })).set F.HHL_STAT_peer_silent 1
  let d := (((d.set F.HHL_STAT_peer_in_service 0).bump F.HHL_silences).event 12 .peerSilent).raise 4
  let d := d.linkReset.verdictReq
  if !d.on F.ARB_CTL_link_loss_policy then d.peerLost
  else if d.head.lost || d.head.phase != .none then d else d.setPhase .waiting

/-- VERDICT_REQ_TIMER (R252): repeated while the peer is silent and no VERDICT has come. -/
def Dev.verdictReqTimer (d : Dev) : Dev := if d.head.silent && !d.head.verdictIn then d.verdictReq else d

/-- VERDICT_WAIT_EXPIRY (R255): under policy 1 the wait ends and the peer is lost. -/
def Dev.verdictWaitOver (d : Dev) : Dev :=
  if d.head.silent && !d.head.lost && d.on F.ARB_CTL_link_loss_policy then
    (if d.head.phase == .waiting then d.setPhase .none else d).peerLost
  else d

/-- HEARTBEAT_TIMER (R245, R248). -/
def Dev.heartbeatOut (d : Dev) : Dev :=
  d.peerSend (.heartbeat { term := d.head.term, generation := d.img.generation, pools := d.ownedMask, mirrorReq := d.mirrorReq,
                           sealOn := d.mode 3, resync := d.head.resync, kcv := d.get F.CIP_KCV_kcv % 2 ^ 32 })

/-- A heartbeat is taken (R245). A peer that still claims pools this head owns is the fenced one, not yet back in service (R256). A
peer that does not request Mirror holds nothing here. One that comes back with an older image is sent this head's (R74).
[DEDUCED: log 65] -/
def Dev.heartbeat (d : Dev) (b : Heartbeat) : Dev :=
  let before := d.head.peerHb
  let d := d.onHead (fun h => { h with peerHb := some b })
  let fresh := b.kcv != ((before.map (·.kcv)).getD 0)
  let d := if d.kcvDiffers b && fresh then d.event 10 .keysDiffer else d
  let d := if b.mirrorReq then d
    else (d.onStg (fun s => { s with mirror := [] })).onHead (fun h => { h with store := { fwu := h.store.fwu } })
  if Nat.land b.pools d.ownedMask != 0 then d.set F.HHL_STAT_peer_in_service 0
  else
    let was := d.on F.HHL_STAT_peer_in_service
    let d := (d.set F.HHL_STAT_peer_in_service 1).set F.ARB_STAT_peer_lost 0
    let d := d.onHead (fun h => { h with lost := false })
    if was then d else
    let d := (d.event 12 .peerBack).raise 4
    if b.generation < d.img.generation && d.sim.active.isSome then d.peerSend (.image d.img.generation d.img.bytes) else d

/-! ### Received packets (R245 to R247) -/

/-- A packet's header, its class, and whether its payload is a firmware record. -/
def peerHeader : Instr → Option (PeerHdr × Nat × Bool)
  | .heartbeat h _ | .pengenkoNak h _ | .mirrorConfirmation h _ | .imageDigest h _ _ _ | .selfTestEcho h _ => some (h, 0, false)
  | .mirrorSlot h _ => some (h, 1, false)
  | .journalOpen h _ | .journalClose h _ _ | .mapDelta h _ => some (h, 2, true)
  | .qpContextState h _ | .windowState h _ | .cairnState h _ | .pendingHolders h _ | .retainedCairnList h _ | .caravanProgress h _
  | .reshapePosition h _ _ | .channelLastMatched h _ _ _ => some (h, 3, true)
  | .fwuState h _ => some (h, 3, false)
  | _ => none

/-- Change what is held of the peer. -/
def Dev.onStore (d : Dev) (f : PeerStore → PeerStore) : Dev := d.onHead (fun h => { h with store := f h.store })

/-- Key of a stripe in the journal copy. -/
def journalKey (pool seq : Nat) : Nat := pool * 2 ^ 64 + seq

/-- The peer's confirmation of its mirror area up to a cseq (R220): slots sent up to there have a copy. -/
def Dev.confirmed (d : Dev) (upTo : Nat) : Dev :=
  let done (s : Staged) : Bool := match s.mseq with
    | some n => decide ((upTo + 2 ^ 32 - n) % 2 ^ 32 < 2 ^ 31)
    | none => false
  (d.onHead (fun h => { h with confirmed := upTo })).onStg (fun t =>
    { t with slots := Tab.mapV (fun (s : Staged) => if done s then { s with peerOk := true } else s) t.slots })

/-- A slot is written at its owner's offset of the mirror-receive area and confirmed (R220); an offset outside that area, which is as large as
the peer's own area (R27), names no place in it. -/
def Dev.mirrorIn (d : Dev) (cseq : Nat) (s : MirrorSlot) : Dev :=
  if d.img.ownMib (1 - d.headNo) * 1024 < s.off + descCls s.desc then d else
  let d := (d.onStg (fun t => { t with mirror := Tab.put s.off s t.mirror })).onHead (fun h => { h with mirrorRx := cseq })
  d.peerSend (.confirm cseq)

/-- The same block version. -/
def sameSlot (x : StripeSlot) (m : MirrorSlot) : Bool := x.nsid == m.nsid && x.lba == m.lba && x.wid == m.wid

/-- A stripe opens in blocks that a stripe sealed before lay in: they have been erased since. -/
def reusesBlocks (r o : OpenRec) : Bool :=
  o.pool == r.pool && o.members.any (fun m => r.members.any (fun k =>
    k.module == m.module && k.die == m.die && k.block == m.block && decide (k.page ≤ m.page)))

/-- A stripe's journal record is taken. -/
def PeerStore.opened (s : PeerStore) (r : OpenRec) : PeerStore :=
  { s with journal := Tab.put (journalKey r.pool r.seq) r s.journal
           sealed := List.filter (fun (e : Nat × OpenRec) => !reusesBlocks r e.2) s.sealed }

/-- The same block version in two deltas. -/
def sameVersion (x y : MapDelta) : Bool := x.nsid == y.nsid && x.lba == y.lba && x.wid == y.wid

/-- A map delta arrives (R361). One of a version under a closed Cairn changes what is known of the closed content; where another version of
the block stands there, which of the two is the later is open to this head. [DESIGN CHOICE: log 66] -/
def PeerStore.delta (s : PeerStore) (x : MapDelta) : PeerStore :=
  if !inEpoch (Tab.getD s.closedPos x.nsid []) x.wid then
    let old := s.deltas.find? (sameVersion x)
    { s with deltas := s.deltas.filter (fun y => !sameVersion x y) ++ [{ x with of_ := max x.of_ ((old.map (·.of_)).getD 0) }] }
  else if x.stale then s
  else { s with base := Tab.updD x.nsid [] (fun m => Tab.put x.lba (match Tab.find? x.lba m with
      | some y => if y.wid == x.wid then x else { x with loc := .foreign }
      | none => x) m) s.base }

/-- Holders arrive, a holder known already in its new form. -/
def PeerStore.hold (s : PeerStore) (l : List HolderMirror) : PeerStore :=
  { s with holders := s.holders.filter (fun h => !l.any (fun x => x.nsid == h.nsid && x.lba == h.lba && x.wid == h.wid)) ++ l }

/-- A Cairn closes over the deltas of its epoch: of each block the version of highest identity is the one known (R300). -/
def PeerStore.close (s : PeerStore) (nsid : Nat) (pos : Tab Nat) : PeerStore :=
  let mine (e : MapDelta) : Bool := e.nsid == nsid && inEpoch pos e.wid
  let best := (s.deltas.filter (fun e => mine e && !e.stale)).foldl (fun (t : Tab MapDelta) x => match Tab.find? x.lba t with
    | some y => if identityLt y.wid x.wid then Tab.put x.lba x t else t
    | none => Tab.put x.lba x t) []
  { s with closedPos := Tab.put nsid pos s.closedPos
           base := Tab.updD nsid [] (fun m => best.foldl (fun m e => Tab.put e.1 e.2 m) m) s.base
           deltas := s.deltas.filter (fun e => !mine e)
           holders := s.holders.filter (fun e => !(e.nsid == nsid && inEpoch pos e.wid)) }

/-- The peer's reshape of a pool moves on, has switched over, or is cancelled: its copies are discarded then (R290, R292, R293). -/
def PeerStore.reshapeMark (s : PeerStore) (pool : Nat) : ReshapeMark → PeerStore
  | .copied seq => { s with reshape := Tab.put pool seq s.reshape, switched := s.switched.filter (· != pool) }
  | .switched => { s with switched := pool :: s.switched.filter (· != pool) }
  | .cancelled => { s with reshape := Tab.del pool s.reshape
                           sealed := List.filter (fun (e : Nat × OpenRec) => !(e.2.pool == pool && e.2.layout == 1)) s.sealed }

/-- The peer closes a stripe: its journal record is that of a sealed one, and the mirror copies of its slots are released (R220). -/
def Dev.journalClosed (d : Dev) (pool seq : Nat) : Dev :=
  let open_ := Tab.find? (journalKey pool seq) d.head.store.journal
  let slots := (open_.map (·.slots)).getD []
  let d := d.onStg (fun t => { t with mirror := List.filter (fun (e : Nat × MirrorSlot) => !slots.any (fun x => sameSlot x e.2)) t.mirror })
  d.onStore (fun s => { s with journal := Tab.del (journalKey pool seq) s.journal
                               sealed := match open_ with
                                 | some r => Tab.put (journalKey pool seq) r s.sealed
                                 | none => s.sealed
                               holders := s.holders.filter (fun h => !slots.any (fun x => x.nsid == h.nsid && x.lba == h.lba && x.wid == h.wid)) })

/-- The peer's Cairn state (R185, R249): what a newly closed Cairn covers leaves the open epoch. [DEDUCED: log 65] -/
def Dev.cairnIn (d : Dev) (x : CairnMirror) : Dev :=
  let old := Tab.find? x.nsid d.head.store.cairns
  let pos := ((old.map (·.placed)).getD []).find? (fun p => p.1 == x.closed)
  let d := d.onStore (fun s => { s with cairns := Tab.put x.nsid x s.cairns })
  match pos with
  | none => d
  | some p => d.onStore (fun s => s.close x.nsid p.2)

/-- A packet in order takes effect. -/
def Dev.peerApply (d : Dev) (c : Instr) : Dev :=
  match c with
  | .heartbeat _ b => d.heartbeat b
  | .pengenkoNak _ l => d.emit (.peer l 0 (.replay l) none)
  | .mirrorConfirmation _ u => d.confirmed u
  | .imageDigest _ g x .refused => { d with sim := { d.sim with peer := some (g, x, false) } }
  | .imageDigest _ g x .held => { d with sim := { d.sim with peer := some (g, x, true) } }
  | .imageDigest _ g x (.active b) =>
    if d.img.generation < g && x == sha384 b then { d with sim := { d.sim with offered := some b } } else d
  | .selfTestEcho h x => d.peerSend (.echo h.echo (x.take 64))
  | .mirrorSlot h s => d.mirrorIn h.cseq s
  | .journalOpen _ r => d.onStore (fun s => s.opened r)
  | .journalClose _ p q => d.journalClosed p q
  | .mapDelta _ x => d.onStore (fun s => s.delta x)
  | .qpContextState _ q => d.onStore (fun s => { s with qps := Tab.put q.qpn q s.qps })
  | .windowState _ w => d.onStore (fun s => { s with wins := Tab.put w.window w s.wins })
  | .cairnState _ x => d.cairnIn x
  | .pendingHolders _ l => d.onStore (fun s => s.hold l)
  | .retainedCairnList _ l => d.onStore (fun s => { s with retained := l })
  | .caravanProgress _ x => d.onStore (fun s => { s with caravans := Tab.put x.target x s.caravans })
  | .reshapePosition _ p m => d.onStore (fun s => s.reshapeMark p m)
  | .channelLastMatched _ ch n t => d.onStore (fun s => { s with lastMatched := Tab.put ch.val (n, t) s.lastMatched })
  | .fwuState _ f => d.onStore (fun s => { s with fwu := f })
  | _ => d

/-- The mirror cseq a packet names is written. -/
def Dev.slotsThere (d : Dev) (h : PeerHdr) : Bool :=
  h.needMirror == 0 || decide ((d.head.mirrorRx + 2 ^ 32 - h.needMirror) % 2 ^ 32 < 2 ^ 31)

/-- Whether a packet of a class has to wait: for the mirror slots it names, or behind one of its class that waits (R246). -/
def Dev.mustWait (d : Dev) (h : PeerHdr) (cls : Nat) : Bool :=
  !d.slotsThere h || d.head.held.any (fun c => (peerHeader c).any (fun x => x.2.1 == cls))

/-- Apply the packets that waited for slots now written: in each class in order, until one has to wait on. -/
def Dev.peerPump (d : Dev) : Dev :=
  d.head.held.foldl (fun (d : Dev) c => match peerHeader c with
    | some (h, cls, _) => if d.mustWait h cls then d.onHead (fun x => { x with held := x.held ++ [c] }) else d.peerApply c
    | none => d) (d.onHead (fun x => { x with held := [] }))

/-- A firmware record is taken from a peer whose major version is equal or adjacent (R245). -/
def Dev.fwAdjacent (d : Dev) (h : PeerHdr) : Bool :=
  decide (h.fwMajor ≤ d.get F.SYS_FW_major + 1) && decide (d.get F.SYS_FW_major ≤ h.fwMajor + 1)

/-- The peer acknowledges the link up to a sequence. -/
def Dev.linkAcked (d : Dev) (ack : Option Nat) : Dev :=
  match ack with
  | some a => (d.onHead (fun h => { h with acked := a })).winsHeld a
  | none => d

/-- A packet whose CRC fails (R247): discarded and NAKed; at the second failure the lane at fault goes, or the link resets. -/
def Dev.peerBad (d : Dev) (h : PeerHdr) : Dev :=
  let want := (d.head.rxLseq + 1) % 2 ^ 32
  let d := if h.secondFailure then
      let d := (d.bump F.HHL_crc_lasting).event 12 .packetLasting [h.lseq]
      match h.badLane with
      | some l => d.dropLinkLane l.val
      | none => d.linkReset
    else d
  (d.onHead (fun x => { x with naked := !h.secondFailure })).peerSend (.nak want)

/-- A received packet (R245 to R247): packets are taken in link sequence; a gap is NAKed, a repeat discarded. -/
def Dev.peerRx (d : Dev) (c : Instr) : Dev :=
  match peerHeader c with
  | none => d
  | some (h, cls, record) =>
    if !d.on F.HHL_STAT_link_up then d
    else if !h.crcOk then d.peerBad h
    else
      let d := (d.bump F.HHL_rx_packets).peerHeard
      let want := (d.head.rxLseq + 1) % 2 ^ 32
      if h.lseq % 2 ^ 32 != want then
        if (want + 2 ^ 32 - h.lseq % 2 ^ 32) % 2 ^ 32 < 2 ^ 31 then d else (d.onHead (fun x => { x with naked := true })).peerSend (.nak want)
      else
        let d := if d.head.naked then d.bump F.HHL_crc_transient else d
        let d := (d.onHead (fun x => { x with rxLseq := want, naked := false })).linkAcked h.ack
        if (d.fenced && cls != 0) || (record && !d.fwAdjacent h) then d
        else if d.mustWait h cls then d.onHead (fun x => { x with held := x.held ++ [c] })
        else (d.peerApply c).peerPump

/-! ### Resynchronization (R250) -/

/-- Octets of slots that the peer does not hold yet. -/
def Dev.resyncLeft (d : Dev) : Nat := (d.stg.slots.map (fun e => if e.2.peerOk then 0 else e.2.image.length)).sum

/-- Holders of the open epochs of a namespace. -/
def Dev.holdersOf (d : Dev) (nsid : Nat) : List HolderMirror :=
  ((d.ns nsid).epoch.filter (fun b => b.kind == 1)).map (fun b =>
    d.holderOf nsid b.lba b.wid b.content (match b.loc with
      | .staged n => (Tab.find? n d.stg.slots).map (·.off)
      | _ => none) b.entry 0)

/-- The state items of R249 in full. -/
def Dev.sendItems (d : Dev) : Dev :=
  let caps := List.filter (fun (e : Nat × Qp) => e.2.use == .capture && e.2.state == .rts) d.net.qps
  let d := caps.foldl (fun (d : Dev) (e : Nat × Qp) => d.peerSend (.qp (d.qpMirror e.1))) d
  let d := d.bound.foldl (fun (d : Dev) w => d.mirrorWin w) d
  let nss := (d.img.ns.filter (fun n => d.owns n.poolId)).map (·.nsid)
  let d := nss.foldl (fun (d : Dev) n => (d.peerSend (.cairn (d.cairnMirror n))).peerSend (.holders (d.holdersOf n))) d
  let d := d.peerSend (.retained d.retainedList)
  let d := d.snp.cars.foldl (fun (d : Dev) (e : Nat × Caravan) =>
    d.peerSend (.caravan { target := e.1, caravan := e.2.num, base := e.2.base, end_ := e.2.end_, full := e.2.full,
                           record := e.2.confirmed, srcDevice := e.2.srcDevice })) d
  d.ownedPools.foldl (fun (d : Dev) p => match (d.pool p.poolId).reshape with
    | some r => d.peerSend (.reshape p.poolId (.copied r.position))
    | none => if (d.pool p.poolId).known && ((d.pool p.poolId).data != p.dataMembers || (d.pool p.poolId).parity != p.parityMembers) then
        d.peerSend (.reshape p.poolId .switched) else d) d

/-- The open journal entries. -/
def Dev.sendJournal (d : Dev) : Dev :=
  d.ownedPools.foldl (fun (d : Dev) p => (d.pool p.poolId).stripes.foldl (fun (d : Dev) (e : Nat × Stripe) =>
    if e.2.state == .programming then
      d.peerSend (.journalOpen { pool := p.poolId, seq := e.2.seq, data := e.2.data, parity := e.2.parity, pageKib := e.2.pageKib,
                                 layout := e.2.layout, generation := e.2.generation, members := e.2.members, slots := e.2.slots })
    else d) d) d

/-- Start: state items, open journal entries, then every own dirty slot without a copy. -/
def Dev.resyncStart (d : Dev) : Dev :=
  let d := d.onHead (fun h => { h with synced := true, resync := true })
  let d := d.bump F.HHL_resync_bytes d.resyncLeft
  let d := d.sendItems.sendJournal
  let todo := (List.filter (fun (e : Nat × Staged) => !e.2.peerOk) d.stg.slots).map (·.1)
  let d := todo.foldl (fun (d : Dev) n => d.sendSlot n) d
  d.onHead (fun h => { h with resyncEnd := h.txLseq })

/-- The last item is confirmed. -/
def Dev.resyncDone (d : Dev) : Bool :=
  d.resyncLeft == 0 && decide ((d.head.acked + 2 ^ 32 - d.head.resyncEnd) % 2 ^ 32 < 2 ^ 31)

/-- The pools this head owns in normal service (R242). -/
def Dev.normalMask (d : Dev) : Nat := ((d.img.pools.filter (fun p => p.ownerHead == d.headNo)).map (fun p => 2 ^ p.poolId)).sum

/-- Resynchronization begins once new writes are mirrored on both sides, and ends with its last confirmation; a head that then owns
fewer than its normal pools asks for them back (R250, R262). [DEDUCED: log 61] -/
def Dev.settleResync (d : Dev) : Dev :=
  let both := d.mirroring
  let d :=
    if both && !d.head.synced then d.resyncStart
    else if !both && !d.peerAwaited && (d.head.synced || d.stg.slots.any (fun e => e.2.peerOk)) then
      (d.onHead (fun h => { h with synced := false, resync := false })).onStg (fun s =>
        { s with slots := Tab.mapV (fun (x : Staged) => { x with peerOk := false, mseq := none, of_ := 0 }) s.slots
                 writes := Tab.mapV (fun (w : WriteRec) => { w with mirrored := false }) s.writes })
    else d
  let d := if d.head.resync && d.resyncDone then
      let d := d.onHead (fun h => { h with resync := false })
      let fewer := Nat.land d.normalMask d.ownedMask != d.normalMask
      if !fewer || !d.on F.ARB_CTL_auto_handback then d
      else if d.head.phase != .none || d.pow.drainGate || d.fenced || !d.on F.HHL_STAT_peer_in_service then d.event 13 .transferRefused [1]
      else d.arbSend 4 true
    else d
  (d.setB F.HHL_STAT_resync d.head.resync).set F.HHL_RESYNC_bytes (if d.head.resync then d.resyncLeft else 0)

end Sys2Proof.Machine
end

