-- ==== Sys2Proof/Machine/Takeover.lean ====
section
/-! DEFINITION. Owners of pools and what moves them (R242, R243, R251 to R263), replay of open stripes (R279), the fence (R256), the
standby self-test (R264). -/
namespace Sys2Proof.Machine

/-! ### Owned pools -/

/-- The pools owned become the bits of a mask (ARB_STAT.owned); trace shows each pool that changes. -/
def Dev.setOwned (d : Dev) (mask : Nat) : Dev :=
  (((List.range 32).filter (fun p => tb mask p != tb d.ownedMask p)).foldl (fun (d : Dev) p => d.trace 9 13 p [p, b2n (tb mask p)]) d).set
    F.ARB_STAT_owned mask

/-- The term becomes `t` (ARB_TERM). -/
def Dev.setTerm (d : Dev) (t : Nat) : Dev := (d.onHead (fun h => { h with term := t })).set F.ARB_TERM_term t

/-- A pool of the image comes into service on this head: its geometry, its spare at creation, and the blocks its die records mark. -/
def Dev.makePool (d : Dev) (p : PoolRec) : Dev :=
  if (d.pool p.poolId).known then d else
  let v := if d.loopPinned 3 then d.loopPin 3 else min (d.loopUpper 3) (max (d.loopLower 3) (Int.ofNat (d.img.tunablesD.wlSpread / 8)))
  let d := d.onPool p.poolId (fun q => { q with known := true, data := p.dataMembers, parity := p.parityMembers, wlV := v.toNat })
  let d := (d.poolDies p).foldl (fun (d : Dev) m => match d.dieRec m.1 m.2 with
    | some r => (d.loadBlocks p.poolId m.1 r).onPool p.poolId (fun q => { q with dies := Tab.put (dieKey m.1 m.2) (r.serial, r.uniqueId) q.dies })
    | none => d) d
  d.onPool p.poolId (fun q => { q with spareAtBirth := d.spare p })

/-- ARB_STAT.role (R266): 4 fenced, 0 not joined, 1 the normal pools, 2 every pool, 3 none. -/
def Dev.settleArb (d : Dev) : Dev :=
  let all := (d.img.pools.map (fun p => 2 ^ p.poolId)).sum
  let own := d.ownedMask
  let role := if d.fenced then 4 else if d.sim.active.isNone then 0 else if own = d.normalMask then 1 else if own = 0 then 3
    else if own = all then 2 else 1
  d.set F.ARB_STAT_role role

/-! ### Replay (R279) -/

/-- Whether a member's die may still come up: its lane trains. -/
def Dev.memberWaits (d : Dev) (m : MemberAddr) : Bool :=
  match d.laneOf m.module with
  | none => false
  | some l => ((d.lane l).state == .training || (d.lane l).active) && !(d.die l m.die).failed

/-- Both flash copies of the journal page with a stripe's open record are gone, and no peer holds it (R278): an event names the case. -/
def Dev.journalGone (d : Dev) (pool : Nat) (s : Stripe) : Dev :=
  if d.on F.HHL_STAT_peer_in_service || !(d.pool pool).journalKept.any (fun k => k.seqs.contains s.seq && (d.goodCopies k).isEmpty) then d
  else d.event 14 .journalLost [pool, s.seq]

/-- One stripe under replay: its members are read and verified once its dies answer; a member that cannot be read abandons it. [DEDUCED: log 67] -/
def Dev.replayStripe (d : Dev) (pool i : Nat) (s : Stripe) : Dev :=
  if s.members.any (fun m => !d.dieAvail m.module m.die && !d.memberWaits m) then (d.journalGone pool s).abandon pool i
  else if s.members.all (fun m => d.dieAvail m.module m.die) then
    let d := (d.journalGone pool s).onStripe pool i (fun s => { s with replay := 2 })
    (List.range s.members.length).foldl (fun (d : Dev) k => match s.members[k]? with
      | some m => d.submitTo m.module { op := .read, die := m.die, block := m.block, page := m.page, use := .replay pool i k, margin := true }
      | none => d) d
  else d

/-- Replay of every owned pool goes on. [DEDUCED: log 67] -/
def Dev.settleReplay (d : Dev) : Dev :=
  d.ownedPools.foldl (fun (d : Dev) p => (d.pool p.poolId).stripes.foldl (fun (d : Dev) (e : Nat × Stripe) =>
    if e.2.replay == 1 && e.2.state == .programming then d.replayStripe p.poolId e.1 e.2 else d) d) d

/-! ### Adoption (R226, R258, R185, R132, R88, R259) -/

/-- Mirror-receive slots of the pools become own dirty data in place (R226). -/
def Dev.adoptSlots (d : Dev) (pools : Nat) : Dev :=
  let mine (e : Nat × MirrorSlot) : Bool := tb pools (d.poolOf e.2.nsid)
  let d := (d.stg.mirror.filter mine).foldl (fun (d : Dev) (e : Nat × MirrorSlot) => d.onStg (fun t =>
    let s := e.2
    { t with slots := Tab.put t.nextSlot { off := s.off, nsid := s.nsid, lba := s.lba, wid := s.wid, desc := s.desc, image := s.image,
                                           plain := s.plain, fp := s.fp, of_ := s.of_, adopted := true } t.slots
             nextSlot := t.nextSlot + 1 })) d
  d.onStg (fun t => { t with mirror := t.mirror.filter (fun e => !mine e) })

/-- A staged slot cannot be repaired: its block is unrecovered (R31). -/
def Dev.loseSlot (d : Dev) (n : Nat) (s : Staged) : Dev :=
  let d := (d.moveLoc (d.poolOf s.nsid) (.staged n) .lost).mirrorState
    (.delta { pool := d.poolOf s.nsid, stripeSeq := 0, nsid := s.nsid, lba := s.lba, loc := .lost, wid := s.wid })
  ((d.onStg (fun t => { t with slots := Tab.del n t.slots })).bump F.STG_slots_lost).event 11 .slotLost [s.nsid, s.lba]

/-- Adopted slots whose only copy was unreadable are lost (R32). -/
def Dev.loseBadMirror (d : Dev) : Dev :=
  let bad := d.stg.mirrorBad
  let d := d.onStg (fun s => { s with mirrorBad := [] })
  if bad.isEmpty then d
  else (List.filter (fun (e : Nat × Staged) => e.2.adopted && bad.contains e.2.off) d.stg.slots).foldl (fun (d : Dev) e => d.loseSlot e.1 e.2) d

/-- The adopted slot that holds a block version. -/
def Dev.slotOfWrite (d : Dev) (nsid lba : Nat) (w : WriteId) : Option Nat :=
  (List.find? (fun (e : Nat × Staged) => e.2.nsid == nsid && e.2.lba == lba && e.2.wid == w) d.stg.slots).map (·.1)

/-- A stripe of the mirrored journal is adopted: one open is taken for replay, with its slots' staged copies, one closed is sealed. -/
def Dev.adoptStripe (d : Dev) (r : OpenRec) (isOpen : Bool) : Dev :=
  let i := (d.pool r.pool).nextIdx
  let srcs := if isOpen then r.slots.map (fun x => match d.slotOfWrite x.nsid x.lba x.wid with | some n => Loc.staged n | none => .dealloc)
    else []
  let s : Stripe := { seq := r.seq, data := r.data, parity := r.parity, pageKib := r.pageKib, layout := r.layout, generation := r.generation,
                      head := 1 - d.headNo, state := if isOpen then .programming else .healthy, members := r.members, slots := r.slots,
                      srcs := srcs, closed := true, replay := b2n isOpen }
  let d := d.onPool r.pool (fun p => { p with stripes := Tab.put i s p.stripes, nextIdx := i + 1, nextSeq := max p.nextSeq (r.seq + 2 ^ 20) })
  let d := r.members.foldl (fun (d : Dev) m => d.onBlock r.pool m.module m.die m.block (fun b => { b with state := 2 })) d
  d.onStg (fun t => { t with slots := t.slots.map (fun e => if srcs.contains (.staged e.1) then (e.1, { e.2 with stripe := some (r.pool, i) }) else e) })

/-- Put a version in the order of write identities. -/
def insertVersion (b : EpochBlock) : List EpochBlock → List EpochBlock
  | [] => [b]
  | c :: t => if identityLt b.wid c.wid then b :: c :: t else c :: insertVersion b t

/-- The entry of a mirrored holder, made as the holder describes it where there is none (R185). -/
def Dev.adoptEntry (d : Dev) (h : HolderMirror) (loc : Loc) : Nat × Dev :=
  match d.ownEntry h.nsid h.isSealed h.fp with
  | some e => (e.1, d)
  | none =>
    let r := d.addEntry h.nsid h.owner h.fp h.isSealed h.pending loc
    (r.1, r.2.onPool (d.poolOf h.nsid) (fun q => { q with index := Tab.upd r.1 (fun x => { x with effort := h.effort, refs := h.refs }) q.index }))

/-- The mirrored holder of a block version; one that has gone, its slot being sealed, is as its slot says. -/
def Dev.mirroredHolder (d : Dev) (nsid lba : Nat) (w : WriteId) (fp : Bytes) (isSealed : Bool) : HolderMirror :=
  (d.head.store.holders.find? (fun h => h.nsid == nsid && h.lba == lba && h.wid == w)).getD
    { nsid := nsid, lba := lba, wid := w, fp := fp, slotOff := none, owner := w, isSealed := isSealed, effort := d.domainEffort nsid }

/-- The version that a slot in a place holds. -/
def Dev.placedVersion (d : Dev) (nsid lba : Nat) (w : WriteId) (fp : Option Bytes) (isSealed : Bool) (plain : Bytes) (loc : Loc) :
    EpochBlock × Dev :=
  match fp with
  | none => ({ wid := w, lba := lba, kind := 2, content := crcContent plain, loc := loc }, d)
  | some fp =>
    let r := d.adoptEntry (d.mirroredHolder nsid lba w fp isSealed) loc
    ({ wid := w, lba := lba, kind := 1, content := fp, loc := loc, entry := some r.1 }, r.2)

/-- The place that a mirrored map delta gives its block on this head: that of a slot in an adopted stripe where the delta names one; else what
the other head put there is open to this one. -/
def Dev.deltaLoc (d : Dev) (x : MapDelta) : Loc :=
  match x.loc with
  | .stored c m s o _ => match List.find? (fun (e : Nat × Stripe) => e.2.seq == x.stripeSeq) (d.pool x.pool).stripes with
    | some (i, _) => .stored c m s o i
    | none => .foreign
  | .dealloc => .dealloc
  | .zero => .zero
  | .lost => .lost
  | _ => .foreign

/-- The version that a mirrored map delta of the open epoch places: none where nothing is known of what it placed. -/
def Dev.deltaVersion (d : Dev) (x : MapDelta) : Option EpochBlock × Dev :=
  match d.deltaLoc x with
  | .dealloc => (some { wid := x.wid, lba := x.lba, kind := 0, content := zeros 32, loc := .dealloc }, d)
  | .zero => (some { wid := x.wid, lba := x.lba, kind := 0, content := zeros 32, loc := .zero }, d)
  | .stored c m s o i => match (d.pool x.pool).slotAt m s i with
    | some t =>
      let r := d.placedVersion x.nsid x.lba x.wid t.fp (descSealed t.desc) t.plain (.stored c m s o i)
      (some r.1, r.2)
    | none => (none, d)
  | _ => (none, d)

/-- Versions of a namespace's adopted slots, of its mirrored map deltas, and of holders that are references; one to an entry that only the
lost head's flash index holds references what that head put there. [DESIGN CHOICE: log 66] -/
def Dev.adoptVersions (d : Dev) (nsid : Nat) : List EpochBlock × Dev :=
  let st := d.head.store
  let slots := List.filter (fun (e : Nat × Staged) => e.2.adopted && e.2.nsid == nsid) d.stg.slots
  let a := slots.foldl (fun (r : List EpochBlock × Dev) (e : Nat × Staged) =>
    let v := r.2.placedVersion nsid e.2.lba e.2.wid e.2.fp (descSealed e.2.desc) e.2.plain (.staged e.1)
    (v.1 :: r.1, v.2)) ([], d)
  let a := (st.deltas.filter (fun x => x.nsid == nsid && !x.stale)).foldl (fun (r : List EpochBlock × Dev) x =>
    if r.1.any (fun b => b.lba == x.lba && b.wid == x.wid) then r else
    let v := r.2.deltaVersion x
    (v.1.toList ++ r.1, v.2)) a
  (st.holders.filter (fun h => h.nsid == nsid && h.slotOff.isNone)).foldl (fun (r : List EpochBlock × Dev) h =>
    if r.1.any (fun b => b.lba == h.lba && b.wid == h.wid) then r else
    let e := r.2.adoptEntry h .foreign
    let l := ((Tab.find? e.1 (e.2.pool (e.2.poolOf nsid)).index).map (·.loc)).getD .foreign
    ({ wid := h.wid, lba := h.lba, kind := 1, content := h.fp, loc := .ref (e.2.locClass (e.2.poolOf nsid) l) e.1,
       entry := some e.1 } :: r.1, e.2)) a

/-- Whether only a part of an atomic write of a namespace has come (R145): its slots, holders and map deltas name fewer blocks than it has. -/
def Dev.partCame (d : Dev) (nsid : Nat) (w : WriteId) : Bool :=
  let st := d.head.store
  let same (n : Nat) (v : WriteId) : Bool := n == nsid && v.stream == w.stream && v.seq == w.seq
  let come : List (Nat × Nat) :=
    (List.filter (fun (e : Nat × Staged) => e.2.adopted && same e.2.nsid e.2.wid) d.stg.slots).map (fun e => (e.2.wid.block, e.2.of_)) ++
    (st.deltas.filter (fun x => same x.nsid x.wid)).map (fun x => (x.wid.block, x.of_)) ++
    (st.holders.filter (fun h => same h.nsid h.wid)).map (fun h => (h.wid.block, h.of_))
  decide (((come.map (·.1)).eraseDups).length < (come.map (·.2)).foldl max 0)

/-- A namespace's content at its latest closed Cairn, as far as it is known: the last map deltas under it, and adopted slots of versions
under it that no stripe has sealed yet. Of two versions of a block there which is the later is open to this head. [DESIGN CHOICE: log 66] -/
def Dev.closedContent (d : Dev) (nsid : Nat) (staged : List EpochBlock) : Tab Loc :=
  let base := Tab.getD d.head.store.base nsid []
  let m := staged.foldl (fun (m : Tab (WriteId × Loc)) b => Tab.put b.lba (b.wid, match Tab.find? b.lba m with
    | some x => if x.1 == b.wid then b.loc else .foreign
    | none => b.loc) m) (Tab.mapV (fun (x : MapDelta) => (x.wid, d.deltaLoc x)) base)
  List.filter (fun (e : Nat × Loc) => e.2 != .foreign) (Tab.mapV (·.2) m)

/-- A namespace is adopted: latest closed Cairn, digest chain, Cairns placed, retained numbers, and its open epoch rebuilt from what was
mirrored, without a write of which only a part had come (R145). Every other block holds what the lost head put there, which is open to this head. [DESIGN CHOICE: log 66] -/
def Dev.adoptNs (d : Dev) (n : NamespaceRec) : Dev :=
  let nsid := n.nsid
  let st := d.head.store
  let closedPos := Tab.getD st.closedPos nsid []
  let vs := d.adoptVersions nsid
  let part := ((vs.1.map (fun b => ({ b.wid with block := 0 } : WriteId))).eraseDups).filter (d.partCame nsid)
  let d := vs.2
  let sorted := (vs.1.filter (fun b => !part.contains { b.wid with block := 0 })).foldl (fun l b => insertVersion b l) []
  let closedMap := d.closedContent nsid (sorted.filter (fun b => inEpoch closedPos b.wid))
  let open_ := sorted.filter (fun b => !inEpoch closedPos b.wid)
  let cm := Tab.find? nsid st.cairns
  let placed := ((cm.map (·.placed)).getD []).map (fun p => ({ num := p.1, pos := p.2 } : Placed))
  let closed := (cm.map (·.closed)).getD 0
  let digest := (cm.map (·.digest)).getD (zeros 32)
  let v := d.fresh.1
  let rec_ : CairnRec := { digest := digest, generation := v % 2 ^ 64, closeNs := v / 2 ^ 64 % 2 ^ 64, flags := v / 2 ^ 128 % 2,
                           fwMajor := v / 2 ^ 129 % 2 ^ 16, pos := closedPos }
  let d := d.fresh.2.onPool n.poolId (fun q => { q with kcv := q.kcv <|> cm.bind (·.kcv), rkcv := q.rkcv <|> cm.bind (·.rkcv) })
  d.onNs nsid (fun _ =>
    { map := open_.foldl (fun m b => Tab.put b.lba b.loc m) closedMap
      closedMap := closedMap
      closed := closed, digest := digest, placed := placed
      placedNum := placed.foldl (fun a p => max a p.num) closed
      pos := (placed.getLast?.map (·.pos)).getD closedPos
      heads := ((cm.map (·.heads)).getD []).foldl (fun t e => Tab.put e.1 e.2 t) []
      epoch := open_
      cairns := if closed = 0 then [] else [(closed, rec_)]
      retained := (st.retained.filter (fun r => r.1 == nsid)).map (·.2)
      foreign := true
      codeReduce := tb n.nsFlags 0 && d.mode 2, codeSeal := tb n.nsFlags 1 && d.mode 3, epochGen := d.img.generation })

/-- A window that was not mirrored has the horizon and limit of the pool's metadata, as the lost head last wrote it (R108): open to this head. -/
def Dev.foreignWin (d : Dev) (w : Nat) : Dev :=
  let a := d.fresh
  let b := a.2.fresh
  let h := 4096 * (a.1 % 2 ^ 51)
  b.2.onWin w (fun _ => { state := .openUnbound, horizon := h, limit := h + b.1 % 2 ^ 25 })

/-- Mirrored capture queue pairs whose windows lie in the pools are adopted with their windows (R132); a revoked one stays revoked unless it
reopens by itself, its queue pair being in Reset here (R112). [DESIGN CHOICE: log 66] -/
def Dev.adoptWindows (d : Dev) (pools : Nat) : Dev :=
  let st := d.head.store
  let inPools (w : Nat) : Bool := (d.img.window? w).any (fun r => tb pools (d.poolOf r.nsid))
  let qps := List.filter (fun (e : Nat × QpMirror) => e.2.windows.any inPools) st.qps
  let d := qps.foldl (fun (d : Dev) (e : Nat × QpMirror) =>
    let m := e.2
    let q : Qp := { state := .rts, use := .capture, uc := m.uc, spray := m.spray, prot := m.prot, epsn := m.epsn, msgBase := m.epsn,
                    msn := m.msn, mtu := m.mtu, peerQpn := m.senderQpn, paths := m.paths, windows := m.windows }
    ((d.onNet (fun y => { y with qps := Tab.put e.1 q y.qps })).cacheQp e.1).trace 3 7 (e.1 % 65536) [e.1, q.state.code]) d
  let wins := List.filter (fun (e : Nat × WinMirror) => inPools e.1) st.wins
  let d := wins.foldl (fun (d : Dev) (e : Nat × WinMirror) =>
    let m := e.2
    let live := decide (m.qpn ≠ 0) && !m.revoked && Tab.has m.qpn d.net.qps
    let shut := m.revoked && !d.on F.RDM_CTL2_auto_reopen
    d.onWin e.1 (fun _ => { state := if shut then .revoked else if live then .bound else .openUnbound, horizon := m.horizon, limit := m.limit,
                            qpn := if live then m.qpn else 0, cseq := m.cseq, adopted := live, lastImm := m.lastImm, bindBase := m.horizon,
                            shownH := m.horizon, shownL := m.limit, mirroredH := m.horizon, mirroredL := m.limit })) d
  let rest := (d.img.window.map (·.windowId)).filter (fun w => inPools w && !Tab.has w st.wins)
  (rest.foldl (fun (d : Dev) w => d.foreignWin w) d).recomputeSpans

/-- A credit message on every adopted window of the pools (R258 step 9). -/
def Dev.creditAdopted (d : Dev) (pools : Nat) : Dev :=
  d.bound.foldl (fun (d : Dev) w =>
    if (d.win w).adopted && (d.img.window? w).any (fun r => tb pools (d.poolOf r.nsid)) then d.sendCredit w false else d) d

/-- The ring entries after the one stamped within 4 ns of a time. -/
def afterStamp (t : Nat) : List Strobe → Option (List Strobe)
  | [] => none
  | s :: r => if s.stamp ≤ t + 4 ∧ t ≤ s.stamp + 4 then some r else afterStamp t r

/-- Strobes numbered from a number on, modulo 2^32. -/
def numberFrom (n : Nat) : List Strobe → List Strobe
  | [] => []
  | s :: t => { s with num := n % 2 ^ 32 } :: numberFrom (n + 1) t

/-- A standby channel whose window is adopted becomes active (R88): its ring is numbered from the mirrored last matched frame and
pends; records the lost head had not copied are owed as a GAP, written at once where no ring entry matches. Where no last matched frame was
mirrored at all, the ring is numbered from FNUM_BASE. [DEDUCED: log 57, DEDUCED: log 67, DESIGN CHOICE: log 116] -/
def Dev.adoptChannel (d : Dev) (c : Nat) (pools : Nat) : Dev :=
  match d.chanRec c with
  | none => d
  | some r =>
    if !(d.img.window? r.windowId).any (fun w => tb pools (d.poolOf w.nsid)) || (d.chan c).role == .active then d else
    let peerCh := (d.img.channel.find? (fun x => x.head == 1 - d.headNo && x.windowId == r.windowId)).map (·.channel)
    let last := peerCh.bind (fun k => Tab.find? k d.head.store.lastMatched)
    let ring := (d.chan c).standbyRing
    let base := match last with | some m => m.1 + 1 | none => d.get (F.IPT_CH_FNUM_BASE_base.at c)
    let hit := last.bind (fun m => afterStamp m.2 ring)
    let pend := numberFrom base (hit.getD ring)
    let gap := match last with | some m => if hit.isSome then m.1 else m.1 + 1 | none => base
    let d := d.onChan c (fun x => { x with role := .active, slots := Int.ofNat r.slots, fresh := pend.isEmpty && last.isNone,
                                           fnext := (base + pend.length) % 2 ^ 32,
                                           pending := pend.drop (pend.length - 65536), waiting := [], standbyRing := [], toAck := [],
                                           outcomes := [], owed := some (gap % 2 ^ 32, none) })
    let d := if d.readyLevel c then d else d.bump (F.IPT_CH_ready_low_events.at c)
    if hit.isSome then d else (d.onChan c (fun x => x.payGap r.windowId d.now d.quality)).raise 14

/-- Where an address of the other head goes (R259): the same sub-port, or the lowest-numbered one that is up and carries its VLAN. -/
def Dev.addressPlace (d : Dev) (e : NetAddrEntry) : Option (Nat × Nat) :=
  let isUp (p s : Nat) : Bool := d.net.up.any (fun x => x.port.val == p && x.sub.val == s)
  if isUp e.port e.subport then some (e.port, e.subport)
  else
    let own := (d.img.netAddr.filter (fun r => r.head == d.headNo)).flatMap (·.entries)
    let cand := own.filter (fun x => x.vlan == e.vlan && isUp x.port x.subport)
    (leastOf (cand.map (fun x => x.port * 8 + x.subport))).map (fun k => (k / 8, k % 8))

/-- Adopt the addresses of a head for announcing (R259). -/
def Dev.takeAddresses (d : Dev) (head : Nat) : Dev :=
  ((d.img.netAddr.filter (fun r => r.head == head)).flatMap (·.entries)).foldl (fun (d : Dev) e =>
    match d.addressPlace e with
    | some at_ => d.onHead (fun h => { h with announce := h.announce ++ [(at_.1, at_.2, e.address, 3)] })
    | none => d.event 13 .addressUnplaced [e.port, e.subport]) d

/-- ADDRESS_ANNOUNCE (R259): one announcement of each adopted address that is still owed one. -/
def Dev.announceAddresses (d : Dev) : Dev :=
  if d.fenced then d else
  let due := d.head.announce.filter (fun a => decide (a.2.2.2 ≠ 0))
  let d := d.onHead (fun h => { h with announce := h.announce.map (fun a => (a.1, a.2.1, a.2.2.1, a.2.2.2 - 1)) })
  due.foldl (fun (d : Dev) a => d.emit (.announce a.1 a.2.1 a.2.2.1)) d

/-- A reshape of an adopted pool goes on from its mirrored position (R35, R290): its set are the adopted stripes of the old geometry, its map
the adopted copies of their slots. -/
def Dev.adoptReshape (d : Dev) (t : TargetGeometryRec) (position : Nat) : Dev :=
  let p := d.pool t.poolId
  let old := List.filter (fun (e : Nat × Stripe) => e.2.state == .healthy && e.2.layout == 0 &&
    !(e.2.data == t.dataMembers && e.2.parity == t.parityMembers)) p.stripes
  let map := (List.filter (fun (e : Nat × Stripe) => e.2.state == .healthy && e.2.layout == 1) p.stripes).foldl (fun (m : Tab Loc) c =>
    c.2.slots.foldl (fun (m : Tab Loc) y => old.foldl (fun (m : Tab Loc) o =>
      match o.2.slots.find? (fun x => x.nsid == y.nsid && x.lba == y.lba && x.wid == y.wid) with
      | some x => Tab.put (locWord (slotLoc o.1 x)) (slotLoc c.1 y) m
      | none => m) m) m) []
  d.onPool t.poolId (fun q => { q with
    reshape := some { data := t.dataMembers, parity := t.parityMembers, set := old.map (·.1), position := position, map := map,
                      startSeq := q.nextSeq } })

/-- A pool that had switched over is adopted in its recorded geometry, its reshape map in force (R292). -/
def Dev.adoptSwitched (d : Dev) (t : TargetGeometryRec) : Dev :=
  ((d.adoptReshape t 0).reshapeSwitch t.poolId).onPool t.poolId (fun q => { q with data := t.dataMembers, parity := t.parityMembers })

/-- Caravans of the pools' namespaces go on from their mirrored boundary, and reshapes from their mirrored position (R249, R35). -/
def Dev.adoptProgress (d : Dev) (pools : Nat) : Dev :=
  let st := d.head.store
  let d := st.caravans.foldl (fun (d : Dev) (e : Nat × CaravanMirror) => match d.img.repl? e.1 with
    | some t => if tb pools (d.poolOf t.srcNsid) then
        d.onCar e.1 (fun c => { c with state := .waiting, num := e.2.caravan, base := e.2.base, end_ := e.2.end_, full := e.2.full,
                                       confirmed := e.2.record, srcDevice := e.2.srcDevice, tgt := some t })
      else d
    | none => d) d
  (d.img.target.filter (fun t => tb pools t.poolId)).foldl (fun (d : Dev) t =>
    if st.switched.contains t.poolId then d.adoptSwitched t
    else match Tab.find? t.poolId st.reshape with
      | some position => d.adoptReshape t position
      | none => d) d

/-- The pools become this head's: slots in place, replay, namespaces, queue pairs, windows, channels, addresses, credit (R258 steps 6
to 9). -/
def Dev.adopt (d : Dev) (pools : Nat) : Dev :=
  let d := d.setOwned (Nat.lor d.ownedMask pools)
  let recs := d.img.pools.filter (fun p => tb pools p.poolId)
  let d := recs.foldl (fun (d : Dev) p => d.makePool p) d
  let d := d.adoptSlots pools
  let of_ (t : Tab OpenRec) : Tab OpenRec := List.filter (fun (e : Nat × OpenRec) => tb pools e.2.pool) t
  let d := (of_ d.head.store.sealed).foldl (fun (d : Dev) e => d.adoptStripe e.2 false) d
  let d := (of_ d.head.store.journal).foldl (fun (d : Dev) e => d.adoptStripe e.2 true) d
  let d := recs.foldl (fun (d : Dev) p => d.onPool p.poolId (fun q => { q with nextSeq := max q.nextSeq (2 ^ 20) })) d
  let d := (d.img.ns.filter (fun n => tb pools n.poolId)).foldl (fun (d : Dev) n => d.adoptNs n) d
  let d := d.loseBadMirror
  let d := (d.adoptWindows pools).adoptProgress pools
  let d := (List.range 8).foldl (fun (d : Dev) c => d.adoptChannel c pools) d
  let theirs := ((d.img.pools.filter (fun p => p.ownerHead != d.headNo)).map (fun p => 2 ^ p.poolId)).sum
  let d := if Nat.land pools theirs != 0 then d.takeAddresses (1 - d.headNo) else d
  let d := if d.head.addrsOut && Nat.land pools d.normalMask != 0 then
      (d.onHead (fun h => { h with addrsOut := false })).takeAddresses d.headNo
    else d
  (d.onStore (fun s => { s with journal := s.journal.filter (fun e => !tb pools e.2.pool), sealed := s.sealed.filter (fun e => !tb pools e.2.pool),
                                deltas := s.deltas.filter (fun x => !tb pools x.pool) })).creditAdopted
    pools

/-! ### Takeover and transfer (R254, R258, R262, R263) -/

/-- A claim is outstanding. -/
def Dev.claimsOut (d : Dev) : Bool := d.fl.lanes.any (fun e => (e.2.cmds ++ e.2.held).any (fun c => c.op == .claim))

/-- Issue the claims of the pools being taken; dies the self-test marked are failed without waiting (R258 step 4, R264). -/
def Dev.issueClaims (d : Dev) : Dev :=
  let d := d.onHead (fun h => { h with claiming := true })
  let lanes := d.fl.lanes.map (·.1)
  let d := lanes.foldl (fun (d : Dev) l =>
    let mask := d.claimMask (d.lane l).module
    let bad := (List.range 64).filter (fun i => tb mask i && d.head.faulty.contains (dieKey (d.lane l).module i))
    bad.foldl (fun (d : Dev) i => d.failDie l i) d) d
  lanes.foldl (fun (d : Dev) l => d.claimLane l) d

/-- The end of a takeover or transfer: ARB_LAST, counter, event. -/
def Dev.ownershipDone (d : Dev) (f : Field) (k : EvKind) : Dev :=
  let us := min 1023 ((d.pow.aon - d.head.phaseStart) / 1000)
  let d := (d.onHead (fun h => { h with phasePools := 0, claiming := false })).setPhase .none
  ((((d.set F.ARB_LAST_duration_us us).bump f).event 13 k).raise 5)

/-- Once every claim is answered the pools it does not own yet are adopted and the takeover or the taking side of a transfer is complete. -/
def Dev.settleTakeover (d : Dev) : Dev :=
  if !d.head.claiming || d.claimsOut then d else
  let pools := d.head.phasePools - Nat.land d.head.phasePools d.ownedMask
  match d.head.phase with
  | .takeover => (d.adopt pools).ownershipDone F.ARB_takeovers .takeoverDone
  | .taking => (d.adopt pools).ownershipDone F.ARB_transfers_taken .transferDone
  | _ => d

/-- CLAIM_TIMEOUT (R260): dies that have not confirmed are failed dies, and a module that answers no claim is a failed module. -/
def Dev.claimTimeout (d : Dev) : Dev :=
  if !d.head.claiming then d else
  let open_ := List.filter (fun (e : Nat × Lane) => (e.2.cmds ++ e.2.held).any (fun c => c.op == .claim)) d.fl.lanes
  open_.foldl (fun (d : Dev) (e : Nat × Lane) =>
    let mask := d.claimMask e.2.module
    let d := d.onLane e.1 (fun x => { x with cmds := x.cmds.filter (fun c => c.op != .claim), held := x.held.filter (fun c => c.op != .claim) })
    let d := d.event 13 .claimTimedOut [e.2.module]
    ((List.range 64).filter (fun i => tb mask i && (d.die e.1 i).present)).foldl (fun (d : Dev) i => d.failDie e.1 i) d) d

/-- A datagram of the arbiter that is no valid message: counted (R252). -/
def Dev.arbBad (d : Dev) : Dev := (d.bump F.ARB_msgs_bad).event 13 .arbiterMessageBad

/-- Whether the head may take a new term now (R254). -/
def Dev.termAccepted (d : Dev) (m : ArbMsg) : Bool := decide (d.head.term < m.term) && !d.fenced

/-- A VERDICT or TRANSFER_GRANT that is not accepted: ignored, counted, recorded. -/
def Dev.verdictIgnored (d : Dev) (m : ArbMsg) : Dev := (d.bump F.ARB_verdicts_ignored).event 13 .verdictIgnored [m.typ, m.term]

/-- VERDICT (R254, R258): accepted, the term is taken and acknowledged, the peer is lost, and the takeover's claims go out. One with a
higher term during a takeover is taken and the takeover goes on (R260); one during a transfer ends it, and the head takes every pool
(R254). -/
def Dev.verdict (d : Dev) (m : ArbMsg) : Dev :=
  if m.arrayId != d.img.arrayId then d.arbBad else
  let d := d.bump F.ARB_msgs_rx
  if m.head != d.headNo || !d.termAccepted m then d.verdictIgnored m else
  let again := d.head.phase == .takeover
  let d := (((d.setTerm m.term).bump F.ARB_verdicts_accepted).arbSend 7 false 0 m.seq).onHead (fun h => { h with verdictIn := true })
  let d := d.peerLost
  let pools := if again then Nat.lor d.head.phasePools m.pools
    else if d.head.phase == .giving || d.head.phase == .taking then (d.img.pools.map (fun p => 2 ^ p.poolId)).sum else m.pools
  let d := d.onHead (fun h => { h with phasePools := Nat.land pools (2 ^ 16 - 1), phaseStart := if again then h.phaseStart else d.pow.aon })
  let d := d.setPhase .takeover
  (if again then d else (d.event 13 .takeoverBegan [m.pools]).raise 5).issueClaims

/-- Why a transfer may not start (R262). -/
def Dev.transferBarred (d : Dev) : Bool :=
  !d.mode 1 || d.head.phase != .none || d.pow.drainGate || d.fenced || !d.on F.HHL_STAT_peer_in_service

/-- ARB_RELEASE and ARB_HANDBACK (R262): TRANSFER_REQ, or refused with an event. -/
def Dev.transferReq (d : Dev) (handback : Bool) : Dev :=
  if d.transferBarred then d.event 13 .transferRefused [b2n handback] else d.arbSend 4 handback

/-- TRANSFER_GRANT (R254, R263): accepted, the term is taken and acknowledged; the groups of the pools turn to ANA Change. -/
def Dev.transferGrant (d : Dev) (m : ArbMsg) : Dev :=
  if m.arrayId != d.img.arrayId then d.arbBad else
  let d := d.bump F.ARB_msgs_rx
  if !d.termAccepted m || d.head.phase == .takeover then d.verdictIgnored m else
  let d := (d.setTerm m.term).arbSend 7 false 0 m.seq
  let taking := m.head == d.headNo
  let d := d.onHead (fun h => { h with phasePools := Nat.land m.pools (2 ^ 16 - 1), phaseStart := d.pow.aon, claiming := false })
  ((d.setPhase (if taking then .taking else .giving)).event 13 .transferBegan [m.pools, b2n taking]).raise 5

/-- What this head keeps of some pools goes: they are the other head's now. -/
def Dev.dropPools (d : Dev) (pools : Nat) : Dev :=
  let lost (n : Nat) : Bool := tb pools (d.poolOf n)
  let inPools (w : Nat) : Bool := (d.img.window? w).any (fun r => lost r.nsid)
  let nss := (d.img.ns.map (·.nsid)).filter lost
  let slots := ((List.filter (fun (e : Nat × Staged) => lost e.2.nsid) d.stg.slots).map (·.1))
  let d := d.setOwned (d.ownedMask - Nat.land d.ownedMask pools)
  let d := d.onStg (fun t => { t with slots := t.slots.filter (fun e => !slots.contains e.1)
                                      ingest := t.ingest.filter (fun e => !lost e.2.nsid)
                                      writes := t.writes.filter (fun e => !lost e.2.nsid) })
  let d := nss.foldl (fun (d : Dev) n => d.onNs n (fun x => ({ foreign := true, codeReduce := x.codeReduce, codeSeal := x.codeSeal } : Ns))) d
  let d : Dev := { d with
    fl := { d.fl with pools := d.fl.pools.filter (fun e => !tb pools e.1)
                      fetches := d.fl.fetches.filter (fun e => !tb pools e.2.pool) }
    red := { d.red with lookups := d.red.lookups.filter (fun e => !lost e.2.nsid) }
    nv := { d.nv with reads := d.nv.reads.filter (fun e => !lost e.2.nsid) }
    snp := { d.snp with cars := d.snp.cars.filter (fun e => !(e.2.tgt.any (fun t => lost t.srcNsid))) } }
  let gone := (List.filter (fun (e : Nat × Qp) => e.2.use == .capture && e.2.windows.any inPools) d.net.qps).map (·.1)
  let d := d.onNet (fun y => { y with
    qps := y.qps.filter (fun e => !gone.contains e.1)
    wins := y.wins.map (fun e => if inPools e.1 && e.2.state != .absent then
      (e.1, { ({} : Win) with state := .openUnbound, horizon := e.2.horizon, limit := e.2.limit, lastImm := e.2.lastImm }) else e) })
  let mods := (d.img.pools.filter (fun p => tb pools p.poolId)).flatMap (fun p => p.members)
  let d := mods.foldl (fun (d : Dev) m => match d.laneOf (memberMod m) with
    | some l => d.onDie l (memberDie m) (fun x => { x with claimed := false, queue := [] })
    | none => d) d
  d.recomputeSpans

/-- A command admitted to a namespace of the pools is still under way. -/
def Dev.poolsBusy (d : Dev) (pools : Nat) : Bool :=
  d.nv.ctrls.any (fun e => e.2.cmds.any (fun c => !c.admin && tb pools (d.poolOf c.nsid)))

/-- TRANSFER_COMMANDS_DRAINED (R263): with no admitted command left, the giving head sends its final state and journal, gives the pools
up and withdraws its addresses; the taking head claims. -/
def Dev.transferDrained (d : Dev) : Dev :=
  let pools := d.head.phasePools
  match d.head.phase with
  | .giving =>
    if d.poolsBusy pools then d else
    let d := (d.sendItems.sendJournal).dropPools pools
    let d := d.onHead (fun h => { h with announce := [], addrsOut := h.addrsOut || decide (Nat.land pools d.normalMask ≠ 0) })
    d.ownershipDone F.ARB_transfers_given .transferDone
  | .taking => if d.head.claiming then d else d.issueClaims
  | _ => d

/-- ARB_STATUS_TIMER (R252). -/
def Dev.arbStatus (d : Dev) : Dev := d.arbSend 1

/-! ### The fence (R256) -/

/-- ARB_FENCE_FALL (R256): lane transmitters go to idle, TRIG outputs to their inactive level; a takeover or transfer stops. READY, ANA
and the other transmitters follow the pin. -/
def Dev.fenceFall (d : Dev) : Dev :=
  if !d.pins.fenceN then d else
  let d : Dev := { d with pins := { d.pins with fenceN := false } }
  let d := ((d.set F.ARB_STAT_fence_pin 1).bump F.ARB_fence_events).event 13 .fenced
  let d := d.onTime (fun t => { t with trigs := Tab.mapV (fun (x : Trig) => { x with pulseEnd := none }) t.trigs })
  let d := (d.onHead (fun h => { h with phasePools := 0, claiming := false })).setPhase .none
  (d.fl.lanes.map (·.1)).foldl (fun (d : Dev) l => if (d.lane l).up then d.laneDown l .down else d) d

/-! ### Standby self-test (R264) -/

/-- The standby dies behind a module: dies of pools this head does not own. -/
def Dev.standbyDies (d : Dev) (module : Nat) : List Nat :=
  (((d.img.pools.filter (fun p => !d.owns p.poolId)).flatMap (fun p => p.members)).filter (fun m => memberMod m == module)).map memberDie

/-- Lanes that lead to standby dies. -/
def Dev.standbyLanes (d : Dev) : List Nat :=
  match d.img.lanes? d.headNo with
  | none => []
  | some m => (m.entries.filter (fun e => tb e.laneFlags 0 && !(d.standbyDies e.module).isEmpty)).map (·.lane)

/-- SELF_TEST_PATH_CHECK (R264): every standby lane gets a loopback and a status read; those found failing, repeated once, are faulty. [DEDUCED: log 69] -/
def Dev.pathCheck (d : Dev) (failed : List Nat) : Dev :=
  d.standbyLanes.foldl (fun (d : Dev) l =>
    let d := d.bump F.HHL_st_path_checks
    let d := if (d.lane l).active then
        (d.bridgeSend l { op := .loopback, die := 0, use := .selfTest } [b8 0x55, b8 0xAA]).bridgeSend l { op := .bridgeStatus, die := 0, use := .selfTest }
      else d
    if failed.contains l then d.markFaulty (65536 + l) (d.lane l).module .selfTestPathFailed else d) d

/-- A loopback came back; one that differs is checked once more, then the path is faulty. -/
def Dev.loopbackBack (d : Dev) (l : Nat) (same : Bool) : Dev :=
  if same then d.onHead (fun h => { h with pathBad := h.pathBad.filter (· != l) })
  else if d.head.pathBad.contains l then
    (d.onHead (fun h => { h with pathBad := h.pathBad.filter (· != l) })).markFaulty (65536 + l) (d.lane l).module .selfTestPathFailed
  else
    (d.onHead (fun h => { h with pathBad := h.pathBad ++ [l] })).bridgeSend l { op := .loopback, die := 0, use := .selfTest } [b8 0x55, b8 0xAA]

/-- LOOPBACK_RESPONSE (R264, R327). -/
def Dev.loopbackResponse (d : Dev) (r : Resp) (same : Bool) : Dev :=
  match d.answer r .loopback with
  | none => d.malformed r
  | some (_, d) => d.loopbackBack r.lane.val same

/-- SELF_TEST_DIE_CHECK (R264): a page of a standby die's option area is read through the standby port; a die that is not idle within 1 s, or
has no lane to it, is skipped. READ_RESPONSE judges what was read. [DEDUCED: log 69] -/
def Dev.dieCheck (d : Dev) (l die : Nat) (idle : Bool) : Dev :=
  let module := (d.lane l).module
  if d.on F.HHL_ST_CFG_die_check_off || !(d.standbyDies module).contains die then d
  else if !(d.lane l).active || !idle then d.bump F.HHL_st_skipped
  else (d.bump F.HHL_st_die_checks).bridgeSend l { op := .read, die := die, page := 2, use := .selfTest }

/-- HHL_ST_PERIOD (R264): 60 s for dies 0 to 31, 675 s for each standby die from 32 on behind a module. -/
def Dev.settlePeriod (d : Dev) : Dev :=
  let of_ (l : Nat) : Nat :=
    let dies := d.standbyDies (d.lane l).module
    let high := (dies.filter (fun i => decide (32 ≤ i))).length
    if high ≠ 0 then 675 * high else if dies.isEmpty then 0 else 60
  d.set F.HHL_ST_PERIOD_seconds ((d.standbyLanes.map of_).foldl max 0)

end Sys2Proof.Machine
end

