-- ==== Sys2Proof/Machine/Jobs.lean ====
section
/-! DEFINITION. The job rings (R186, R214), the compression jobs (R187 to R198) and the cipher jobs (R211 to R214). A job runs when its
descriptor has been fetched; its output does not depend on pre-emption (R196). -/
namespace Sys2Proof
open Machine

/-! ### Descriptors (R187, R211) -/

/-- An octet of a job descriptor. -/
def JobArgs.byte (j : JobArgs) (i : Nat) : Nat := leAt j.desc i 1
/-- The descriptor's op is one of R187's. -/
def JobArgs.opOk (j : JobArgs) : Bool := decide (1 ≤ j.byte 0) && decide (j.byte 0 ≤ 5)
/-- Flag first: the job starts a new stream. -/
def JobArgs.first (j : JobArgs) : Bool := tb (j.byte 1) 0
/-- Flag final: the job ends the stream. -/
def JobArgs.final_ (j : JobArgs) : Bool := tb (j.byte 1) 1
/-- Flag atomic (R192). -/
def JobArgs.allOrNone (j : JobArgs) : Bool := tb (j.byte 1) 2
/-- The context named. -/
def JobArgs.ctx (j : JobArgs) : Nat := j.byte 2
/-- The wrapper's format. -/
def JobArgs.format (j : JobArgs) : Nat := j.byte 3
/-- The coding effort. -/
def JobArgs.effort (j : JobArgs) : Nat := j.byte 4
/-- The tag that the completion returns. -/
def JobArgs.tag (j : JobArgs) : Nat := leAt j.desc 8 4
/-- Host address of the input. -/
def JobArgs.inAddr (j : JobArgs) : Nat := leAt j.desc 16 8
/-- Host address of the output. -/
def JobArgs.outAddr (j : JobArgs) : Nat := leAt j.desc 32 8
/-- Output octets available. -/
def JobArgs.outLen (j : JobArgs) : Nat := leAt j.desc 40 4
/-- A reserved field of the descriptor is not 0, or its op is reserved. -/
def JobArgs.reserved (j : JobArgs) : Bool :=
  !j.opOk || bits (j.byte 1) 7 3 != 0 || leAt j.desc 5 3 != 0 || leAt j.desc 12 4 != 0 || leAt j.desc 28 4 != 0 || leAt j.desc 44 20 != 0

/-- An octet of a cipher job descriptor. -/
def CipherArgs.byte (j : CipherArgs) (i : Nat) : Nat := leAt j.desc i 1
/-- The descriptor's op is one of R211's. -/
def CipherArgs.opOk (j : CipherArgs) : Bool := decide (1 ≤ j.byte 0) && decide (j.byte 0 ≤ 5)
/-- The mode. -/
def CipherArgs.mode (j : CipherArgs) : Nat := j.byte 1
/-- Flag first. -/
def CipherArgs.first (j : CipherArgs) : Bool := tb (j.byte 2) 0
/-- Flag final. -/
def CipherArgs.final_ (j : CipherArgs) : Bool := tb (j.byte 2) 1
/-- Flag wrapped. -/
def CipherArgs.wrapped (j : CipherArgs) : Bool := tb (j.byte 2) 2
/-- Flag AES-256 of a load key. -/
def CipherArgs.aes256 (j : CipherArgs) : Bool := tb (j.byte 2) 3
/-- The context named. -/
def CipherArgs.ctx (j : CipherArgs) : Nat := j.byte 3
/-- The label of a load key. -/
def CipherArgs.keyLabel (j : CipherArgs) : Nat := leAt j.desc 4 2
/-- The tag that the completion returns. -/
def CipherArgs.tag (j : CipherArgs) : Nat := leAt j.desc 8 4
/-- Leading input octets that are AAD. -/
def CipherArgs.aadLen (j : CipherArgs) : Nat := leAt j.desc 12 4
/-- Host address of the input. -/
def CipherArgs.inAddr (j : CipherArgs) : Nat := leAt j.desc 16 8
/-- Host address of the output. -/
def CipherArgs.outAddr (j : CipherArgs) : Nat := leAt j.desc 32 8
/-- Output octets available. -/
def CipherArgs.outLen (j : CipherArgs) : Nat := leAt j.desc 40 4
/-- The IV or initial counter, or the tag a GCM decrypt expects. -/
def CipherArgs.iv (j : CipherArgs) : Bytes := slice j.desc 48 16
/-- A reserved field of the descriptor is not 0, its op is reserved, or its context does not exist. -/
def CipherArgs.reserved (j : CipherArgs) : Bool :=
  !j.opOk || decide (15 < j.ctx) || bits (j.byte 2) 7 4 != 0 || leAt j.desc 6 2 != 0 || leAt j.desc 28 4 != 0 || leAt j.desc 44 4 != 0

/-- The input that reached the device. -/
def JobArgs.arrived (j : JobArgs) : Bytes := match j.fault with | some n => j.input.take n | none => j.input
/-- The output that can be written: the room, or what is before a fault. -/
def JobArgs.room (j : JobArgs) : Nat := match j.outFault with | some n => min n j.outLen | none => j.outLen

/-- The error status of a transfer that ended in a fault (R28). -/
def faultOf (inAddr outAddr : Nat) (fault outFault : Option Nat) : Option DmaFault :=
  match fault, outFault with
  | some n, _ => some { bytes := n, addr := inAddr + n }
  | none, some n => some { bytes := n, addr := outAddr + n }
  | none, none => none

end Sys2Proof

namespace Sys2Proof.Machine

/-! ### Rings (R186, R199) -/

/-- Change the reduction block. -/
def Dev.onRed (d : Dev) (f : RedState → RedState) : Dev := { d with red := f d.red }

/-- A ring's progress, of the RED or the CIP service. -/
def Dev.ring (d : Dev) (cip : Bool) (n : Nat) : RingState := Tab.getD (if cip then d.cip.rings else d.red.rings) n {}
/-- Change a ring's progress. -/
def Dev.onRing (d : Dev) (cip : Bool) (n : Nat) (f : RingState → RingState) : Dev :=
  if cip then d.onCip (fun c => { c with rings := Tab.updD n {} f c.rings }) else d.onRed (fun r => { r with rings := Tab.updD n {} f r.rings })

/-- A ring's register of either service. -/
def ringField (cip : Bool) (red_ cip_ : Field) (n : Nat) : Field := (if cip then cip_ else red_).at n

/-- Entries of a ring's queues. -/
def Dev.ringSize (d : Dev) (cip : Bool) (n : Nat) : Nat := 2 ^ d.get (ringField cip F.RED_RING_CFG_size_log2 F.CIP_RING_CFG_size_log2 n)
/-- A ring is enabled. -/
def Dev.ringOn (d : Dev) (cip : Bool) (n : Nat) : Bool := d.on (ringField cip F.RED_RING_CFG_enable F.CIP_RING_CFG_enable n)
/-- A ring stopped by a descriptor fetch fault. -/
def Dev.ringFault (d : Dev) (cip : Bool) (n : Nat) : Bool := d.on (ringField cip F.RED_RING_STAT_fetch_error F.CIP_RING_STAT_fetch_error n)

/-- The completion queue has no room for one more entry beside those of the jobs fetched. -/
def Dev.ringFull (d : Dev) (cip : Bool) (n : Nat) : Bool :=
  let r := d.ring cip n
  (r.cqTail + r.fetched + 1) % d.ringSize cip n == d.get (ringField cip F.RED_RING_CQ_HEAD_cq_head F.CIP_RING_CQ_HEAD_cq_head n) % d.ringSize cip n

/-- Fetch descriptors in order while there are some and the completion queue has room; a fault stops the ring (R186). -/
def fetchLoop (cip : Bool) (n : Nat) : Nat → List Bool → Dev → Dev
  | 0, _, d => d
  | f + 1, oks, d =>
    let head := ringField cip F.RED_RING_SQ_HEAD_sq_head F.CIP_RING_SQ_HEAD_sq_head n
    let tail := d.get (ringField cip F.RED_RING_SQ_TAIL_sq_tail F.CIP_RING_SQ_TAIL_sq_tail n)
    if !d.ringOn cip n || d.ringFault cip n || d.get head = tail || d.ringFull cip n then d
    else if oks.headD true then
      fetchLoop cip n f (oks.drop 1) ((d.set head ((d.get head + 1) % d.ringSize cip n)).onRing cip n (fun r => { r with fetched := r.fetched + 1 }))
    else
      let at_ := d.get (ringField cip F.RED_RING_SQ_BASE_sq_base F.CIP_RING_SQ_BASE_sq_base n) * 4096 + 64 * d.get head
      let d : Dev := { d with nv := { d.nv with dma := some { bytes := 0, addr := at_ } } }
      (d.set (ringField cip F.RED_RING_STAT_fetch_error F.CIP_RING_STAT_fetch_error n) 1).event (if cip then 10 else 9) .ringFetchError [n]

/-- Fetch what may be fetched. -/
def Dev.ringFetch (d : Dev) (cip : Bool) (n : Nat) (oks : List Bool) : Dev := fetchLoop cip n (d.ringSize cip n) oks d

/-- A ring's index register may be written with a value below the queue's size; another value is reserved (R7). -/
def Dev.ringIndex (d : Dev) (cip : Bool) (n : Nat) (f : Field) (v : Nat) (oks : List Bool) : Dev :=
  if v < d.ringSize cip n then ((d.set f v).wake).ringFetch cip n oks else d.event (if cip then 10 else 9) .reservedEncoding [f.off, v]

/-- RED_SQ_TAIL_WRITE and CIP_SQ_TAIL_WRITE (R186). -/
def Dev.sqTail (d : Dev) (cip : Bool) (n tail : Nat) (oks : List Bool) : Dev :=
  d.ringIndex cip n (ringField cip F.RED_RING_SQ_TAIL_sq_tail F.CIP_RING_SQ_TAIL_sq_tail n) tail oks
/-- RED_CQ_HEAD_WRITE and CIP_CQ_HEAD_WRITE (R186). -/
def Dev.cqHead (d : Dev) (cip : Bool) (n head : Nat) (oks : List Bool) : Dev :=
  d.ringIndex cip n (ringField cip F.RED_RING_CQ_HEAD_cq_head F.CIP_RING_CQ_HEAD_cq_head n) head oks

/-- The enable of a ring is written (R199): set anew, fetching goes on at sq_head and a fetch error is over. The jobs of a ring whose
enable is cleared end with STOPPED. -/
def Dev.ringEnable (d : Dev) (cip : Bool) (n : Nat) (on_ : Bool) : Dev :=
  let was := d.ringOn cip n
  let d := d.setB (ringField cip F.RED_RING_CFG_enable F.CIP_RING_CFG_enable n) on_
  if on_ && !was then (d.set (ringField cip F.RED_RING_STAT_fetch_error F.CIP_RING_STAT_fetch_error n) 0).ringFetch cip n [] else d

/-- Post a completion: entry with its phase bit, message, and the next place (R186). -/
def Dev.postJob (d : Dev) (cip : Bool) (n tag status ctx last4 consumed produced : Nat) (tail : Bytes) : Dev :=
  let r := d.ring cip n
  let entry := leBytes 4 tag ++ [b8 status, b8 ctx, b8 (b2n r.phase), b8 last4] ++ leBytes 4 consumed ++ leBytes 4 produced ++ sliceZ tail 0 16
  let next := (r.cqTail + 1) % d.ringSize cip n
  let at_ := d.get (ringField cip F.RED_RING_CQ_BASE_cq_base F.CIP_RING_CQ_BASE_cq_base n) * 4096 + 32 * r.cqTail
  let d := d.onRing cip n (fun r => { r with cqTail := next, phase := if next = 0 then !r.phase else r.phase, fetched := r.fetched - 1 })
  let d := ((d.bump (if cip then F.CIP_jobs_done else F.RED_jobs_done)).emit (.jobDone cip n at_ entry)).message
    (d.get (ringField cip F.RED_RING_CFG_vector F.CIP_RING_CFG_vector n))
  d.ringFetch cip n []

/-! ### Compression contexts (R189) -/

/-- A context. -/
def Dev.jobCtx (d : Dev) (n : Nat) : JobCtx := Tab.getD d.red.ctxs n {}
/-- Write a context; an empty one leaves the table. -/
def Dev.putCtx (d : Dev) (n : Nat) (c : JobCtx) : Dev :=
  d.onRed (fun r => { r with ctxs := if c.kind = 0 then Tab.del n r.ctxs else Tab.put n c r.ctxs })

/-- How a job ended (R195) with its counts, its output, the CRC of the octets it processed, the octets of the stream so far, and the
context it leaves. -/
structure JobEnd where
  status : Nat
  consumed : Nat := 0
  out : Bytes := []
  crc : Nat := 0
  total : Nat
  ctx : JobCtx

/-- Status OUTPUT_FULL. -/
def jsFull : Nat := 1
/-- Status ATOMIC_FAILED. -/
def jsAtomic : Nat := 2
/-- Status DATA_ERROR. -/
def jsData : Nat := 3
/-- Status DATA_XFER_ERROR. -/
def jsXfer : Nat := 4
/-- Status CTX_INVALID. -/
def jsCtxInvalid : Nat := 5
/-- Status CTX_STATE. -/
def jsCtxState : Nat := 6
/-- Status INVALID_FIELD. -/
def jsField : Nat := 7
/-- Status STOPPED. -/
def jsStopped : Nat := 8

/-- The last 32 KiB of a stream. -/
def window32k (h bs : Bytes) : Bytes := let l := h ++ bs; l.drop (l.length - 32768)

/-- The pieces of a compress job's input: each 4 KiB, and on a final job what remains (R190). The last piece of a final job is marked. -/
def jobPieces (input : Bytes) (final_ : Bool) : List (Bytes × Bool) :=
  let all := chunks 4096 input
  let whole := if final_ then all else all.filter (fun p => p.length == 4096)
  (indexed whole).map (fun e => (e.2, final_ && e.1 + 1 == all.length))

/-- Bits after padding to an octet boundary. -/
def padBits (l : List Bool) : List Bool := l ++ List.replicate ((8 - l.length % 8) % 8) false

/-- Code pieces until one does not fit (R190, R191): bits to write, input consumed, context, and whether it stopped. [DEDUCED: log 70] -/
def compressLoop (ver outLen : Nat) : List (Bytes × Bool) → List Bool → Nat → JobCtx → List Bool × Nat × JobCtx × Bool
  | [], acc, n, c => (acc, n, c, false)
  | (p, last) :: t, acc, n, c =>
    let hdr := if c.headerOwed then bitsOf (wrapHeader c.format) else []
    let check := wrapRun c.format c.wrapCheck p
    let total := c.total + p.length
    let body := acc ++ hdr ++ compressPiece ver c.effort c.history p last ((acc.length + hdr.length) % 8)
    let out := if last then padBits body ++ bitsOf (wrapTrailer c.format check total) else body
    if outLen < out.length / 8 then (acc, n, c, true)
    else compressLoop ver outLen t out (n + p.length)
      { c with headerOwed := false, wrapCheck := check, total := total, history := window32k c.history p,
               crc := crcRun (c.crc ^^^ 0xFFFFFFFF) p ^^^ 0xFFFFFFFF }

/-- What a flush writes (R194): a final empty fixed block and the pending bits, then the trailer. -/
def flushBits (c : JobCtx) : List Bool :=
  padBits (c.pendBits ++ [true, true, false] ++ List.replicate 7 false) ++ bitsOf (wrapTrailer c.format c.wrapCheck c.total)

/-- End a job whose bits are `acc`: whole octets are output, the rest pends. -/
def compressEnd (status : Nat) (acc : List Bool) (input : Bytes) (n : Nat) (c : JobCtx) (free : Bool) : JobEnd :=
  let r := packBits acc.length acc
  { status := status, consumed := n, out := r.1, crc := crc32c (input.take n), total := c.total,
    ctx := if free then {} else { c with pendBits := r.2 } }

/-- A job that did nothing: its context stays. -/
def JobCtx.idle (c : JobCtx) (status : Nat) : JobEnd := { status := status, total := c.total, ctx := c }

/-- The status of a job whose output found no more room: a fault of the output, or the end of it (R28, R191). -/
def jobNoRoom (j : JobArgs) : Nat := if j.room < j.outLen then jsXfer else jsFull

/-- A compress job on its context (R190 to R193). [DEDUCED: log 70] -/
def compressJob (ver : Nat) (j : JobArgs) (c : JobCtx) : JobEnd :=
  let input := j.arrived
  let final_ := j.final_ && j.fault.isNone
  if input.isEmpty && final_ && c.total != 0 then
    let l := flushBits c
    if j.room < l.length / 8 then c.idle (jobNoRoom j) else compressEnd 0 l [] 0 c true
  else if !j.input.isEmpty && j.outLen == 0 then c.idle jsFull
  else
    let r := compressLoop ver j.room (jobPieces input final_) c.pendBits 0 c
    let status := if r.2.2.2 then (jobNoRoom j) else if j.fault.isSome then jsXfer else 0
    compressEnd status r.1 input r.2.1 r.2.2.1 (status == 0 && final_)

/-- Input octets and bit offset a decoder run leaves: consumed before the run, bits used in it. -/
def infUsed (before bitOff used : Nat) : Nat × Nat := (before + (bitOff + used) / 8, (bitOff + used) % 8)

/-- The context a decompress job leaves after some output. -/
def inflated (c : JobCtx) (st : InfState) (out : Bytes) : JobCtx :=
  { c with inf := st, total := c.total + out.length, history := window32k c.history out, wrapCheck := wrapRun c.format c.wrapCheck out,
           crc := crcRun (c.crc ^^^ 0xFFFFFFFF) out ^^^ 0xFFFFFFFF }

/-- Decode input from a context up to a limit of output: octets consumed, output, context, how it ended. -/
def inflateRun (c : JobCtx) (input : Bytes) (hdr limit : Nat) : Nat × Bytes × JobCtx × InfEnd :=
  let st := if c.inf.phase = 0 then { c.inf with phase := 1 } else c.inf
  let all := (bitsOf (input.drop hdr)).drop st.bitOff
  let r := infLoop c.history limit st.bitOff (2 * all.length + 2 * limit + 16) { st := st, left := all, used := 0, out := [], n := 0 }
  let out := r.1.out.reverse
  let u := infUsed hdr st.bitOff r.1.used
  let fin := r.2 == .done
  let at_ := if fin && u.2 != 0 then u.1 + 1 else u.1
  (at_, out, inflated c { r.1.st with bitOff := if fin then 0 else u.2 } out, r.2)

/-- A decompress job that ends with what was decoded before it, as it is. -/
def inflateEnd (status at_ : Nat) (out : Bytes) (c ctx : JobCtx) : JobEnd :=
  { status := status, consumed := at_, out := out, crc := crc32c out, total := c.total, ctx := ctx }

/-- A decompress job that stops: its counts cover the whole blocks before the place (R191, R195); after an error the context is in the
error state. -/
def inflateCut (c : JobCtx) (input : Bytes) (hdr limit status : Nat) : JobEnd :=
  let r := inflateRun c input hdr (limit / 4096 * 4096)
  inflateEnd status r.1 r.2.1 r.2.2.1 (if status = jsData then { r.2.2.1 with kind := 3 } else r.2.2.1)

/-- The end of an inflated stream: its trailer checked (R190). Where input is left after the stream, or the job is final, the context is
free; else it stands at the stream's end (R193, R194). -/
def inflateTrailer (j : JobArgs) (c0 : JobCtx) (input : Bytes) (hdr at_ : Nat) (out : Bytes) (c : JobCtx) : JobEnd :=
  let t := wrapTrailer c.format c.wrapCheck c.total
  let past := at_ + t.length
  if input.length < past then
    if j.final_ then inflateCut c0 input hdr out.length jsData else inflateEnd 0 at_ out c c
  else if slice input at_ t.length ≠ t then inflateCut c0 input hdr out.length jsData
  else inflateEnd 0 past out c (if j.final_ || decide (past < input.length) then {} else { c with inf := { phase := 5 } })

/-- A decompress job on its context (R190 to R193, R195). [DEDUCED: log 70] -/
def decompressJob (j : JobArgs) (c : JobCtx) : JobEnd :=
  let input := j.arrived
  if j.input.isEmpty then { c.idle 0 with ctx := if j.final_ then {} else c }
  else if c.inf.phase = 5 then { c.idle 0 with ctx := {} }
  else match if c.inf.phase = 0 then headerLen c.format input else .ok 0 [] with
  | .bad => inflateEnd jsData 0 [] c { c with kind := 3 }
  | .short =>
    if j.fault.isSome then c.idle jsXfer
    else if j.final_ then inflateEnd jsData 0 [] c { c with kind := 3 } else c.idle 0
  | .ok hdr _ =>
    let r := inflateRun c input hdr j.room
    match r.2.2.2 with
    | .bad => inflateCut c input hdr r.2.1.length jsData
    | .full => inflateCut c input hdr j.room (jobNoRoom j)
    | .done =>
      if j.fault.isSome then inflateCut c input hdr r.2.1.length jsXfer
      else inflateTrailer j c input hdr r.1 r.2.1 r.2.2.1
    | .more =>
      if j.fault.isSome then inflateCut c input hdr r.2.1.length jsXfer
      else if j.final_ then inflateCut c input hdr r.2.1.length jsData
      else inflateEnd 0 r.1 r.2.1 r.2.2.1 r.2.2.1

/-- The outcome under atomic (R192): no room means no effect. -/
def atomicEnd (j : JobArgs) (before : JobCtx) (e : JobEnd) : JobEnd :=
  if j.allOrNone && e.status == jsFull then before.idle jsAtomic else e

/-- Host jobs give way to the data path between whole blocks (R29, R196): how often is not the manual's to say; of so many blocks, at
most once between two of them. [DESIGN CHOICE: log 125] -/
def Dev.preempt (d : Dev) (blocks : Nat) : Dev :=
  if blocks ≤ 1 then d else let r := d.fresh; r.2.bump F.RED_jobs_preempted (r.1 % blocks)

/-- Post the end of a job (R188). -/
def Dev.endJob (d : Dev) (j : JobArgs) (e : JobEnd) : Dev :=
  let d := d.putCtx j.ctx e.ctx
  let d := if e.status = jsFull then d.bump F.RED_jobs_output_full else d
  let d : Dev := if e.status = jsXfer then { d with nv := { d.nv with dma := faultOf j.inAddr j.outAddr j.fault j.outFault } } else d
  let d := if e.out.isEmpty then d else d.emit (.jobData false j.ring.val j.tag j.outAddr e.out)
  d.postJob false j.ring.val j.tag e.status j.ctx e.ctx.pendBits.length e.consumed e.out.length
    (leBytes 4 e.crc ++ zeros 4 ++ leBytes 8 e.total)

/-- A job that ends without touching its context. -/
def Dev.refuseJob (d : Dev) (j : JobArgs) (status : Nat) : Dev := d.endJob j ((d.jobCtx j.ctx).idle status)
/-- A job that ends and leaves its context empty. -/
def Dev.emptyJob (d : Dev) (j : JobArgs) (status : Nat) : Dev := d.endJob j { (d.jobCtx j.ctx).idle status with ctx := {} }

/-- A context fresh for a stream. -/
def newStream (j : JobArgs) (kind : Nat) : JobCtx :=
  { kind := kind, ring := j.ring.val, format := j.format, effort := if kind = 1 then j.effort else 0, wrapCheck := wrapStart j.format,
    headerOwed := kind == 1 && j.format != 0, inf := { phase := if j.format = 0 then 1 else 0 } }

/-- A compress (1) or decompress (2) job (R189, R190). -/
def Dev.streamJob (d : Dev) (j : JobArgs) (kind : Nat) (run : JobArgs → JobCtx → JobEnd) : Dev :=
  let c := d.jobCtx j.ctx
  if j.reserved || decide (5 < j.ctx) || (j.first && (decide (2 < j.format) || (kind == 1 && decide (3 < j.effort)))) then d.refuseJob j jsField
  else if c.kind ≠ 0 ∧ c.ring ≠ j.ring.val then d.refuseJob j jsCtxState
  else if !d.ringOn false j.ring.val then d.refuseJob j jsStopped
  else if !j.first && c.kind != kind then d.refuseJob j jsCtxState
  else
    let start := if j.first then newStream j kind else c
    let e := atomicEnd j c (run j start)
    (d.preempt (max e.consumed e.out.length / 4096)).endJob j e

/-- JOB_COMPRESS. -/
def Dev.jobCompress (d : Dev) (j : JobArgs) : Dev := d.streamJob j 1 (compressJob d.codecVer)
/-- JOB_DECOMPRESS. -/
def Dev.jobDecompress (d : Dev) (j : JobArgs) : Dev := d.streamJob j 2 decompressJob

/-- JOB_FLUSH (R194). -/
def Dev.jobFlush (d : Dev) (j : JobArgs) : Dev :=
  let c := d.jobCtx j.ctx
  if j.reserved || decide (5 < j.ctx) then d.refuseJob j jsField
  else if c.kind = 0 then d.emptyJob j 0
  else if c.ring ≠ j.ring.val then d.refuseJob j jsCtxState
  else if !d.ringOn false j.ring.val then d.refuseJob j jsStopped
  else if c.kind ≠ 1 then d.emptyJob j (if c.kind = 2 ∧ c.inf.phase = 5 then 0 else jsData)
  else if c.total = 0 then d.emptyJob j 0
  else
    let l := flushBits c
    if j.room < l.length / 8 then d.endJob j (atomicEnd j c (c.idle (jobNoRoom j)))
    else d.endJob j (compressEnd 0 l [] 0 c true)

/-- Octets of a context image (R197). -/
def imageLen : Nat := 33856

/-- The coder state of a context image. The manual fixes its size; its inside is the firmware's. -/
def coderState (fw : Nat) (c : JobCtx) : Bytes :=
  sliceZ (leBytes 2 fw ++ [b8 c.effort, b8 (b2n c.headerOwed), b8 c.pendBits.length] ++
    leBytes 1 ((List.zipWith (fun (b : Bool) (i : Nat) => b2n b * 2 ^ i) c.pendBits (List.range 8)).sum) ++
    leBytes 4 c.wrapCheck ++ leBytes 2 c.history.length ++ [b8 c.inf.phase, b8 c.inf.bitOff, b8 (b2n c.inf.last)] ++
    leBytes 2 c.inf.stored ++ leBytes 2 c.inf.copyLen ++ leBytes 2 c.inf.copyDist ++
    leBytes 2 c.inf.lit.length ++ leBytes 2 c.inf.dist.length ++
    (c.inf.lit ++ c.inf.dist).flatMap (leBytes 1)) 0 1024

/-- A context image without its check. -/
def ctxImage0 (fw : Nat) (c : JobCtx) : Bytes :=
  [b8 0x4D, b8 0x53, b8 0x43, b8 0x58] ++ leBytes 2 1 ++ [b8 c.kind, b8 c.format] ++ leBytes 8 c.total ++ leBytes 4 c.crc ++ zeros 44 ++
    coderState fw c ++ sliceZ c.history 0 32768

/-- The check of a context image: CRC-32C of every octet but the check itself. -/
def ctxCheck (img : Bytes) : Bytes := leBytes 4 (crc32c (img.take 60 ++ img.drop 64))

/-- A context image (R197). [DESIGN CHOICE: log 71] -/
def ctxImage (fw : Nat) (c : JobCtx) : Bytes := let i := ctxImage0 fw c; overlay i 60 (ctxCheck i)

/-- The context an image holds, where its check, version and firmware major version agree. [DESIGN CHOICE: log 71] -/
def ctxOfImage (fw ring : Nat) (img : Bytes) : Option JobCtx :=
  let get (i : Nat) : Nat := (img.getD i 0).toNat
  let k := img.drop 64
  let g (i : Nat) : Nat := (k.getD i 0).toNat
  if img.take 4 ≠ [b8 0x4D, b8 0x53, b8 0x43, b8 0x58] ∨ leAt img 4 2 ≠ 1 ∨ slice img 60 4 ≠ ctxCheck img ∨ leAt k 0 2 ≠ fw then none
  else if get 6 ≠ 1 ∧ get 6 ≠ 2 then none
  else
    let nl := leAt k 21 2
    let nd := leAt k 23 2
    some { kind := get 6, ring := ring, format := get 7, effort := g 2, total := leAt img 8 8, crc := leAt img 16 4, wrapCheck := leAt k 6 4,
           pendBits := (bitsOf [b8 (g 5)]).take (g 4), history := (img.drop 1088).take (leAt k 10 2), headerOwed := g 3 == 1,
           inf := { phase := g 12, bitOff := g 13, last := g 14 == 1, stored := leAt k 15 2, copyLen := leAt k 17 2, copyDist := leAt k 19 2,
                    lit := (slice k 25 nl).map (·.toNat), dist := (slice k (25 + nl) nd).map (·.toNat) } }

/-- JOB_SAVE_CONTEXT (R197). -/
def Dev.jobSave (d : Dev) (j : JobArgs) : Dev :=
  let c := d.jobCtx j.ctx
  if j.reserved || decide (5 < j.ctx) || decide (j.outLen < imageLen) then d.refuseJob j jsField
  else if (c.kind ≠ 1 ∧ c.kind ≠ 2) ∨ c.ring ≠ j.ring.val then d.refuseJob j jsCtxState
  else if !d.ringOn false j.ring.val then d.refuseJob j jsStopped
  else if j.room < imageLen then d.refuseJob j jsXfer
  else (d.endJob j { status := 0, out := ctxImage (d.get F.SYS_FW_major) c, total := c.total, ctx := {} }).bump F.RED_ctx_saves

/-- JOB_RESTORE_CONTEXT (R197): a check that fails leaves the context empty. -/
def Dev.jobRestore (d : Dev) (j : JobArgs) : Dev :=
  let c := d.jobCtx j.ctx
  if j.reserved || decide (5 < j.ctx) || (j.fault.isNone && decide (j.input.length < imageLen)) then d.refuseJob j jsField
  else if c.kind ≠ 0 ∧ (c.ring ≠ j.ring.val ∨ c.kind = 3) then d.refuseJob j jsCtxState
  else if !d.ringOn false j.ring.val then d.refuseJob j jsStopped
  else if j.fault.isSome then d.refuseJob j jsXfer
  else match ctxOfImage (d.get F.SYS_FW_major) j.ring.val (j.input.take imageLen) with
    | some c => (d.endJob j { status := 0, consumed := imageLen, total := c.total, ctx := c }).bump F.RED_ctx_restores
    | none => d.emptyJob j jsCtxInvalid

/-! ### Cipher jobs (R211 to R214) -/

/-- A cipher context. -/
def Dev.cipCtx (d : Dev) (n : Nat) : CipherCtx := Tab.getD d.cip.ctxs n {}
/-- Write a cipher context; an unbound one leaves the table. -/
def Dev.putCip (d : Dev) (n : Nat) (c : CipherCtx) : Dev :=
  d.onCip (fun x => { x with ctxs := if c.bound then Tab.put n c x.ctxs else Tab.del n x.ctxs })

/-- Status AUTH_FAIL. -/
def jsAuth : Nat := 0x10
/-- Status KEYS_ZEROIZED. -/
def jsZeroized : Nat := 0x11
/-- Status WRAP_REQUIRED. -/
def jsWrap : Nat := 0x12

/-- A counter block one on: all 128 bits under CTR, the low 32 under GCM. -/
def nextCounter (mode : Nat) (iv : Bytes) : Bytes := if mode = 5 then incLow 4 iv else incLow 16 iv

/-- One octet through a stream mode (CTR, CFB-128, OFB, GCM). -/
def streamByte (enc : Bool) (c : CipherCtx) (ks : Bytes) (b : Byte) : Byte × CipherCtx :=
  let o := b ^^^ ks.getD c.part.length 0
  let ct := if enc then o else b
  let part := c.part ++ [ct]
  if part.length < 16 then (o, { c with part := part })
  else
    let iv := match c.mode with | 3 => part | 4 => ks | _ => nextCounter c.mode c.iv
    (o, { c with part := [], iv := iv, ghash := if c.mode = 5 then ghash (ghashKey c.key) c.ghash part else c.ghash })

/-- Octets through a stream mode, the key stream of each block made once. -/
def streamRun (enc : Bool) : Bytes → CipherCtx → Bytes → Bytes → Bytes × CipherCtx
  | [], c, _, acc => (acc.reverse, c)
  | b :: t, c, ks, acc =>
    let r := streamByte enc c ks b
    streamRun enc t r.2 (if r.2.part.isEmpty then (if t.isEmpty then [] else aesEnc r.2.key r.2.iv) else ks) (r.1 :: acc)

/-- Data through a context's mode. -/
def cipherRun (enc : Bool) (c : CipherCtx) (bs : Bytes) : Bytes × CipherCtx :=
  if bs.isEmpty then ([], c)
  else if c.mode = 1 then
    let r := if enc then cbcEnc c.key c.iv bs else cbcDec c.key c.iv bs
    (r.1, { c with iv := r.2, dataLen := c.dataLen + bs.length })
  else
    let r := streamRun enc bs c (aesEnc c.key c.iv) []
    (r.1, { r.2 with dataLen := c.dataLen + bs.length })

/-- A stream begins (R211): mode, IV or counter; under GCM the counter after J0, and the AAD hashed. -/
def cipherStart (c : CipherCtx) (mode : Nat) (iv aad : Bytes) : CipherCtx :=
  let c := { c with mode := mode, part := [], ghash := 0, aadLen := 0, dataLen := 0, started := true }
  if mode = 5 then
    let padded := aad ++ zeros ((16 - aad.length % 16) % 16)
    { c with iv := incLow 4 (gcmJ0 (sliceZ iv 0 12)), ghash := ghash (ghashKey c.key) 0 padded, aadLen := aad.length }
  else { c with iv := sliceZ iv 0 16 }

/-- The tag a GCM stream ends with. -/
def cipherTag (c : CipherCtx) : Bytes :=
  let h := ghashKey c.key
  let acc := if c.part.isEmpty then c.ghash else ghash h c.ghash (c.part ++ zeros (16 - c.part.length))
  let s := ghash h acc (beBytes 8 (8 * c.aadLen) ++ beBytes 8 (8 * c.dataLen))
  xorBytes (beBytes 16 s) (aesEnc c.key (gcmJ0 (c.iv.take 12)))

/-- Post the end of a cipher job: context, output, completion with the wrapped flag and the tag (R211). -/
def Dev.endCipher (d : Dev) (j : CipherArgs) (status consumed : Nat) (out tag : Bytes) (c : CipherCtx) (wrapped : Bool := false) : Dev :=
  let d := d.putCip j.ctx c
  let d : Dev := if status = jsXfer then { d with nv := { d.nv with dma := faultOf j.inAddr j.outAddr j.fault j.outFault } } else d
  let d := if out.isEmpty then d else d.emit (.jobData true j.ring.val j.tag j.outAddr out)
  d.postJob true j.ring.val j.tag status j.ctx (b2n wrapped) consumed out.length tag

/-- A cipher job that ends without effect. -/
def Dev.refuseCipher (d : Dev) (j : CipherArgs) (status : Nat) : Dev := d.endCipher j status 0 [] [] (d.cipCtx j.ctx)

/-- Input octets of a data job that went through whole before a fault of the input or of the output (R28, R195); a fault that its output
does not reach is none. -/
def cipherThrough (j : CipherArgs) (aadLen dataLen : Nat) : Option Nat :=
  match j.fault, j.outFault with
  | some n, _ => some (n / 4096 * 4096)
  | none, some n => if n < dataLen then some ((aadLen + n) / 4096 * 4096) else none
  | none, none => none

/-- CIP_ENCRYPT and CIP_DECRYPT (R212, R214): the data after the AAD go through the mode; a GCM final job gives or checks the tag. -/
def Dev.cipherData (d : Dev) (j : CipherArgs) (enc : Bool) : Dev :=
  let c := d.cipCtx j.ctx
  let mode := if j.first then j.mode else c.mode
  let aadLen := if j.first && j.mode == 5 then j.aadLen else 0
  let dataLen := j.input.length - aadLen
  if j.reserved || (j.first && (j.mode == 0 || decide (5 < j.mode))) || decide (j.input.length < aadLen) then d.refuseCipher j jsField
  else if !c.bound || c.ring != j.ring.val || (!j.first && !c.started) then d.refuseCipher j jsCtxState
  else if !d.ringOn true j.ring.val then d.refuseCipher j jsStopped
  else if decide (j.outLen < dataLen) || (mode == 1 && dataLen % 16 != 0) then d.refuseCipher j jsField
  else
    let bad := cipherThrough j aadLen dataLen
    let got := bad.getD j.input.length
    let input := j.input.take got
    let begun := j.first && decide (aadLen ≤ got)
    let s := if begun then cipherStart c j.mode j.iv (input.take aadLen) else c
    let r := if j.first && !begun then ([], c) else cipherRun enc s (input.drop aadLen)
    if bad.isSome then d.endCipher j jsXfer got r.1 [] r.2
    else if !j.final_ then d.endCipher j 0 got r.1 [] r.2
    else if mode = 5 then
      let tag := cipherTag r.2
      if enc then d.endCipher j 0 got r.1 tag {}
      else d.endCipher j (if tag = sliceZ j.iv 0 16 then 0 else jsAuth) got r.1 [] {}
    else d.endCipher j 0 got r.1 [] {}

/-- The key of R205 under which context images and host keys are wrapped. -/
def wrapKey (root : Bytes) : Bytes := kdf root "MSL-WRAP" [] 256
/-- That key is used (R206). -/
def Dev.useWrap (d : Dev) (root : Bytes) : Dev := d.useKey [] (asc "MSL-WRAP") (wrapKey root)

/-- A job of the CIP rings: one that was fetched when a zeroization came ends with KEYS_ZEROIZED and its context empty (R214).
[DEDUCED: log 70] -/
def Dev.cipherJob (d : Dev) (j : CipherArgs) (f : Dev → Dev) : Dev :=
  if (d.ring true j.ring.val).zeroized = 0 then f d
  else (d.onRing true j.ring.val (fun r => { r with zeroized := r.zeroized - 1 })).endCipher j jsZeroized 0 [] [] {}

/-- CIP_LOAD_KEY (R213): a clear, a wrapped or a label's key. -/
def Dev.cipherLoad (d : Dev) (j : CipherArgs) : Dev :=
  let c := d.cipCtx j.ctx
  let len := (if j.aes256 then 32 else 16) + (if j.wrapped then 8 else 0)
  let bound (k : Bytes) (label : Bool) : CipherCtx := { bound := true, ring := j.ring.val, key := k, fromLabel := label }
  if j.reserved || decide (256 < j.keyLabel) || (j.keyLabel == 0 && j.fault.isNone && decide (j.input.length < len)) ||
    (j.keyLabel != 0 && (d.img.label? j.keyLabel).isNone) then d.refuseCipher j jsField
  else if c.bound && c.ring != j.ring.val then d.refuseCipher j jsCtxState
  else if !d.ringOn true j.ring.val then d.refuseCipher j jsStopped
  else if j.keyLabel ≠ 0 then
    match d.cip.kRoot with
    | none => d.endCipher j jsZeroized 0 [] [] {}
    | some k =>
      let l := d.label j.keyLabel
      let key := kdf k "MSL-HOST" l.label l.bitsOf
      (d.useKey l.label (asc "MSL-HOST") key).endCipher j 0 0 [] [] (bound key true)
  else if j.fault.isSome then d.refuseCipher j jsXfer
  else if !j.wrapped then d.endCipher j 0 len [] [] (bound (j.input.take len) false)
  else match d.cip.kRoot with
    | none => d.endCipher j jsZeroized 0 [] [] {}
    | some k =>
      let d := d.useWrap k
      match keyUnwrap (wrapKey k) (j.input.take len) with
      | some key => d.endCipher j 0 len [] [] (bound key false)
      | none => d.endCipher j jsCtxInvalid 0 [] [] {}

/-- A cipher context image (R213), 128 octets; the order of its parts is the manual's, the offsets between the first octets and the
check are the model's. [DESIGN CHOICE: log 71] -/
def cipherImage (c : CipherCtx) : Bytes :=
  let body := sliceZ ([b8 0x4D, b8 0x53, b8 0x43, b8 0x43, b8 1, b8 c.mode, b8 c.key.length, b8 (b2n c.fromLabel + 2 * b2n c.started)] ++
    sliceZ c.key 0 32 ++ sliceZ c.iv 0 16 ++ sliceZ c.part 0 16 ++ [b8 c.part.length] ++ beBytes 16 c.ghash ++ leBytes 8 c.aadLen ++
    leBytes 8 c.dataLen) 0 124
  body ++ leBytes 4 (crc32c body)

/-- The context of an image. -/
def cipherOfImage (ring : Nat) (img : Bytes) : Option CipherCtx :=
  let get (i : Nat) : Nat := (img.getD i 0).toNat
  if img.take 5 ≠ [b8 0x4D, b8 0x53, b8 0x43, b8 0x43, b8 1] ∨ slice img 124 4 ≠ leBytes 4 (crc32c (img.take 124)) then none
  else some { bound := true, ring := ring, mode := get 5, key := slice img 8 (get 6), fromLabel := tb (get 7) 0, started := tb (get 7) 1,
              iv := slice img 40 16, part := slice img 56 (get 72), ghash := beAt img 73 16, aadLen := leAt img 89 8, dataLen := leAt img 97 8 }

/-- CIP_SAVE_CONTEXT (R213): in the clear, or wrapped; a context from a label only wrapped. -/
def Dev.cipherSave (d : Dev) (j : CipherArgs) : Dev :=
  let c := d.cipCtx j.ctx
  let len := if j.wrapped then 136 else 128
  if j.reserved || decide (j.outLen < len) then d.refuseCipher j jsField
  else if !c.bound || c.ring != j.ring.val then d.refuseCipher j jsCtxState
  else if !d.ringOn true j.ring.val then d.refuseCipher j jsStopped
  else if j.outFault.any (fun n => decide (n < len)) then d.refuseCipher j jsXfer
  else if !j.wrapped then
    if c.fromLabel then d.refuseCipher j jsWrap
    else (d.endCipher j 0 0 (cipherImage c) [] {}).bump F.CIP_ctx_saves
  else match d.cip.kRoot with
    | none => d.endCipher j jsZeroized 0 [] [] {}
    | some k => ((d.useWrap k).endCipher j 0 0 (keyWrap (wrapKey k) (cipherImage c)) [] {} true).bump F.CIP_ctx_saves

/-- CIP_RESTORE_CONTEXT (R213). -/
def Dev.cipherRestore (d : Dev) (j : CipherArgs) : Dev :=
  let c := d.cipCtx j.ctx
  let len := if j.wrapped then 136 else 128
  let take (d : Dev) (img : Option Bytes) : Dev := match img.bind (cipherOfImage j.ring.val) with
    | some c => (d.endCipher j 0 len [] [] c).bump F.CIP_ctx_restores
    | none => d.endCipher j jsCtxInvalid 0 [] [] {}
  if j.reserved || (j.fault.isNone && decide (j.input.length < len)) then d.refuseCipher j jsField
  else if c.bound && c.ring != j.ring.val then d.refuseCipher j jsCtxState
  else if !d.ringOn true j.ring.val then d.refuseCipher j jsStopped
  else if j.fault.isSome then d.refuseCipher j jsXfer
  else if !j.wrapped then take d (some (j.input.take len))
  else match d.cip.kRoot with
    | none => d.endCipher j jsZeroized 0 [] [] {}
    | some k => take (d.useWrap k) (keyUnwrap (wrapKey k) (j.input.take len))

/-! ### Held jobs, status, resets -/

/-- The ring a job's descriptor lies on: whether of the CIP service, and its number. -/
def jobRing (c : Instr) : Option (Bool × Nat) :=
  match c with
  | .jobCompress j | .jobDecompress j | .jobFlush j | .jobSaveContext j | .jobRestoreContext j => some (false, j.ring.val)
  | .cipEncrypt j | .cipDecrypt j | .cipLoadKey j | .cipSaveContext j | .cipRestoreContext j => some (true, j.ring.val)
  | _ => none

/-- The job of a command that its ring has fetched. -/
def Dev.runJob (d : Dev) (c : Instr) : Dev :=
  match c with
  | .jobCompress j => d.jobCompress j
  | .jobDecompress j => d.jobDecompress j
  | .jobFlush j => d.jobFlush j
  | .jobSaveContext j => d.jobSave j
  | .jobRestoreContext j => d.jobRestore j
  | .cipEncrypt j => d.cipherJob j (fun d => d.cipherData j true)
  | .cipDecrypt j => d.cipherJob j (fun d => d.cipherData j false)
  | .cipLoadKey j => d.cipherJob j (fun d => d.cipherLoad j)
  | .cipSaveContext j => d.cipherJob j (fun d => d.cipherSave j)
  | .cipRestoreContext j => d.cipherJob j (fun d => d.cipherRestore j)
  | _ => d

/-- A job of a ring runs now (R186, R417): its ring has fetched it, no earlier job of the ring waits, and no thermal drain holds host
jobs. -/
def Dev.jobRuns (d : Dev) (cip : Bool) (n : Nat) : Bool :=
  decide (0 < (d.ring cip n).fetched) && !d.pow.thermDrain && d.red.jobsHeld.all (fun x => jobRing x != some (cip, n))

/-- The host has written a job's descriptor (R186): it runs once it is fetched, in the order of its ring. [DEDUCED: log 70] -/
def Dev.submitJob (d : Dev) (c : Instr) : Dev :=
  match jobRing c with
  | none => d
  | some r =>
    if !d.pow.pcieUp then d
    else if d.jobRuns r.1 r.2 then d.wake.runJob c
    else d.onRed (fun x => { x with jobsHeld := x.jobsHeld ++ [c] })

/-- Jobs that waited for their fetch or for the end of a thermal drain run in order. -/
def Dev.releaseJobs (d : Dev) : Dev :=
  if d.pow.thermDrain || d.red.jobsHeld.isEmpty then d else
  let l := d.red.jobsHeld
  l.foldl (fun (d : Dev) c => d.submitJob c) (d.onRed (fun r => { r with jobsHeld := [] }))

/-- The rings, contexts and jobs of both services go (R198, R214): a function-level reset, or any reset of the head. -/
def Dev.resetJobs (d : Dev) : Dev :=
  let ringBlock (e : Nat × Nat) : Bool :=
    let o := e.1 / 64
    (decide (0x201000 ≤ o) && decide (o < 0x201100)) || (decide (0x241000 ≤ o) && decide (o < 0x241080))
  let d : Dev := { d with regs := d.regs.filter (fun e => !ringBlock e) }
  (d.onRed (fun r => { r with ctxs := r.ctxs.filter (fun e => decide (5 < e.1)), rings := [], jobsHeld := [] })).onCip
    (fun c => { c with ctxs := [], rings := [] })

/-- RED_STAT, RED_CTXn, RED_RINGn_STAT, CIP_STAT.ctx_busy, CIP_RINGn_STAT follow. -/
def Dev.settleJobs (d : Dev) : Dev :=
  let d := d.releaseJobs
  let busy := (List.range 8).filter (fun n => (d.jobCtx n).kind != 0)
  let on_ := (List.range 4).filter (fun n => d.ringOn false n && !d.ringFault false n)
  let coded := d.img.ns.any (fun n => d.owns n.poolId && (d.ns n.nsid).codeReduce)
  let d := ((d.set F.RED_STAT_ctx_busy (busy.map (2 ^ ·)).sum).set F.RED_STAT_rings_on (on_.map (2 ^ ·)).sum).setB F.RED_STAT_reduce_active coded
  let d := (List.range 8).foldl (fun (d : Dev) n =>
    let c := d.jobCtx n
    (((d.set (F.RED_CTX_STAT_state.at n) (if 5 < n ∧ c.kind = 0 ∧ d.up then 4 else c.kind)).set (F.RED_CTX_STAT_bits_pending.at n) c.pendBits.length).set
      (F.RED_CTX_STAT_ring.at n) c.ring).set (F.RED_CTX_TOTAL_stream_total.at n) c.total) d
  let d := (List.range 4).foldl (fun (d : Dev) n =>
    (d.setB (F.RED_RING_STAT_cq_full.at n) (d.ringOn false n && d.ringFull false n)).setB (F.RED_RING_STAT_busy.at n)
      (decide (0 < (d.ring false n).fetched))) d
  let d := (List.range 2).foldl (fun (d : Dev) n =>
    (d.setB (F.CIP_RING_STAT_cq_full.at n) (d.ringOn true n && d.ringFull true n)).setB (F.CIP_RING_STAT_busy.at n)
      (decide (0 < (d.ring true n).fetched))) d
  d.set F.CIP_STAT_ctx_busy ((d.cip.ctxs.filter (fun e => e.2.bound)).map (fun e => 2 ^ e.1)).sum

end Sys2Proof.Machine
end

