-- ==== Sys2Proof/Machine/Sim.lean ====
section
/-! DEFINITION. The structural image on the running device: what validation reads of the head (R61, R65), submission, staging and the
peer's digest (R69, R70), activation and its switch step (R68, R71 to R75), discard (R78), and the elements that wait for both heads
(R74). -/
namespace Sys2Proof.Machine

/-! ### What validation reads (R61, R65) -/

/-- Change the image state. -/
def Dev.onSim (d : Dev) (f : SimState → SimState) : Dev := { d with sim := f d.sim }

/-- Major version of the running firmware; ROM's own where none runs. -/
def Dev.fwMajor (d : Dev) : Nat := if d.get F.SYS_FW_major = 0 then Config.romMajor else d.get F.SYS_FW_major

/-- Locations of a namespace that are live: open content, latest closed Cairn (R307), retained Cairns (R370). [DEDUCED: log 58] -/
def Ns.liveLocs (x : Ns) : List Loc :=
  x.map.map (·.2) ++ x.under.map (·.2) ++ (x.epoch.filter (fun b => !x.superseded b)).map (·.loc) ++ x.closedMap.map (·.2) ++ x.retMaps.flatMap (fun (e : Nat × Tab Loc) => e.2.map (·.2))

/-- A live slot of a namespace is sealed under a label (R65, code 0x0048). -/
def Dev.sealedNs (d : Dev) (nsid label : Nat) : Bool :=
  List.any d.stg.slots (fun (e : Nat × Staged) => e.2.nsid == nsid && descSealed e.2.desc && e.2.desc.keyLabel == label) ||
  (d.ns nsid).liveLocs.any (fun l => (d.locSlot (d.poolOf nsid) l).any (fun x => descSealed x.1 && x.1.keyLabel == label))

/-- One more than the highest mapped block of a namespace. -/
def Ns.mappedEnd (x : Ns) : Nat :=
  x.map.foldl (fun a (e : Nat × Loc) => if e.2 == .dealloc then a else max a (e.1 + 1)) 0

/-- What validation reads of the head besides the image. -/
def Dev.imgCtx (d : Dev) (fu : Fuses) (supplied : Option Nat) (runtime : Bool) : ImgCtx :=
  { ownerHash := fu.ownerHash
    fwMajor := d.fwMajor
    supplied := supplied
    active := d.sim.active
    runtime := runtime
    dieMbs := fun m den => (d.recOf m).map (fun r => r.programMbs.getD (den - 1) 0)
    dieBytes := fun m den kib => (d.recOf m).map (fun r => (r.blocks - 1) * modPages r den * kib * 1024)
    mappedEnd := fun n => (d.ns n).mappedEnd
    retainedIn := fun n => !(d.ns n).retained.isEmpty
    reshapeBusy := fun p => (d.pool p).reshape.any (fun r => decide (0 < r.position))
    horizon := fun w => (d.win w).horizon
    recorded := fun p =>
      let g := ((d.pool p).data, (d.pool p).parity)
      let declared := (d.sim.active.bind (fun m => m.pool? p)).map (fun r => (r.dataMembers, r.parityMembers))
      if (d.pool p).known && declared != some g then some g else none
    pageKib := fun m => (d.recOf m).map (·.pageKib)
    sealedNs := d.sealedNs
    sealedLabel := fun l => d.img.ns.any (fun n => d.sealedNs n.nsid l) }

/-! ### Copies in boot flash (R66, R70) -/

/-- An image copy of boot flash. -/
def BootFlash.copy (b : BootFlash) (i : Nat) : ImgCopy := if i = 0 then b.copy0 else b.copy1
/-- Write an image copy. -/
def BootFlash.setCopy (b : BootFlash) (i : Nat) (c : ImgCopy) : BootFlash := if i = 0 then { b with copy0 := c } else { b with copy1 := c }
/-- Write an image copy of the device. -/
def Dev.setCopy (d : Dev) (i : Nat) (c : ImgCopy) : Dev := { d with boot := d.boot.setCopy i c }
/-- The copy that is not active. -/
def Dev.otherCopy (d : Dev) : Nat := 1 - d.sim.activeCopy

/-! ### Registers that records set (R68) -/

/-- Bounds, setting and pinned value of a loop: its LOOP_BOUNDS entry or the factory bounds (R394). -/
def Image.loop (m : Image) (n : Nat) : LoopBoundsEntry :=
  let fac : Int × Int := match n with
    | 1 => (-40, 40)
    | 2 => (10, 100)
    | 3 => (5, 500)
    | 4 => (100, 100000)
    | _ => (975, 3900)
  ((m.loopBounds.flatMap (·.entries)).find? (fun e => e.loop == n)).getD { loop := n, lower := fac.1, upper := fac.2 }

/-- Load the registers of one loop. -/
def Dev.loadLoop (d : Dev) (m : Image) (n : Nat) : Dev :=
  let e := m.loop n
  ((((d.set (F.WDT_LOOP_STAT_pinned.at (n - 1)) (b2n (e.setting != 0))).setI (F.WDT_LOOP_LOWER_lower.at (n - 1)) e.lower).setI
    (F.WDT_LOOP_UPPER_upper.at (n - 1)) e.upper).setI (F.WDT_LOOP_PIN_pin.at (n - 1)) e.pinned)

/-- Load the registers of one port; a port no record names is disabled. -/
def Dev.loadPort (d : Dev) (m : Image) (n : Nat) : Dev :=
  let e := ((m.portBreakout.filter (fun r => r.head == d.headNo)).flatMap (·.entries)).find? (fun e => e.port == n)
  let e := e.getD { port := n }
  (((d.set (F.NET_P_CFG_split.at n) e.split).setB (F.NET_P_CFG_enabled.at n) (tb e.portFlags 0)).set
    (F.NET_P_CFG_pfc_mask.at n) e.pfcMask)

/-- Load every register that a record sets (R68). -/
def Dev.loadRegs (d : Dev) (m : Image) : Dev :=
  let d := (d.set F.STG_CFG_budget_mib m.tunablesD.dirtyBudgetMib).set F.STG_CFG_own_mib (m.ownMib d.headNo)
  let d := (d.set F.FLX_CFG_ers_susp_max m.tunablesD.ersSuspMax).set F.FTL_CFG_wl_spread m.tunablesD.wlSpread
  let d := (d.set F.FTL_CFG_spare_ro_pm m.floorsD.spareRoPermille).set F.SYS_MODE_CTL_rbld_floor m.floorsD.rbldFloorPct
  let d := d.set F.TMB_STAT_source (m.timeSrc d.headNo).source
  let d := [1, 2, 3, 4, 5].foldl (fun (d : Dev) n => d.loadLoop m n) d
  let d := (List.range 6).foldl (fun (d : Dev) n => d.loadPort m n) d
  if m.lockFlags.any (fun f => tb f 1) then d.set F.SYS_CFG_POLICY_policy 1 else d

/-! ### Namespaces and targets follow the image (R71, R42, R298) -/

/-- A namespace that the image adds: its first epoch is coded as R42 says. [DEDUCED: log 63] -/
def Dev.addNs (d : Dev) (n : NamespaceRec) : Dev :=
  let streams := d.img.stream.filter (fun s => s.nsid == n.nsid)
  d.onNs n.nsid (fun x => if x.epochGen != 0 then x else { x with
    epochGen := d.img.generation
    codeReduce := d.on F.SYS_MODE_REQ_reduce && (tb n.nsFlags 0 || streams.any (fun s => tb s.stFlags 0))
    codeSeal := d.on F.SYS_MODE_REQ_seal && tb n.nsFlags 1 && d.keysUsable })

/-- A namespace record without its place in the image. [DEDUCED: log 63] -/
def nsShape (n : NamespaceRec) : NamespaceRec := { n with idx := 0, off := 0 }

/-- Namespaces that two images differ in. [DEDUCED: log 55] -/
def changedNs (a m : Image) : List Nat :=
  ((a.ns.map (·.nsid)) ++ ((m.ns.map (·.nsid)).filter (fun n => (a.ns? n).isNone))).filter (fun n =>
    (a.ns? n).map nsShape != (m.ns? n).map nsShape)

/-- Controllers are told of changed namespaces, and discovery controllers of changed addresses (R154). -/
def Dev.tellNs (d : Dev) (old : Image) : Dev :=
  let l := changedNs old d.img
  let disc := old.netAddr.map (·.entries) != d.img.netAddr.map (·.entries)
  d.nv.ctrls.foldl (fun (d : Dev) (e : Nat × Ctrl) =>
    if e.2.kind == .discovery then (if disc then d.postEvent e.1 2 0xF0 0x70 else d)
    else if l.isEmpty then d
    else (d.onCtrl e.1 (fun c => { c with changedNs := c.changedNs ++ l.filter (fun n => !c.changedNs.contains n) })).postEvent e.1 2 0 4) d

/-- Replication targets follow the image: one in use that is gone is removed when its Caravan ends (R314); an idle one goes at once. -/
def Dev.targetsFollow (d : Dev) : Dev :=
  let keep (e : Nat × Caravan) : Bool := (d.img.repl? e.1).isSome || e.2.state != .idle
  { d with snp := { d.snp with cars := (List.filter keep d.snp.cars).map (fun e =>
      (e.1, { e.2 with removed := (d.img.repl? e.1).isNone })) } }

/-- Pinned loops take their new value at the switch step (R399). -/
def Dev.loopsFollow (d : Dev) : Dev :=
  let d := if !d.loopPinned 4 then d else
    let p := (d.loopPin 4).toNat
    { d with net := { d.net with wins := Tab.mapV (fun (w : Win) => { w with pace := p }) d.net.wins,
                                 qps := Tab.mapV (fun (q : Qp) => { q with pace := p }) d.net.qps } }
  if !d.loopPinned 3 then d else
    { d with fl := { d.fl with pools := Tab.mapV (fun (p : Pool) => { p with wlV := (d.loopPin 3).toNat }) d.fl.pools } }

/-- The active image becomes `m`: every record it holds is applied (R68, R71 step 3). Older images stay in force for the namespaces
whose epoch is coded under them. [DEDUCED: log 54, DEDUCED: log 55] -/
def Dev.applyImage (d : Dev) (m : Image) : Dev :=
  let old := d.img
  let used (x : Image) : Bool := List.any d.snp.nss (fun (e : Nat × Ns) => e.2.epochGen == x.generation)
  let d := d.onSim (fun s => { s with
    active := some m
    inForce := (old :: s.inForce.filter (fun x => x.generation != old.generation)).filter (fun x => x.generation != m.generation && used x) })
  let d : Dev := { d with snp := { d.snp with nss := List.filter (fun (e : Nat × Ns) => (m.ns? e.1).isSome) d.snp.nss } }
  let d := m.ns.foldl (fun (d : Dev) n => d.addNs n) (d.loadRegs m)
  let d := ((d.windowsFollow old).recomputeSpans).targetsFollow
  let d := if m.loopBounds.map (·.entries) == old.loopBounds.map (·.entries) then d else d.loopsFollow
  let d := (List.range 4).foldl (fun (d : Dev) i =>
    let shape (x : Image) := (x.trig? d.headNo i).map (fun r => { r with idx := 0, off := 0 })
    if shape old == shape m then d else d.loadTrig i) d
  let d := m.stream.foldl (fun (d : Dev) s =>
    if s.timerCairnMs ≠ 0 ∧ !((m.ns? s.nsid).any (fun n => tb n.nsFlags 3)) then d.event 15 .timerCairnIgnored [s.streamId] else d) d
  d.tellNs old

/-! ### Submission (R65, R69, R70) -/

/-- A validation or activation ends with a code (SIM_ERR). [DEDUCED: log 12] -/
def Dev.simFails (d : Dev) (k : EvKind) (code record offset : Nat) : Dev :=
  ((((d.set F.SIM_ERR_code code).set F.SIM_ERR_record record).set F.SIM_ERR_OFF_offset offset).event 22 k [code, record, offset]).raise 3

/-- A takeover, a transfer or a Wadi drain is under way. -/
def Dev.ownershipBusy (d : Dev) : Bool :=
  d.head.phase == .takeover || d.head.phase == .giving || d.head.phase == .taking || d.pow.drainGate

/-- SIM_STATUS.state (R78). -/
def Dev.simState (d : Dev) : Nat :=
  let s := d.sim
  if s.sub.isSome || s.own.isSome then 1
  else if s.staged.isNone then 0
  else if s.armed then 6
  else if s.live then (if s.waiting then 4 else 2) else 3

/-- SIM_SUBMIT (R65 item 1, R69, R70): refused while boot_only is active or the head is busy; else the image is copied. What the management
port supplies next counts from this submit on, however it ends. [DEDUCED: log 12] -/
def Dev.simSubmit (d : Dev) (region : Bytes) : Dev :=
  let high := d.sim.mgmtHigh
  let d := d.onSim (fun s => { s with mgmtHigh := 0 })
  if d.img.lockFlags.any (fun f => tb f 0) then d.simFails .imageRefused 0x0044 0 0
  else if d.ownershipBusy || d.simState = 1 then d.simFails .imageRefused 0x0045 0 0
  else if d.get F.SIM_SRC_source = 0 then
    d.onSim (fun s => { s with sub := some (sliceZ region 0 (min (leAt region 8 4) 4194304), none) })
  else d.onSim (fun s => { s with sub := some (sliceZ s.mgmtImage 0 high, some high) })

/-- The image is staged (R70, R71, R74): it replaces one that has not reached its switch step, and its copy is being written. [DEDUCED: log 56, DESIGN CHOICE: log 73] -/
def Dev.stage (d : Dev) (m : Image) (noPeer : Bool) : Dev :=
  let d := d.onSim (fun s => { s with own := none, peer := none, staged := some m, live := s.active.any (fun a => sameLoadOnly a m),
                                      onFlash := false, waiting := false, armed := false })
  (((d.setCopy d.otherCopy {}).setB F.SIM_STATUS_no_peer noPeer).event 22 .imageStaged [m.generation]).raise 3

/-- IMAGE_VALIDATION_DONE (R61, R70): the submission fails with its code, or its digest goes to the peer. -/
def Dev.validationDone (fu : Fuses) (d : Dev) : Dev :=
  match d.sim.sub with
  | none => d
  | some (b, sup) =>
    let d := d.onSim (fun s => { s with sub := none })
    match validateImage (d.imgCtx fu sup true) b true with
    | .error e =>
      let d := (d.onSim (fun s => { s with peer := none })).simFails .imageRefused e.code e.record e.offset
      if d.peerUp then d.peerSend (.digest (leAt b 16 8) (sha384 b) false) else d
    | .ok m =>
      let d := d.onSim (fun s => { s with own := some m })
      if d.peerUp then d.peerSend (.digest m.generation m.digest true) else d

/-- A validated image is staged once the peer holds it with an equal digest, or with no peer in service; another answer refuses it. A
digest of a generation below the image's own answers an earlier submission. [DEDUCED: log 56] -/
def Dev.settleDigest (d : Dev) : Dev :=
  match d.sim.own with
  | none => d
  | some m =>
    if d.sim.active.any (fun a => decide (m.generation ≤ a.generation)) then
      (d.onSim (fun s => { s with own := none, peer := none })).simFails .imageRefused 0x0008 0 16
    else if !d.peerUp then d.stage m true
    else match d.sim.peer with
      | none => d
      | some (g, x, ok) =>
        if g < m.generation then d.onSim (fun s => { s with peer := none })
        else if ok && g == m.generation && x == m.digest then d.stage m false
        else (d.onSim (fun s => { s with own := none, peer := none })).simFails .imageRefused 0x0046 0 0

/-! ### Activation (R71 to R74) -/

/-- The copy of the staged image is armed for reset (R74). -/
def Dev.armStaged (d : Dev) (m : Image) : Dev :=
  ((d.setCopy d.otherCopy { state := .armed, bytes := m.bytes }).onSim (fun s => { s with armed := true, waiting := false })).raise 3

/-- The switch step (R71, R72): the copy's state word, the records, the CRC reference. A state word that cannot be programmed leaves
everything as it was. [DEDUCED: log 56] -/
def Dev.switchStep (d : Dev) (ok : Bool) : Dev :=
  match d.sim.staged with
  | none => d
  | some m =>
    if !ok then (d.onSim (fun s => { s with waiting := false })).simFails .imageRefused 0x0047 0 0
    else
      let d := (d.setCopy d.otherCopy { state := .active, bytes := m.bytes }).onSim (fun s => { s with
        activeCopy := 1 - s.activeCopy, staged := none, onFlash := false, waiting := false })
      let d := (d.applyImage m).refAll
      let d := ({ d with cfg := { d.cfg with touchedAt := [] } } : Dev).set F.SYS_CFG_TOUCHED_blocks 0
      (d.event 22 .activated [m.generation]).raise 3

/-- A staged-live image that waits, and is on flash, switches at the close of a Cairn of namespace `n`. -/
def Dev.switchesAt (d : Dev) (n : Nat) : Bool :=
  d.simState == 4 && d.sim.onFlash && (d.get F.SIM_ACT_NS_anchor_nsid == 0 || d.get F.SIM_ACT_NS_anchor_nsid == n)

/-- Where no Cairn can close, the activation point is the pulse itself (R73). -/
def Dev.switchNow (d : Dev) (ok : Bool) : Dev :=
  if d.switchesAt 0 && d.img.ns.isEmpty && d.get F.SIM_ACT_NS_anchor_nsid == 0 then d.switchStep ok else d

/-- SIM_ACTIVATE (R71, R73, R74). A command that arrives during a power-state entry reverses it. -/
def Dev.simActivate (d : Dev) (ok : Bool) : Dev :=
  let d := d.wake
  match d.sim.staged with
  | none => d.event 22 .nothingStaged
  | some m =>
    if d.sim.armed then d.event 22 .nothingStaged
    else if d.sim.live then
      let a := d.get F.SIM_ACT_NS_anchor_nsid
      if a ≠ 0 ∧ (d.img.ns? a).isNone then d.simFails .anchorUnknown 0x0049 0 0
      else (d.onSim (fun s => { s with waiting := true })).switchNow ok
    else if !d.sim.onFlash then d.onSim (fun s => { s with waiting := true })
    else if ok then d.armStaged m
    else d.simFails .imageRefused 0x0047 0 0

/-- STAGED_COPY_WRITTEN (R70, R72). -/
def Dev.stagedWritten (d : Dev) (ok : Bool) : Dev :=
  match d.sim.staged with
  | none => d
  | some m =>
    if d.sim.onFlash || d.sim.armed then d
    else if !ok then
      (d.onSim (fun s => { s with staged := none, waiting := false })).simFails .imageRefused 0x0047 0 0
    else
      let d := (d.setCopy d.otherCopy { state := .staged, bytes := m.bytes }).onSim (fun s => { s with onFlash := true })
      if !d.sim.live && d.sim.waiting then d.armStaged m else d.switchNow true

/-- ACTIVATION_WAIT_EVENT (R73). -/
def Dev.activationWait (d : Dev) : Dev := if d.simState = 4 then d.event 22 .activationWaits else d

/-- SIM_DISCARD (R78). -/
def Dev.simDiscard (d : Dev) : Dev :=
  let st := d.simState
  if st = 2 ∨ st = 3 ∨ st = 4 then
    ((d.setCopy d.otherCopy {}).onSim (fun s => { s with staged := none, onFlash := false, waiting := false })).event 22 .imageDiscarded
  else if st = 6 then
    ((d.setCopy d.otherCopy { d.boot.copy d.otherCopy with state := .cleared }).onSim (fun s => { s with staged := none, armed := false })).event
      22 .imageDiscarded
  else d.event 22 .discardIdle

/-! ### Elements that wait for both heads (R74) -/

/-- What of an image is in service while the peer runs `old`: shared elements that it adds stay inactive. -/
def Image.within (m old : Image) : Image :=
  { m with
    pool := m.pool.filter (fun p => (old.pool? p.poolId).isSome)
    target := m.target.filter (fun t => (old.pool? t.poolId).isSome)
    ns := m.ns.filter (fun n => (old.ns? n.nsid).isSome)
    stream := m.stream.filter (fun s => (old.stream? s.streamId).isSome)
    window := m.window.filter (fun w => (old.window? w.windowId).isSome)
    replTarget := m.replTarget.filter (fun t => (old.repl? t.targetId).isSome) }

/-- The heads run different generations (SIM_STATUS.roll). -/
def Dev.roll (d : Dev) : Bool :=
  d.on F.HHL_STAT_peer_in_service && d.sim.active.isSome && (d.head.peerHb.any (fun h => h.generation != d.img.generation))

/-- Until the peer is heard with an image as new as this head's, or is lost, added elements stay inactive; afterwards they come in (R74). -/
def Dev.settleRoll (d : Dev) : Dev :=
  match d.sim.full with
  | some (m, old) =>
    let older := !d.head.lost && (match d.head.peerHb with
      | some h => decide (h.generation < m.generation)
      | none => true)
    let want := if older then m.within old else m
    let d := if want == d.img then d else (d.applyImage want).refAll
    if older || d.sim.active.isNone then d else d.onSim (fun s => { s with full := none })
  | none => d

/-- A head whose generation is older than its peer's has the peer's active image (R74): it validates it and arms it for its own rolled
reset. What the packet that carries the octets looks like is open. [DESIGN CHOICE: log 115] -/
def Dev.takeOffered (fu : Fuses) (d : Dev) : Dev :=
  match d.sim.offered with
  | none => d
  | some b =>
    let d := d.onSim (fun s => { s with offered := none })
    match validateImage (d.imgCtx fu none true) b true with
    | .error e => d.simFails .imageRefused e.code e.record e.offset
    | .ok m => (d.onSim (fun s => { s with staged := some m, live := false, onFlash := true })).armStaged m

/-- The image side after every command: staging, elements in service, the firmware and epoch an open Cairn waits for. -/
def Dev.settleSim (d : Dev) : Dev := d.settleDigest.settleRoll

/-! ### A Cairn's close and what waits on it (R299 step 6) -/

/-- CAIRN_CLOSE: the close, then activation and switch-over (R71, R292). -/
def Dev.cairnClose (d : Dev) (nsid : Nat) (stateWordOk : Bool) : Dev :=
  match d.closable nsid with
  | none => d
  | some p =>
    let d := d.closeCairn nsid p
    let d := if d.switchesAt nsid then d.switchStep stateWordOk else d
    let d := d.onNs nsid (fun x => { x with epochGen := d.img.generation })
    d.switchOver (d.poolOf nsid)

end Sys2Proof.Machine
end

