-- ==== Sys2Proof/Machine/Obs.lean ====
section
/-! DEFINITION. Event recorder, event counters and trace as software drives them (R452 to R459). -/
namespace Sys2Proof.Machine

/-- Change the event recorder. -/
def Dev.onEvr (d : Dev) (f : EvrState → EvrState) : Dev := { d with evr := f d.evr }

/-- EVR_FLUSH (R452). [DEDUCED: log 77] -/
def Dev.evrFlush (d : Dev) : Dev := (d.bump F.EVR_flushes).flushEvents

/-- EVENT_FLUSH_TIMER (R452): 10 s after the oldest waiting record. -/
def Dev.evrTimer (d : Dev) : Dev := if d.evr.buffer.isEmpty then d else d.evrFlush

/-- EVR_CLEAR (R453): with its key the area is erased and EVR_DROPPED returns to 0. [DEDUCED: log 77] -/
def Dev.evrClear (d : Dev) (key : Nat) : Dev :=
  if key ≠ 0xC1EA then d.event 18 .clearWithoutKey [key]
  else ({ d with boot := { d.boot with area := [], areaDropped := 0 } } : Dev).onEvr (fun e => { e with clearing := true })

/-- EVR_CLEAR_DONE (R453): the clear is the first record of the new area; what waited in the buffer is still there, and a flush asked for
meanwhile appends it now. -/
def Dev.evrClearDone (d : Dev) : Dev :=
  if !d.evr.clearing then d else
  let held := d.evr.buffer
  let d := (d.onEvr (fun e => { e with buffer := [], clearing := false })).event 18 .areaCleared
  let first := d.boot.area ++ d.evr.buffer
  let d' : Dev := ({ d with boot := { d.boot with area := first } } : Dev).onEvr (fun e => { e with buffer := held })
  if d'.evr.flushing then d'.flushEvents else d'

/-- EVR_RD_IDX_WRITE (R457): the named record is fetched. -/
def Dev.evrIndex (d : Dev) (index : Nat) : Dev :=
  (d.set F.EVR_RD_IDX_index index).onEvr (fun e => { e with ready := false, window := none })

/-- EVR_RECORD_FETCHED (R457): the window holds the record, counted from the oldest of the area on into the buffer. -/
def Dev.evrFetched (d : Dev) : Dev :=
  let i := d.get F.EVR_RD_IDX_index
  d.onEvr (fun e => { e with ready := true, window := (d.boot.area ++ e.buffer)[i]? })

/-! ### Counters (R454, R458) -/

/-- Instances a source has: the counter's own, or one for the events of a block; none where no such source exists. -/
def sourceInsts (source : Nat) : Option Nat :=
  let block := source / 64
  let item := source % 64
  if 22 < block then none
  else if item = 63 then some 1
  else (regMap.find? (fun f => f.block == block && f.item == some item)).map (·.count)

/-- CNT_SEL_WRITE (R454, R458): a source or instance that does not exist is a reserved encoding; a new selection zeroes the counter. -/
def Dev.cntSelect (d : Dev) (i : Nat) (v : Nat) : Dev :=
  let old := d.cnt.sel.getD i 0xFF0000
  let s := bits v 10 0
  let n := bits v 23 16
  let sOk := (sourceInsts s).isSome
  let src := if sOk then s else bits old 10 0
  let nOk := n == 0xFF || (match sourceInsts src with | some c => decide (n < c) | none => false)
  let new := src + 65536 * (if nOk then n else bits old 23 16)
  let d := if sOk then d else d.event 19 .reservedEncoding [F.CNT_SEL_source.off + 4 * i, v]
  let d := if nOk then d else d.event 19 .reservedEncoding [F.CNT_SEL_instance.off + 4 * i, v]
  if new = old then d
  else ({ d with cnt := { sel := d.cnt.sel.set i new, val := d.cnt.val.set i 0 } } : Dev).touch 19

/-- CNT_CLEAR_ALL (R458). -/
def Dev.cntClear (d : Dev) : Dev := { d with cnt := { d.cnt with val := List.replicate 256 0 } }

/-- TRC_CLEAR (R459). -/
def Dev.trcClear (d : Dev) : Dev := { d with trc := { d.trc with held := [], stopped := false } }

/-- CONTROL_SUMMARY_SNAPSHOT (R439): snap_seq moves on by two, even again when the copies are whole. -/
def Dev.snapshot (d : Dev) (copies : List Nat) : Dev := { d with snapSeq := (d.snapSeq + 2) % 2 ^ 32, summary := copies }

end Sys2Proof.Machine
end

