-- ==== Sys2Proof/Machine/Fwu.lean ====
section
/-! DEFINITION. Firmware images, their slots and the update procedure (R440 to R449). -/
namespace Sys2Proof.Machine

/-! ### Firmware images and slots (R441, R442) -/

/-- fw_minor of a firmware image. -/
def fwMinorOf (b : Bytes) : Nat := leAt b 4 2
/-- fw_major of a firmware image. -/
def fwMajorOf (b : Bytes) : Nat := leAt b 6 2
/-- security_version of a firmware image. -/
def fwSecurityOf (b : Bytes) : Nat := leAt b 8 2
/-- settings_format of a firmware image. -/
def fwFormatOf (b : Bytes) : Nat := leAt b 10 2
/-- image_len of a firmware image. -/
def fwLenOf (b : Bytes) : Nat := leAt b 12 4

/-- What is wrong with a firmware image (R441, R444): 7 magic, part, length, CRC or signature; 8 security version; 0 nothing. -/
def fwFault (minSecurity : Nat) (b : Bytes) : Nat :=
  let len := fwLenOf b
  let sg := slice b (len - 96) 96
  let sound := slice b 0 4 == [0x4D, 0x53, 0x46, 0x57] && leAt b 18 2 == 0x9400 && decide (356 ≤ len) && decide (len ≤ 16777216) &&
    b.length == len && leAt b (len - 100) 4 == crc32c (b.take (len - 100)) &&
    ecdsaVerify Config.firmwareKey.1 Config.firmwareKey.2 (leNat (sg.take 48)) (leNat (sg.drop 48)) (sha384 (b.take (len - 96)))
  if !sound then 7 else if fwSecurityOf b < minSecurity then 8 else 0

/-- A firmware slot of boot flash. -/
def BootFlash.slot (b : BootFlash) (i : Nat) : FwSlot := if i = 0 then b.fw0 else b.fw1
/-- Write a firmware slot. -/
def Dev.setSlot (d : Dev) (i : Nat) (s : FwSlot) : Dev :=
  { d with boot := if i = 0 then { d.boot with fw0 := s } else { d.boot with fw1 := s } }
/-- FWU_SLOTn_STAT.state of a slot. -/
def SlotState.code : SlotState → Nat
  | .empty => 0
  | .invalid => 1
  | .valid => 2
  | .active => 3
  | .armed => 4

/-- The slot running. -/
def Dev.runSlot (d : Dev) : Nat := d.get F.FWU_STAT_active_slot

/-- The slot that a new firmware image goes to: the one not active; in recovery one that fails R441, or slot 0 when both fail. -/
def Dev.freshSlot (fu : Fuses) (d : Dev) : Nat :=
  if d.pow.run != .rom then 1 - d.runSlot
  else if fwFault fu.minSecurity d.boot.fw0.bytes != 0 then 0
  else if fwFault fu.minSecurity d.boot.fw1.bytes != 0 then 1
  else 1 - d.runSlot

/-- The slot of the update: the one being written since its first chunk. -/
def Dev.targetSlot (fu : Fuses) (d : Dev) : Nat := d.fwu.slot.getD (d.freshSlot fu)

/-- The image copy that a structural image is written to: never the active one. -/
def Dev.targetCopy (d : Dev) : Nat := if d.sim.active.isSome then d.otherCopy else if d.boot.copy0.state == .active then 1 else 0

/-! ### State and result (R245, R444, R456) -/

/-- Change the update state. -/
def Dev.onFwu (d : Dev) (f : FwuState → FwuState) : Dev := { d with fwu := f d.fwu }

/-- FWU_STAT.state becomes `st`; the peer is told of a change. -/
def Dev.fwuState (d : Dev) (st : Nat) : Dev :=
  if d.get F.FWU_STAT_state = st then d
  else
    let d := d.set F.FWU_STAT_state st
    if d.on F.HHL_STAT_link_up then d.peerSend (.fwu d.fwuPeer) else d

/-- A chunk or a commit is refused (R444). -/
def Dev.fwuRefuse (d : Dev) (code : Nat) (img : Nat := 0) : Dev :=
  (((d.set F.FWU_STAT_result code).set F.FWU_STAT_img_err (if code = 6 then img else 0)).bump F.FWU_refusals).event 21 .fwuRefused [code, img]

/-- The refusals common to chunk and commit, in the order of R444; none applies in recovery. -/
def Dev.fwuBarred (d : Dev) : Nat :=
  if d.pow.run == .rom then 0
  else if !d.pins.holdupOk then 1
  else if d.ownershipBusy then 2
  else if d.on F.FWU_CTL_owner_lock then 3
  else if d.on F.HHL_STAT_peer_in_service && (d.head.store.fwu.state == 5 || d.head.store.fwu.state == 6) then 4
  else if d.mode 6 then 5
  else 0

/-- The active image under another firmware's major version (R77): steps 1 to 24, the run-time steps left out. -/
def Dev.imageUnder (fu : Fuses) (d : Dev) (major : Nat) (b : Bytes) : Option ImgErr :=
  match validateImage { d.imgCtx fu none false with fwMajor := major } b false with
  | .ok _ => none
  | .error e => some e

/-! ### Chunks (R443) -/

/-- Octets of the target received so far. -/
def Dev.fwuGot (fu : Fuses) (d : Dev) (img : Bool) : Bytes := if img then d.fwu.imgBytes else (d.boot.slot (d.targetSlot fu)).bytes

/-- image_len of a target, once its header has arrived; until then its limit. -/
def fwuLen (img : Bool) (b : Bytes) : Nat :=
  if img then (if b.length < 12 then imgMaxLen else min imgMaxLen (leAt b 8 4))
  else if b.length < 16 then 16777216 else min 16777216 (fwLenOf b)

/-- The first chunk of a target, at offset 0: the slot is erased and marked invalid, or the copy is given up. -/
def Dev.fwuRestart (fu : Fuses) (d : Dev) (img : Bool) : Dev :=
  if img then
    let d := (d.setCopy d.targetCopy {}).onFwu (fun f => { f with imgBytes := [], imgDone := false })
    if d.sim.staged.isSome then (d.onSim (fun s => { s with staged := none, onFlash := false, waiting := false, armed := false })).event 22
      .imageDiscarded else d
  else (d.setSlot (d.freshSlot fu) { state := .invalid, bytes := [] }).onFwu (fun f => { f with slot := some (d.freshSlot fu) })

/-- FWU_CHUNK (R443, R444). In recovery the chunk comes from the recovery download area (R448). [DEDUCED: log 72] -/
def Dev.fwuChunk (fu : Fuses) (d : Dev) (area : Bytes) : Dev :=
  let img := d.on F.FWU_SRC_target
  let off := d.get F.FWU_CHUNK_OFF_off_4k * 4096
  let len := d.get F.FWU_CHUNK_LEN_len
  let data := sliceZ (if d.on F.FWU_SRC_source then d.sim.mgmtFw else area) 0 len
  let st := d.get F.FWU_STAT_state
  let got := if off = 0 then [] else d.fwuGot fu img
  if d.fwuBarred ≠ 0 then d.fwuRefuse d.fwuBarred
  else if st = 5 ∨ st = 6 ∨ st = 2 ∨ d.get F.FWU_CHUNK_OFF_off_4k * 4096 ≠ got.length ∨ fwuLen img (got ++ data) < off + len then
    d.fwuRefuse 0x0B
  else
    let d := d.bump F.FWU_chunks
    if len = 0 then d
    else
      let d := if off = 0 then d.fwuRestart fu img else d
      (d.onFwu (fun f => { f with chunk := some (img, data) })).fwuState 2

/-- A firmware image is whole: it is verified as ROM does, and its slot becomes valid (R443). -/
def Dev.fwuVerify (fu : Fuses) (d : Dev) (b : Bytes) : Dev :=
  let e := fwFault fu.minSecurity b
  if e ≠ 0 then (d.fwuRefuse e).fwuState 0
  else (((d.setSlot (d.targetSlot fu) { state := .valid, bytes := b }).set F.FWU_STAT_result 0).event 21 .fwuAccepted [fwMajorOf b, fwMinorOf b]).fwuState 4

/-- Whether the target slot holds a verified firmware. [DEDUCED: log 72] -/
def Dev.fwuValid (fu : Fuses) (d : Dev) : Bool := (d.boot.slot (d.targetSlot fu)).state == .valid

/-- Major version that a structural image sent for update is checked under: of the firmware that will boot (R443, R448). -/
def Dev.nextMajor (fu : Fuses) (d : Dev) : Nat :=
  if d.fwuValid fu then fwMajorOf (d.boot.slot (d.targetSlot fu)).bytes
  else if d.pow.run == .rom then
    fwMajorOf (if fwFault fu.minSecurity d.boot.fw0.bytes = 0 then d.boot.fw0.bytes else d.boot.fw1.bytes)
  else d.fwMajor

/-- A structural image is whole: it is validated under R77, in recovery by steps 1 to 7 alone (R448), and staged in its copy. [DEDUCED: log 72] -/
def Dev.fwuImage (fu : Fuses) (d : Dev) (b : Bytes) : Dev :=
  let c : ImgCtx := { d.imgCtx fu none false with fwMajor := d.nextMajor fu }
  let e := if d.pow.run == .rom then chkContainer c b else d.imageUnder fu (d.nextMajor fu) b
  match e with
  | some e => ((d.setCopy d.targetCopy {}).fwuRefuse 6 e.code).fwuState (if d.fwuValid fu then 4 else 0)
  | none =>
    (((d.setCopy d.targetCopy { state := .staged, bytes := b }).onFwu (fun f => { f with imgDone := true })).set
      F.FWU_STAT_result 0).fwuState (if d.fwuValid fu then 4 else 0)

/-- FWU_WRITE_DONE (R443, R444): the chunk is in flash, or failed lastingly; with its last octet the target is verified. -/
def Dev.fwuWritten (fu : Fuses) (d : Dev) (ok : Bool) : Dev :=
  match d.fwu.chunk with
  | none => d
  | some (img, data) =>
    let d := d.onFwu (fun f => { f with chunk := none })
    if !ok then
      let d := if img then (d.setCopy d.targetCopy {}).onFwu (fun f => { f with imgBytes := [] })
               else d.setSlot (d.targetSlot fu) { state := .invalid, bytes := [] }
      (d.fwuRefuse 0x0A).fwuState 0
    else
      let b := d.fwuGot fu img ++ data
      let whole := fwuLen img b == b.length
      if img then
        let d := d.onFwu (fun f => { f with imgBytes := b })
        if whole then d.fwuImage fu b else d.fwuState 1
      else
        let d := d.setSlot (d.targetSlot fu) { state := .invalid, bytes := b }
        if whole then d.fwuVerify fu b else d.fwuState 1

/-! ### Commit, abort, trial (R444, R445) -/

/-- Why a commit is refused beyond the common reasons (R444). -/
def Dev.commitFault (fu : Fuses) (d : Dev) : Nat × Nat :=
  let b := (d.boot.slot (d.targetSlot fu)).bytes
  if !d.fwuValid fu ∨ d.get F.FWU_STAT_state = 2 then (9, 0)
  else match d.imageUnder fu (fwMajorOf b) d.img.bytes with
    | some e => (6, e.code)
    | none => (fwFault fu.minSecurity b, 0)

/-- The accepted commit: slot and image copy armed (R445). -/
def Dev.armUpdate (fu : Fuses) (d : Dev) : Dev :=
  let t := d.targetSlot fu
  let d := if d.fwuValid fu then d.setSlot t { d.boot.slot t with state := .armed } else d
  let d := if d.fwu.imgDone then d.setCopy d.targetCopy { d.boot.copy d.targetCopy with state := .armed } else d
  ((d.bump F.FWU_commits).onFwu (fun f => { f with imgDone := false, imgBytes := [] })).fwuState 5

/-- FWU_ABORT (R456): a slot not yet armed is discarded and stays invalid. -/
def Dev.fwuAbort (fu : Fuses) (d : Dev) : Dev :=
  let t := d.targetSlot fu
  if d.get F.FWU_STAT_state = 5 ∨ d.get F.FWU_STAT_state = 6 then d
  else
    let s := d.boot.slot t
    let d := if s.state == .valid || s.state == .invalid then d.setSlot t { state := .invalid, bytes := [] } else d
    let d := if d.fwu.imgDone || !d.fwu.imgBytes.isEmpty then d.setCopy d.targetCopy {} else d
    (d.onFwu (fun _ => {})).fwuState 0

/-- TRIAL_PASSED (R445): the running slot becomes active and the old one valid. -/
def Dev.trialPassed (d : Dev) : Dev :=
  if d.get F.FWU_STAT_state ≠ 6 then d
  else
    let r := d.runSlot
    let d := (d.setSlot r { d.boot.slot r with state := .active }).setSlot (1 - r) { d.boot.slot (1 - r) with state := .valid }
    ((d.set F.FWU_STAT_result 0x11).event 21 .trialPassed [r]).fwuState 0

/-- A firmware that completes its trial raises the fused minimum (R442). -/
def trialFuses (fu : Fuses) (d : Dev) : Fuses :=
  if d.get F.FWU_STAT_state ≠ 6 then fu
  else { fu with minSecurity := max fu.minSecurity (fwSecurityOf (d.boot.slot d.runSlot).bytes) }

/-! ### Fuses (R449) -/

/-- The octets that FWU_FUSE programs from: the selected source. -/
def Dev.fuseSource (d : Dev) (area : Bytes) (n : Nat) : Bytes := sliceZ (if d.on F.FWU_SRC_source then d.sim.mgmtFw else area) 0 n

/-- PROGRAM_OWNER, PROGRAM_KFUSE on the fuses (R449): in recovery, a blank field takes the source octets. -/
def burn (fu : Fuses) (d : Dev) (kfuse : Bool) (area : Bytes) : Fuses :=
  if d.pow.run != .rom then fu
  else if kfuse then (if fu.kFuse.isSome then fu else { fu with kFuse := some (d.fuseSource area 32) })
  else if fu.ownerHash.isSome then fu else { fu with ownerHash := some (d.fuseSource area 48) }

/-- The same on the rest: the source octets are zeroed; a field that is not blank refuses with 0x0C; outside recovery nothing happens. -/
def Dev.burned (fu : Fuses) (d : Dev) (kfuse : Bool) : Dev :=
  if d.pow.run != .rom then d
  else if (if kfuse then fu.kFuse else fu.ownerHash).isSome then d.set F.FWU_STAT_result 0x0C
  else if d.on F.FWU_SRC_source then d.onSim (fun s => { s with mgmtFw := overlay s.mgmtFw 0 (zeros (if kfuse then 32 else 48)) })
  else d

end Sys2Proof.Machine
end

