-- ==== Sys2Proof/Machine/Hbm.lean ====
section
/-! DEFINITION. Errors of HBM and of the stripe cache as a read-out finds them (R31, R32, R233 to R240). -/
namespace Sys2Proof.Machine

/-- The staged slots that hold units from `lo` up to `lo + n` of the own dirty area, or of the mirror-receive area where they were
adopted (R226). -/
def Dev.slotsAt (d : Dev) (adopted : Bool) (lo n : Nat) : List (Nat × Staged) :=
  List.filter (fun (e : Nat × Staged) => e.2.adopted == adopted && decide (e.2.off < lo + n) && decide (lo < e.2.off + descCls e.2.desc))
    d.stg.slots

/-- A slot of own staging is repaired or lost (R31, R234): from its ingest buffer while that is held (R19), and then its mirror read-out
begins again; else from the peer's mirror copy; else it is lost. The repaired slot keeps its offset: the page under it is remapped (R240).
[DEDUCED: log 78] -/
def Dev.repairSlot (d : Dev) (e : Nat × Staged) : Dev :=
  if List.any d.stg.ingest (fun (i : Nat × Ingest) => i.2.slot == some e.1) then
    let d := d.bump F.STG_repair_ingest
    if d.mirroring && !e.2.peerOk then d.sendSlot e.1 else d
  else if e.2.peerOk && d.mirroring then d.bump F.STG_repair_peer
  else d.loseSlot e.1 e.2

/-- The mirrored slot that holds a unit of the mirror-receive area. -/
def Dev.mirrorAt (d : Dev) (off : Nat) : Option (Nat × MirrorSlot) :=
  List.find? (fun (e : Nat × MirrorSlot) => decide (e.1 ≤ off) && decide (off < e.1 + descCls e.2.desc)) d.stg.mirror

/-- A lasting uncorrectable error, by area (R239). In the mirror-receive area the owner sends the slot again while it stands (R32); once it
is lost, so is the block: an adopted slot at once, one not adopted yet at its adoption. [DEDUCED: log 78, DEDUCED: log 104] -/
def Dev.hbmLasting (d : Dev) (area : HbmArea) : Dev :=
  match area with
  | .own off =>
    let a := off / 4
    if (Tab.getD d.stg.lines (scSet a) []).any (fun w => w.a == a && w.dirty) then d.bump F.STG_repair_hbm
    else (d.slotsAt false off 1).foldl (fun (d : Dev) e => d.repairSlot e) d
  | .mirror off =>
    let d := (d.slotsAt true off 1).foldl (fun (d : Dev) e => d.repairSlot e) d
    match d.mirrorAt off with
    | none => d
    | some e =>
      if !d.head.lost then (d.bump F.STG_mirror_resends).event 11 .mirrorResent [e.1]
      else d.onStg (fun s => { s with mirrorBad := s.mirrorBad ++ [e.1] })
  | .inProgress _ => d.bump F.STG_repair_flash
  | .other => d

/-- A corrected word counts against its row: 16 within 24 h retire it (R238). -/
def Dev.countRow (d : Dev) (page row : Nat) : Dev :=
  let k := page * 65536 + row
  let old := Tab.getD d.stg.rowErrs k (0, d.pow.aon)
  let now := if d.pow.aon < old.2 + 86400 * 10 ^ 9 then (old.1 + 1, old.2) else (1, d.pow.aon)
  let d := d.onStg (fun s => { s with rowErrs := Tab.put k now s.rowErrs })
  if now.1 < 16 then d else ((d.onStg (fun s => { s with rowErrs := Tab.del k s.rowErrs })).event 11 .hbmRowRetired [page, row]).retirePage page

/-- A stripe-cache line fails lastingly (R234, R235): a clean line is read again from HBM, a dirty one repaired slot by slot, free units
with zeros, a parity line from the stripe's data members; then its way is judged (R236). -/
def Dev.lineLasting (d : Dev) (a : Nat) (tag : Bool) : Dev :=
  match (Tab.getD d.stg.lines (scSet a) []).find? (fun w => w.a == a) with
  | none => d
  | some w =>
    let d := if w.parity then d.bump F.STG_repair_recompute
      else if w.dirty then (d.slotsAt false (a * 4) 4).foldl (fun (d : Dev) e => d.repairSlot e) d
      else if tag then d.onStg (fun s => { s with lines := Tab.upd (scSet a) (fun ws => ws.filter (fun x => x.a != a)) s.lines })
      else d.bump F.STG_repair_hbm
    ((d.bump F.STG_sc_check_lasting).event 11 .lineRepaired [a]).scFail a

/-- A line is read out and checked (R233, R234): octets that fail the line check value are read once more; a second failure is lasting. -/
def Dev.lineCheck (d : Dev) (a : Nat) (first second : Bytes) : Dev :=
  match (Tab.getD d.stg.lines (scSet a) []).find? (fun w => w.a == a) with
  | none => d
  | some w =>
    if crc32c first = w.check then d
    else if crc32c second = w.check then d.bump F.STG_sc_check_transient
    else d.lineLasting a false

/-- The line of an area that the stripe cache may hold (R228): of the own dirty area and of the in-progress area after it. -/
def Dev.lineOf (d : Dev) : HbmArea → Option Nat
  | .own off => some (off / 4)
  | .inProgress line => some (d.img.ownMib d.headNo * 256 + line)
  | _ => none

/-- An HBM word is read out (R237): one symbol in error is corrected; more are read again once, and either counts as transient or is a
lasting error, whose row is retired. -/
def Dev.wordCheck (d : Dev) (w : ScrubWord) (bad again : Nat) : Dev :=
  if bad = 0 then d
  else if bad = 1 then (d.bump F.STG_hbm_corrected).countRow w.page w.row
  else if again ≤ 1 then d.bump F.STG_hbm_ue_transient
  else (((d.bump F.STG_hbm_ue_lasting).event 11 .hbmLasting [w.page, w.row]).hbmLasting w.area).retirePage w.page

/-- PATROL_SCRUB (R233 to R240): what one read-out found, and what it leads to. [DEDUCED: log 104] -/
def Dev.patrolScrub (d : Dev) (w : ScrubWord) : Dev :=
  match w.found with
  | .word bad again => d.wordCheck w bad again
  | .line first second => match d.lineOf w.area with | some a => d.lineCheck a first second | none => d
  | .tagParity => match d.lineOf w.area with | some a => (d.bump F.STG_sc_tag_parity).lineLasting a true | none => d

end Sys2Proof.Machine
end

