-- ==== Sys2Proof/Machine/Cfg.lean ====
section
/-! DEFINITION. The configuration sweep and the pulses of SYS_CFG_COMMIT (R432 to R437). -/
namespace Sys2Proof.Machine

/-- Change the sweep's own state. -/
def Dev.onCfg (d : Dev) (f : CfgState → CfgState) : Dev := { d with cfg := f d.cfg }

/-- CFG_COMMIT (R435): the next sweep takes the touched blocks. [DEDUCED: log 79] -/
def Dev.cfgCommit (d : Dev) : Dev := (d.onCfg (fun c => { c with commit := true })).set F.SYS_CFG_STAT_committing 1

/-- CFG_ACCEPT_ALL (R437). -/
def Dev.cfgAcceptAll (d : Dev) : Dev := (d.onCfg (fun c => { c with acceptAll := true })).set F.SYS_CFG_STAT_committing 1

/-- Blocks holding a register that a record sets (R68). -/
def imageBlocks : List Nat := [0, 3, 5, 6, 11, 16, 17]

/-- CFG_REAPPLY (R437): the registers that records set are written again from the active image and the references updated; refused
while an activation waits or switches. [DEDUCED: log 79] -/
def Dev.cfgReapply (d : Dev) : Dev :=
  if d.simState = 4 ∨ d.simState = 5 then d.event 0 .reapplyRefused
  else imageBlocks.foldl (fun (d : Dev) b => d.refBlock b) (d.loadRegs d.img)

/-- Register bits turn that neither software nor the device turned: those of class-C fields matter here (R432). Bits of a field beyond
bit 31 lie in the dword above. -/
def Dev.upsetRegs (d : Dev) (u : RegUpset) : Dev :=
  let hit (f : Field) : Bool := f.off == u.off && f.cls == .config && decide (f.lsb < 32)
  if 0x590000 ≤ u.off ∧ u.off < 0x590400 then
    let i := (u.off - 0x590000) / 4
    let mask := bits u.flips 10 0 + 65536 * bits u.flips 23 16
    { d with cnt := { d.cnt with sel := d.cnt.sel.set i (Nat.xor (d.cnt.sel.getD i 0xFF0000) mask) } }
  else
    ((regMap.flatMap Field.insts).filter hit).foldl (fun (d : Dev) f => d.set f (Nat.xor (d.get f) (bits u.flips f.msb f.lsb))) d

/-- The block whose range holds an offset (R422), by the base of each. -/
def blockBases : List Nat :=
  [0, 0x10000, 0x20000, 0x30000, 0x40000, 0x50000, 0x80000, 0x100000, 0x180000, 0x200000, 0x240000, 0x280000, 0x2C0000, 0x300000,
   0x340000, 0x380000, 0x400000, 0x500000, 0x580000, 0x590000, 0x5A0000, 0x5C0000, 0x600000]

/-- The block number of an offset below the bit-alias window. -/
def blockOf (off : Nat) : Nat := (blockBases.filter (fun b => decide (b ≤ off))).length - 1

/-- A block is past its commit window (R434). -/
def Dev.pastWindow (d : Dev) (b : Nat) : Bool :=
  match Tab.find? b d.cfg.touchedAt with
  | some t => decide (t + d.get F.SYS_CFG_POLICY_commit_window_ms * 10 ^ 6 < d.pow.aon)
  | none => false

/-- A block's mismatch is reported: it is not touched, or past its window (R434, R436). -/
def Dev.reports (d : Dev) (b : Nat) : Bool := !tb (d.get F.SYS_CFG_TOUCHED_blocks) b || d.pastWindow b

/-- A block is no longer touched. -/
def Dev.untouch (d : Dev) (b : Nat) : Dev :=
  let m := d.get F.SYS_CFG_TOUCHED_blocks
  (d.onCfg (fun c => { c with touchedAt := Tab.del b c.touchedAt })).set F.SYS_CFG_TOUCHED_blocks (m - 2 ^ b * bit m b)

/-- A block enters or leaves drift (R436). -/
def Dev.setDrift (d : Dev) (b : Nat) (on_ : Bool) : Dev :=
  let m := d.get F.SYS_CFG_DRIFT_blocks
  if tb m b == on_ then d
  else if on_ then (((d.set F.SYS_CFG_DRIFT_blocks (m + 2 ^ b)).raise 0).event 0 .cfgDrift [b])
  else d.set F.SYS_CFG_DRIFT_blocks (m - 2 ^ b)

/-- One block's comparison at a sweep: its CRC found `c`. -/
def Dev.compareBlock (d : Dev) (b c : Nat) : Dev :=
  if d.cfg.refs.getD b 0 = c then d.setDrift b false
  else if d.reports b then d.setDrift b true else d

/-- What the pulses ask of a sweep that found the CRCs `l` (R435, R437): references taken, touched bits cleared, commit_failed. -/
def Dev.sweepCommits (d : Dev) (l : List Nat) : Dev :=
  if d.cfg.acceptAll then
    let d := (List.range 23).foldl (fun (d : Dev) b => d.untouch b) (d.setRefs l)
    ((d.onCfg (fun c => { c with acceptAll := false, commit := false })).set F.SYS_CFG_STAT_committing 0).set F.SYS_CFG_STAT_commit_failed 0
  else if d.cfg.commit then
    let touched := (List.range 23).filter (tb (d.get F.SYS_CFG_TOUCHED_blocks))
    let failed := (List.range 23).any (fun b => !touched.contains b && d.cfg.refs.getD b 0 != l.getD b 0)
    let d := touched.foldl (fun (d : Dev) b => (d.setRefs (d.cfg.refs.set b (l.getD b 0))).untouch b) d
    ((d.onCfg (fun c => { c with commit := false })).set F.SYS_CFG_STAT_committing 0).setB F.SYS_CFG_STAT_commit_failed failed
  else d

/-- CFG_SWEEP (R432 to R437): every block's CRC is found and compared. An upset that the second sweep no longer finds counts as
transient where its block would have been reported. [DEDUCED: log 79] -/
def Dev.cfgSweep (d : Dev) (u : Option RegUpset) : Dev :=
  let d := match u with
    | none => d
    | some x =>
      let y := d.upsetRegs x
      if x.lasting then y
      else
        let b := blockOf x.off
        if y.cfgCrc b != d.cfg.refs.getD b 0 && d.cfgCrc b == d.cfg.refs.getD b 0 && d.reports b then d.bump F.WDT_cfg_crc_transient
        else d
  let l := (List.range 23).map d.cfgCrc
  let d := (d.set F.SYS_CFG_CRC_CUR_crc (crcOver l)).bump F.SYS_CFG_sweeps
  (List.range 23).foldl (fun (d : Dev) b => d.compareBlock b (l.getD b 0)) (d.sweepCommits l)

/-- frozen follows policy and drift (R436), pending the touched blocks, drift the drifted ones. -/
def Dev.settleCfg (d : Dev) : Dev :=
  let drift := d.get F.SYS_CFG_DRIFT_blocks != 0
  ((d.setB F.SYS_CFG_STAT_drift drift).setB F.SYS_CFG_STAT_pending (d.get F.SYS_CFG_TOUCHED_blocks != 0)).setB F.SYS_CFG_STAT_frozen
    (drift && d.on F.SYS_CFG_POLICY_policy)

end Sys2Proof.Machine
end

