-- ==== Sys2Proof/Machine/Keep.lean ====
section
/-! DEFINITION. What a stop of the head leaves of the work under way (R279, R353, R404, R409, R411): writes not acknowledged are taken
back, staged slots that HBM lost are forgotten or marked unrecovered, stripes not yet programmed go. -/
namespace Sys2Proof.Machine

/-- A location names a staged slot or an ingest buffer that is no longer there. -/
def Dev.slotGone (d : Dev) : Loc → Bool
  | .staged n => !Tab.has n d.stg.slots
  | .ingest n => !Tab.has n d.stg.ingest
  | _ => false

/-- The same through an index entry. -/
def Dev.locGone (d : Dev) (pool : Nat) : Loc → Bool
  | .ref _ e => (Tab.find? e (d.pool pool).index).any (fun x => d.slotGone x.loc)
  | l => d.slotGone l

/-- A namespace without some versions of its open epoch: each of their blocks shows its last version that is left, else what the latest
closed Cairn holds. -/
def Ns.without (x : Ns) (gone : EpochBlock → Bool) : Ns :=
  let left := x.epoch.filter (fun b => !gone b)
  let back (m : Tab Loc) (lba : Nat) : Tab Loc :=
    match (left.filter (fun b => b.lba == lba)).getLast? with
    | some b => Tab.put lba b.loc m
    | none => match Tab.find? lba x.closedMap with
      | some l => Tab.put lba l m
      | none => Tab.del lba m
  { x with epoch := left, map := ((x.epoch.filter gone).map (·.lba)).foldl back x.map }

/-- Some content of a namespace names a location. -/
def Ns.names (x : Ns) (p : Loc → Bool) : Bool :=
  x.map.any (fun m => p m.2) || x.epoch.any (fun b => p b.loc) || x.closedMap.any (fun m => p m.2) ||
    x.retMaps.any (fun r => r.2.any (fun m => p m.2)) || x.epochMaps.any (fun r => r.2.any (fun m => p m.2))

/-- Some content of the pool's namespaces is a reference to an entry. -/
def Dev.entryNamed (d : Dev) (pool e : Nat) : Bool :=
  d.snp.nss.any (fun x => d.poolOf x.1 == pool && x.2.names (fun l => match l with | .ref _ k => k == e | _ => false))

/-- Some content names a staged slot, itself or through an index entry. -/
def Dev.slotNamed (d : Dev) (n : Nat) : Bool :=
  d.snp.nss.any (fun x => x.2.names (fun l => l == .staged n)) ||
    d.fl.pools.any (fun p => List.any p.2.index (fun (e : Nat × IndexEntry) => e.2.loc == .staged n && d.entryNamed p.1 e.1))

/-- Index entries whose slot is gone and that nothing references go. [DEDUCED: log 91] -/
def Dev.dropEntries (d : Dev) : Dev :=
  { d with fl := { d.fl with pools := d.fl.pools.map (fun p =>
      (p.1, { p.2 with index := List.filter (fun (e : Nat × IndexEntry) => !d.slotGone e.2.loc || d.entryNamed p.1 e.1) p.2.index })) } }

/-- Writes not yet acknowledged are taken back (R409 step 1): their versions, their slots unless other content rests on them, their
ingest buffers and lookups. Senders and hosts repeat them. -/
def Dev.dropUnacked (d : Dev) : Dev :=
  let rs := d.stg.writes.map (·.2)
  let gone (nsid : Nat) (w : WriteId) : Bool := rs.any (fun r => r.nsid == nsid && r.stream == w.stream && r.seq == w.seq)
  let d := d.onEachNs (fun n x => { x.without (fun b => gone n b.wid) with
    log := x.log.map (fun e => (e.1, e.2.filter (fun w => !rs.any (fun r => r.nsid == n && r.stream == e.1 && r.seq == w.1)))) })
  let d := d.onStg (fun t => { t with writes := [], ingest := [], reserved := 0 })
  let d : Dev := { d with red := { d.red with lookups := [] } }
  (d.onStg (fun t => { t with slots := t.slots.filter (fun e => !gone e.2.nsid e.2.wid || d.slotNamed e.1) })).dropEntries

/-- Staged slots that content still names and that staging has not. -/
def Dev.goneSlots (d : Dev) : List Nat :=
  let num (l : Loc) : Option Nat := match l with | .staged n => if Tab.has n d.stg.slots then none else some n | _ => none
  ((d.snp.nss.flatMap (fun (e : Nat × Ns) => (e.2.map ++ e.2.closedMap ++ e.2.retMaps.flatMap (·.2) ++ e.2.epochMaps.flatMap (·.2)).filterMap
    (fun m => num m.2))) ++ d.fl.pools.flatMap (fun p => List.filterMap (fun (e : Nat × IndexEntry) => num e.2.loc) p.2.index)).eraseDups

/-- Whether a host's write of at most 1 MiB is no longer whole: one of its blocks is gone (R145). -/
def Dev.torn (d : Dev) (nsid : Nat) (x : Ns) (w : WriteId) : Bool :=
  let vs := x.epoch.filter (fun b => b.wid == w)
  d.hostStream nsid == some w.stream && decide (vs.length ≤ 256) && vs.any (fun b => d.locGone (d.poolOf nsid) b.loc)

/-- HBM lost staged slots and nothing carried them: versions of open epochs that rest on them are forgotten, with the rest of a write that
is atomic (R145), and what closed or retained Cairns keep of them is unrecovered. -/
def Dev.forgetGone (d : Dev) : Dev :=
  let d := (d.onEachNs (fun n x => x.without (fun b => d.locGone (d.poolOf n) b.loc || d.torn n x b.wid))).dropEntries
  d.goneSlots.foldl (fun (d : Dev) n => d.fl.pools.foldl (fun (d : Dev) p => d.moveLoc p.1 (.staged n) .lost) d) d

/-- A stripe is being programmed, so that its slots may be found on flash (R279). -/
def Dev.programming (d : Dev) (x : Option (Nat × Nat)) : Bool :=
  x.any (fun s => (d.stripe s.1 s.2).any (fun t => t.state == .programming))

/-- Staging loses the slots outside `keep`: those of stripes being programmed wait for the replay, the others are forgotten. -/
def Dev.loseStaging (d : Dev) (keep : Nat → Bool) : Dev :=
  (d.onStg (fun t => { t with slots := (t.slots.filter (fun e => keep e.1 || d.programming e.2.stripe)).map (fun e =>
    (e.1, { e.2 with ghost := e.2.ghost || !keep e.1 })) })).forgetGone

/-- A slot that HBM lost goes once its stripe is no longer being programmed: abandoned, it can be saved by nothing. [DEDUCED: log 88] -/
def Dev.dropGhosts (d : Dev) : Dev :=
  if d.stg.slots.any (fun e => e.2.ghost && !d.programming e.2.stripe) then
    (d.onStg (fun t => { t with slots := t.slots.filter (fun e => !e.2.ghost || d.programming e.2.stripe) })).forgetGone
  else d

/-- Staged slots are marked unrecovered (R411). -/
def Dev.markLost (d : Dev) (l : List Nat) : Dev :=
  l.foldl (fun (d : Dev) n => match Tab.find? n d.stg.slots with
    | some s => (d.moveLoc (d.poolOf s.nsid) (.staged n) .lost).onStg (fun t => { t with slots := Tab.del n t.slots })
    | none => d) d

/-- A pool after a stop (R279, R353, R373): assembling stripes are gone, stripes being programmed wait for replay, copies and rebuilds start
over, blocks whose erase was under way are erase-incomplete; journal records not on flash go with HBM. -/
def Pool.stopped (p : Pool) (hbmLost : Bool) : Pool :=
  let stripes := List.filter (fun (e : Nat × Stripe) => e.2.state != .assembling) p.stripes
  let prog (i : Nat) : Bool := stripes.any (fun e => e.1 == i && e.2.state == .programming)
  { p with
    stripes := Tab.mapV (fun (s : Stripe) => { s with rebuilding := [], replay := if s.state == .programming then 1 else 0 }) stripes
    copies := Tab.mapV (fun (c : CopyJob) => { c with read := false, fetching := false })
      (List.filter (fun (c : Nat × CopyJob) => c.2.stripe.any prog) p.copies)
    relocQ := if p.reclaiming || p.wlActive then p.relocQ else p.victims ++ p.relocQ
    victims := []
    wlActive := false
    journal := if hbmLost then [] else p.journal
    journalAt := if hbmLost then none else p.journalAt
    blocks := Tab.mapV (fun (b : BlockInfo) => if b.state = 3 then { b with state := 4 } else b) p.blocks }

/-- Every pool after a stop; slots whose stripe is gone wait to be placed again. -/
def Dev.stopPools (d : Dev) (hbmLost : Bool) : Dev :=
  let d : Dev := { d with fl := { d.fl with pools := Tab.mapV (fun (p : Pool) => p.stopped hbmLost) d.fl.pools, fetches := [] } }
  d.onStg (fun t => { t with slots := Tab.mapV (fun (s : Staged) =>
    if s.stripe.any (fun x => (d.stripe x.1 x.2).isNone) then { s with stripe := none } else s) t.slots })

/-- A landing after a stop (R312, R314): it goes on from the record after its last epoch that lies durably whole, or from the first record
where an epoch already ended had records that were not durable. -/
def Landing.stopped (l : Landing) (gone : Loc → Bool) : Landing :=
  let l := { l with qpn := 0, failed := 0, entries := [], closing := false }
  if !l.due.isEmpty || l.closedEpochs.any (fun e => e.2.2.any (fun y => gone y.2)) then
    { l with open_ := false, nextIndex := 0, confirmed := 0, closedEpochs := [], due := [] }
  else if l.epochStart = 0 ∨ l.closedEpochs.any (fun e => e.1 == l.epoch) then l
  else { l with nextIndex := l.epochStart }

/-- A namespace after a stop: commands behind Cairns are gone; Cairns placed or waiting go with drain metadata that is lost. -/
def Ns.stopped (x : Ns) (metadata : Bool) (gone : Loc → Bool) : Ns :=
  let bare (p : Placed) : Placed := { p with byCommand := none, sentAt := none }
  let x := { x with placed := x.placed.map bare, waiting := x.waiting.map bare, landing := x.landing.map (fun l => l.stopped gone) }
  if metadata then x
  else { x with placed := [], waiting := [], placedNum := x.closed, pos := ((Tab.find? x.closed x.cairns).map (·.pos)).getD []
                retained := x.retained.filter (fun k => decide (k ≤ x.closed)) }

/-- A channel after a stop: its flash area stays; records of its ring not on flash stay with HBM, else a GAP is owed for them (R88, R404).
Sequence numbers go on from the newest record that is left (R92). -/
def Chan.stopped (x : Chan) (ring : Bool) : Chan :=
  let kept := if ring then x.ring else x.ring.take x.copied
  let gone := (x.ring.drop x.copied).map (·.num)
  let lost := if ring then none else gone.head?.map (fun n => gone.foldl min n)
  let next := match kept.getLast?, x.flash.getLast? with
    | some r, _ => (r.seq + 1) % 2 ^ 32
    | none, some r => (r.seq + 1) % 2 ^ 32
    | none, none => 0
  { flash := x.flash, indexSeq := next, ring := kept, copied := min x.copied kept.length
    owed := match lost, x.owed with
      | some n, some o => some (min n o.1, none)
      | some n, none => some (n, none)
      | none, o => o }

/-- A Caravan after a stop reconnects (R314). -/
def Caravan.stopped (c : Caravan) : Caravan :=
  match c.state with
  | .connecting | .shipping | .stopped => { c with state := .waiting, qpn := 0, sent := c.confirmed }
  | _ => { c with qpn := 0 }

end Sys2Proof.Machine
end

