-- ==== Sys2Proof/Machine/Power.lean ====
section
/-! DEFINITION. Heat (R395, R398, R415 to R418), engines and units (R389 to R392), clocks and links outside (R390, R473), hold-up power
(R407 to R413) and power states (R405, R406). -/
namespace Sys2Proof.Machine

/-- Change what power and heat keep. -/
def Dev.onPow (d : Dev) (f : PowState → PowState) : Dev := { d with pow := f d.pow }
/-- Change the pins. -/
def Dev.onPins (d : Dev) (f : Pins → Pins) : Dev := { d with pins := f d.pins }

/-! ### The Wadi drain (R407 to R410, R418) -/

/-- The slots in the order of the drain (R409): own ones, then adopted ones, each in ascending offset. -/
def Dev.drainOrder (d : Dev) : List Nat :=
  let part (a : Bool) := List.filter (fun (e : Nat × Staged) => e.2.adopted == a && !e.2.ghost) d.stg.slots
  let rec ins (x : Nat × Staged) : List (Nat × Staged) → List (Nat × Staged)
    | [] => [x]
    | y :: t => if x.2.off < y.2.off then x :: y :: t else y :: ins x t
  let sorted (l : List (Nat × Staged)) : List (Nat × Staged) := l.foldr ins []
  (sorted (part false) ++ sorted (part true)).map (·.1)

/-- Octets that some staged slots hold. -/
def Dev.slotOctets (d : Dev) (l : List Nat) : Nat :=
  1024 * (l.map (fun n => match Tab.find? n d.stg.slots with | some s => descCls s.desc | none => 0)).sum

/-- What a drain of the given fate leaves on flash. The duration of one that is cut short is known to nobody. -/
def Dev.drainLeft (d : Dev) (fate : DrainFate) : DrainRec × Dev :=
  let l := d.drainOrder
  let take := if d.head.phase == .takeover then some d.head.phasePools else none
  let entries := (d.fl.pools.filter (fun e => d.owns e.1)).flatMap (fun e => e.2.pendingEntries e.1)
  match fate with
  | .complete ns => ({ entries := entries, sealedOk := true, metadata := true, slots := l, mirror := d.mode 1, takeover := take, events := d.evr.buffer,
                       durationNs := ns, octets := d.slotOctets l }, d)
  | .cut m n => ({ entries := if m then entries else [], sealedOk := false, metadata := m, slots := l.take n, mirror := d.mode 1, takeover := take, events := d.evr.buffer,
                   durationNs := d.fresh.1, octets := d.slotOctets (l.take n) }, d.fresh.2)

/-- During a drain every die programs at full duty (R395): where that holds loop 2's value away from its own, an override begins. -/
def Dev.drainDuty (d : Dev) : Dev :=
  let temps := d.fl.lanes.flatMap (fun e => e.2.dies.filterMap (fun x => x.2.temp))
  let low := temps.foldl (fun a t => min a (d.duty t)) 100
  if low < 100 then (d.set (F.WDT_LOOP_STAT_clamped.at 1) 0).overrideBegin 2 1 low else d

/-- Every running erase is suspended, whatever its count and run (R340). -/
def Dev.suspendErases (d : Dev) : Dev :=
  (d.fl.lanes.flatMap (fun e => ((e.2.cmds.filter (fun c => c.op == .erase)).map (·.die)).eraseDups.map (fun i => (e.1, i)))).foldl
    (fun (d : Dev) x => d.bridgeSend x.1 { op := .suspend, die := x.2, use := .admin }) d

/-- The drain (R409), in one step: it stops admission, suspends erases, writes metadata and slots, seals and parks. In a takeover whose claims are out,
the adopted slots drain too (R260). [DESIGN CHOICE: log 81] -/
def Dev.wadiDrain (d : Dev) (fate : DrainFate) : Dev :=
  let d := ((d.dropUnacked.onPow (fun p => { p with drainGate := true })).bump F.RST_drains).drainDuty
  let steps := match fate with | .complete _ => 7 | .cut m _ => if m then 4 else 3
  let d := (List.range steps).foldl (fun (d : Dev) k => d.trace 8 1 0 [k + 1]) d
  let d := if d.head.phase == .takeover then d.adoptSlots d.head.phasePools else d
  let d := d.ownedPools.foldl (fun (d : Dev) p => d.saveOffsets p.poolId) d.suspendErases
  let r := d.drainLeft fate
  let d : Dev := { r.2 with boot := { r.2.boot with settings := { r.2.boot.settings with life := r.2.worstWear } } }
  let d := d.onTime (fun t => { t with trigs := Tab.mapV (fun (x : Trig) => { x with pulseEnd := none }) t.trigs })
  ((d.onPow (fun p => { p with run := .parked, drain := some r.1 })).onPins (fun p => { p with arbHb := false })).set
    F.RST_STAT_drain_state 4

/-- Power or heat asks for a drain: a head in service drains; another one has nothing to drain and parks (R414). [DESIGN CHOICE: log 81] -/
def Dev.drainOrPark (d : Dev) (fate : DrainFate) : Dev :=
  match d.pow.run with
  | .up => d.wadiDrain fate
  | .off | .parked => d
  | _ => (d.onPow (fun p => { p with run := .parked })).onPins (fun p => { p with arbHb := false })

/-- PWR_FAIL_N_FALL (R407): 200 ns start the drain; a shorter pulse is a glitch. -/
def Dev.pwrFailFall (d : Dev) (lowNs : Nat) (fate : DrainFate) : Dev :=
  if lowNs < 200 then d.bump F.RST_pwr_fail_glitches
  else (((d.onPins (fun p => { p with pwrFailN := false })).bump F.RST_pwr_fail_events).raise 7).drainOrPark fate

/-- PWR_FAIL_N_RISE (R412): a drain, once started, ran to its end; a parked head stays parked. -/
def Dev.pwrFailRise (d : Dev) : Dev := d.onPins (fun p => { p with pwrFailN := true })

/-- HOLDUP_OK_FALL (R413). [DESIGN CHOICE: log 81] -/
def Dev.holdupFall (d : Dev) : Dev := if !d.pins.holdupOk then d else (d.onPins (fun p => { p with holdupOk := false })).raise 7
/-- HOLDUP_OK_RISE (R413). -/
def Dev.holdupRise (d : Dev) : Dev := d.onPins (fun p => { p with holdupOk := true })

/-! ### Temperature (R415 to R418) -/

/-- Tj: the highest of D0 to D5. -/
def tjOf (t : List Int) : Int := (t.take 6).foldl max (t.headD 0)

/-- A thermal drain begins (R417). -/
def Dev.thermalDrain (d : Dev) : Dev :=
  if d.pow.thermDrain || !d.up then d
  else ((((d.onPow (fun p => { p with thermDrain := true })).set F.THM_STAT_drain 1).bump F.THM_thermal_drains).event 2 .thermalDrain).raise 6

/-- The latch sets (R418): THERM_SHDN_N low, and the drain as if PWR_FAIL_N had fallen; the hold-up store carries it to its seal. -/
def Dev.thermalLatch (d : Dev) : Dev :=
  if d.pow.latch then d
  else
    let d := ((d.onPow (fun p => { p with latch := true })).set F.THM_STAT_latch 1).onPins (fun p => { p with thermShdnLow := true })
    let d := d.event 2 .thermalLatch
    let r := d.fresh
    r.2.drainOrPark (.complete r.1)

/-- The four octets of a THM_DIE register. -/
def packTemps (t : List Int) : Nat := leNat ((t.take 4).map (fun x => b8 (fieldOfInt 8 x)))

/-- Bands of the eight channels from their former bands, with how many changed and whether one entered the hot band (R416). -/
def Dev.dieBands (d : Dev) (t : List Int) : Nat × Nat × Bool :=
  let was := d.get F.THM_BANDS_bands
  t.zipIdx.foldl (fun a x =>
    let o := bits was (3 * x.2 + 2) (3 * x.2)
    let n := bandOf o x.1
    (a.1 + n * 8 ^ x.2, a.2.1 + b2n (n != o), a.2.2 || (n == 4 && o != 4))) (0, 0, false)

/-- The refresh limit on a stack (R395), released 2 °C below its trigger; 0 where there is none. -/
def refreshLimit (was : Nat) (t : Int) : Nat :=
  if 95 ≤ t ∨ (was = 975 ∧ 93 ≤ t) then 975 else if 85 ≤ t ∨ (was ≠ 0 ∧ 83 ≤ t) then 1950 else 0

/-- Loop 5's own value for a stack's band (R398), within its bounds, or pinned. -/
def Dev.refreshOf (d : Dev) (band : Nat) : Int :=
  if d.loopPinned 5 then d.loopPin 5
  else min (d.loopUpper 5) (max (d.loopLower 5) (match band with | 4 => 1950 | 3 => 3120 | _ => 3900))

/-- Loop 5 after a sample: the shortest interval of either stack, held by the thermal limit where that is lower. -/
def Dev.judgeRefresh (d : Dev) : Dev :=
  let bands := d.get F.THM_BANDS_bands
  let lims := [0, 1].map (fun i => refreshLimit (d.pow.refresh.getD i 0) (d.dieTemp (6 + i)))
  let own := [d.refreshOf (bits bands 20 18), d.refreshOf (bits bands 23 21)]
  let vals := (own.zip lims).map (fun x => if x.2 = 0 then x.1 else min x.1 (Int.ofNat x.2))
  let d := (d.onPow (fun p => { p with refresh := lims })).setI (F.WDT_LOOP_VALUE_value.at 4) (vals.foldl min (vals.headD 0))
  if vals == own then (if d.on (F.WDT_LOOP_STAT_clamped.at 4) then d.overrideEnd 5 else d)
  else d.overrideBegin 5 2 (own.foldl max 0)

/-- DIE_TEMP_SAMPLE in the registers (R415, R416, R420): temperatures, bands, the highest Tj, over_max. -/
def Dev.dieRegs (d : Dev) (t : List Int) : Dev :=
  let tj := tjOf t
  let b := d.dieBands t
  let tb_ := bandOf (d.get F.THM_STAT_tj_band) tj
  let top := if d.pow.tjSeen then max tj (d.getI F.THM_TJ_MAX_tj_max) else tj
  let d := ((d.set F.THM_DIE0_temps (packTemps t)).set F.THM_DIE1_temps (packTemps (t.drop 4))).set F.THM_BANDS_bands b.1
  let d := ((d.set F.THM_STAT_tj_band tb_).setI F.THM_TJ_MAX_tj_max top).onPow (fun p => { p with tjSeen := true })
  let d := if b.2.1 = 0 then d else d.bump F.THM_band_changes b.2.1
  let d := if b.2.2 then d.raise 6 else d
  let was := d.on F.THM_STAT_over_max
  let d := d.setB F.THM_STAT_over_max (decide (105 ≤ tj))
  if decide (105 ≤ tj) && !was then ((d.bump F.THM_over_max_events).event 2 .overMax [fieldOfInt 8 tj]).raise 6 else d

/-- DIE_TEMP_SAMPLE (R415, R417): the registers of a head that is clocked, then the thresholds in every state. The cold alarm arises as
Tj falls below −20 °C. -/
def Dev.dieTemps (d : Dev) (t : List Int) (hotUs : Nat) : Dev :=
  let tj := tjOf t
  let wasCold := d.pow.tjSeen && decide (tjOf ((List.range 6).map d.dieTemp) < -20)
  let d := (d.dieRegs t).judgeRefresh
  let d := if tj < -20 && !wasCold then d.zeroize 7 else d
  let d := if 110 ≤ tj then d.thermalDrain else d
  if 115 ≤ tj ∧ 10 ≤ hotUs then d.thermalLatch else d.judgeTemps

/-- The remote channels that TEMP_CHANNELS names for this head. [DEDUCED: log 80] -/
def Dev.tempChannels (d : Dev) : List Nat :=
  ((d.img.tempChannels.filter (fun r => r.head == d.headNo)).flatMap (·.entries)).map (·.channel)

/-- One remote channel's sample (R415 to R417): open or short makes it faulty, in the hot band and high, never critical. -/
def Dev.remoteTemp (d : Dev) (n : Nat) (t : Option Int) : Dev :=
  let wasFault := d.on (F.THM_T_fault.at n)
  let wasHigh := d.on (F.THM_T_high.at n)
  let wasBand := d.get (F.THM_T_band.at n)
  let v := t.getD 0
  let high := t.isNone || decide (d.getI (F.THM_T_CFG_high_c.at n) ≤ v)
  let crit := t.isSome && decide (d.getI (F.THM_T_CFG_crit_c.at n) ≤ v)
  let band := match t with | some v => bandOf wasBand v | none => 4
  let d := (d.setB (F.THM_T_fault.at n) t.isNone).set (F.THM_T_valid.at n) 1
  let d := match t with | some v => d.setI (F.THM_T_temp.at n) v | none => d
  let d := ((d.setB (F.THM_T_high.at n) high).setB (F.THM_T_crit.at n) crit).set (F.THM_T_band.at n) band
  let m := d.get F.THM_STAT_remote_fault
  let d := d.set F.THM_STAT_remote_fault (m - 2 ^ n * bit m n + 2 ^ n * b2n t.isNone)
  let d := if band = wasBand then d else d.bump F.THM_band_changes
  let d := if band = 4 ∧ wasBand ≠ 4 then d.raise 6 else d
  let d := if t.isNone && !wasFault then (d.bump F.THM_remote_faults).event 2 .remoteFault [n] else d
  let d := if high && !wasHigh then (d.bump F.THM_remote_high_events).event 2 .remoteHigh [n] else d
  if crit && d.on (F.THM_T_CFG_crit_drain.at n) then d.thermalDrain else d

/-- REMOTE_TEMP_SAMPLE (R415). Channels that the record does not name are ignored. -/
def Dev.remoteTemps (d : Dev) (t : List (Option Int)) : Dev :=
  ((t.zipIdx).foldl (fun (d : Dev) x => if d.tempChannels.contains x.2 then d.remoteTemp x.2 x.1 else d) d).judgeTemps

/-- Tj and every critical channel lie below their release temperatures (R417). -/
def Dev.coolEnough (d : Dev) : Bool :=
  decide (tjOf ((List.range 6).map d.dieTemp) < 105) &&
  d.tempChannels.all (fun n => !d.on (F.THM_T_CFG_crit_drain.at n) || d.on (F.THM_T_fault.at n) ||
    decide (d.getI (F.THM_T_temp.at n) < d.getI (F.THM_T_CFG_crit_c.at n) - 5))

/-- THERMAL_DRAIN_END (R417). -/
def Dev.thermalDrainEnd (d : Dev) : Dev :=
  if d.pow.thermDrain && d.coolEnough then (d.onPow (fun p => { p with thermDrain := false })).set F.THM_STAT_drain 0 else d

/-! ### Watchdog, engines, units (R387 to R392) -/

/-- WATCHDOG_STAGE1 (R391). -/
def Dev.watchdogOne (d : Dev) : Dev := (((d.set F.WDT_STAT_stage 1).bump F.WDT_wdt_stage1).event 3 .watchdogStage1).raise 11

/-- An engine's number among all: stream engines, control cores, sequencers. -/
def engineKey : EngineId → Nat
  | .se i => i.val
  | .cc i => 32 + i.val
  | .fs i => 64 + i.val
  | _ => 128

/-- A sequencer's lane is wound down and retrained at its reset (R353): nothing but its own state changes before the lane trains. -/
def Dev.sequencerReset (d : Dev) (n : Nat) : Dev :=
  if (d.lane n).active then d.onLane n (fun x => { x with winding := some d.pow.aon })
  else if (d.lane n).state == .down then d else d.trainLane n

/-- An engine hangs (R392): one reset; within 1 s of it, out of service until the next start. CC0 is the watchdog's (R390). -/
def Dev.engineHangs (d : Dev) (e : EngineId) (out : Dev → Dev) (reset : Dev → Dev) : Dev :=
  let k := engineKey e
  match Tab.find? k d.pow.engineResets with
  | some t =>
    if d.pow.aon < t + 10 ^ 9 then (out (d.bump F.WDT_engines_retired)).event 3 .engineRetired [k]
    else (reset ((d.bump F.WDT_engine_resets).onPow (fun p => { p with engineResets := Tab.put k d.pow.aon p.engineResets }))).event 3
      .engineReset [k]
  | none => (reset ((d.bump F.WDT_engine_resets).onPow (fun p => { p with engineResets := Tab.put k d.pow.aon p.engineResets }))).event 3
      .engineReset [k]

/-- A mask register takes one more bit. -/
def Dev.maskBit (d : Dev) (f : Field) (i : Nat) : Dev := d.set f (Nat.lor (d.get f) (2 ^ i))

/-- A unit fails (R173, R387, R389, R390): transiently, its work is done on another; lastingly, it is out of service, with as many as
failed at the same work. -/
def Dev.unitFails (d : Dev) (lasting : Bool) (out : Field) (most : Nat) (transient : Option Field) (k : EvKind) (units : Nat := 1) : Dev :=
  if lasting then ((d.set out (min most (d.get out + units))).bump F.WDT_units_retired units).event 3 k
  else match transient with
    | some f => d.bump f
    | none => d

/-- The floors of the QOS entries whose traffic runs a kind of unit, MB/s (R63, R173). -/
def Image.floorsOf (m : Image) (kind : Nat) : Nat :=
  ((m.qos.flatMap (fun q => q.entries)).filter (fun e => (List.range 16).any (fun c => m.qosRuns e kind c))).map (·.floorMbs) |>.sum

/-- How much of the floors of a kind of unit its remaining units serve, in per mille (R173, R389): all of them, or in proportion to the
rate that is left. -/
def Dev.floorsServed (d : Dev) (kind most : Nat) (out : Field) : Nat :=
  let rate := (most - d.get out) * unitRate kind
  if rate < d.img.floorsOf kind then rate * 1000 / d.img.floorsOf kind else 1000

/-- Units of a kind that remain no longer carry the floors that need them: those are served in proportion, and an event is recorded (R173). -/
def Dev.unitFloors (d : Dev) (kind most : Nat) (out : Field) : Dev :=
  let left := d.floorsServed kind most out
  let d := d.onPow (fun p => { p with served := Tab.put kind left p.served })
  if left < 1000 then d.event 3 .unitsBelowFloor [kind, left] else d

/-- A codec unit's result fails its check (R173): the slot is coded again, on another unit, and where that fails too, on a third, and both
are out of service. -/
def Dev.codecFails (d : Dev) (lasting : Bool) : Dev :=
  let d := d.bump F.RED_codec_recodes
  if lasting then (d.unitFails true F.WDT_UNITS_OUT_codec 48 none .unitRetired 2).unitFloors 1 48 F.WDT_UNITS_OUT_codec else d

/-- ENGINE_HANG (R389, R390, R392). [DEDUCED: log 82, DEDUCED: log 90] -/
def Dev.engineHang (d : Dev) (e : EngineId) : Dev :=
  match e with
  | .se i => if tb (d.get F.WDT_SE_OUT_se) i.val then d else d.engineHangs e (fun d => d.maskBit F.WDT_SE_OUT_se i.val) id
  | .cc i => if i.val = 0 ∨ tb (d.get F.WDT_CC_OUT_cc) i.val then d else d.engineHangs e (fun d => d.maskBit F.WDT_CC_OUT_cc i.val) id
  | .fs i => if d.pow.fsOut.contains i.val then d else
    d.engineHangs e (fun d => (d.onPow (fun p => { p with fsOut := p.fsOut ++ [i.val] })).laneDown i.val .down) (fun d => d.sequencerReset i.val)
  | .codec l => d.codecFails l
  | .hash l => (fun d => if l then d.unitFloors 2 24 F.WDT_UNITS_OUT_hash else d) (d.unitFails l F.WDT_UNITS_OUT_hash 24 (some F.WDT_unit_transient) .unitRetired)
  | .aes l => (fun d => if l then d.unitFloors 3 24 F.WDT_UNITS_OUT_aes else d) (d.unitFails l F.WDT_UNITS_OUT_aes 24 (some F.WDT_unit_transient) .unitRetired)
  | .parity l => d.unitFails l F.WDT_UNITS_OUT_parity 8 (some F.WDT_unit_transient) .unitRetired
  | .deep l => d.unitFails l F.WDT_UNITS_OUT_deep 8 none .deepDecoderOut

/-- STALL_EVENT (R47): a mode in effect or requested has made no progress for so many seconds; a mode that is neither makes no claim and
its time is not counted. -/
def Dev.stalled (d : Dev) (mode seconds : Nat) : Dev :=
  if !d.mode mode && !d.requested mode then d else
  ({ d with modes := { d.modes with idle := Tab.put mode seconds d.modes.idle } } : Dev).event 0 .stall [mode, seconds]

/-! ### Clocks, PCIe, SMBus (R390, R473, R478) -/

/-- Number of a reference clock. -/
def clockNo : RefClk → Nat
  | .sys => 0
  | .net => 1
  | .peer => 2
  | .lane => 3

/-- REFCLK_LOSS (R473): the PLLs hold and move to the on-package oscillator; nothing retrains. [DEDUCED: log 82] -/
def Dev.clockLost (d : Dev) (c : RefClk) : Dev :=
  if d.pow.clocksLost.contains (clockNo c) then d
  else (d.onPow (fun p => { p with clocksLost := p.clocksLost ++ [clockNo c] })).event 1 .refclkLost [clockNo c]

/-- REFCLK_RETURN (R473). -/
def Dev.clockBack (d : Dev) (c : RefClk) : Dev := d.onPow (fun p => { p with clocksLost := p.clocksLost.filter (· != clockNo c) })

/-- PCIE_LINK_DOWN (R390). -/
def Dev.pcieDown (d : Dev) : Dev := d.onPow (fun p => { p with pcieUp := false })
/-- PCIE_LINK_TRAINED (R390). -/
def Dev.pcieTrained (d : Dev) : Dev := d.onPow (fun p => { p with pcieUp := true })

/-- SMB_ALERT_N (R478): low while SYS_INT_STAT.thermal is set. -/
def Dev.smbAlertN (d : Dev) : Bool := !Tab.has 6 d.int.set

/-- BASIC_MANAGEMENT_COMMAND (R478): the NVMe-MI status block at code 0 (length, status flags, SMART warnings inverted, composite
temperature in °C, life used) and the identification block at code 8. [PRESUMED: log 83] -/
def Dev.basicManagement (d : Dev) (code : Nat) : Dev :=
  let warn := d.poolWarnings
  let t := d.composite - 273
  let life := if d.healthValid then d.worstWear else d.boot.settings.life
  let status : Bytes := [6, b8 (b2n d.up * 0x20 + 0x13), b8 (255 - warn), b8 (min t 0x7E), b8 (min life 255), 0, 0]
  if code = 0 then d.emit (.smbus status) else if code = 8 then d.emit (.smbus ([22] ++ leBytes 2 (Config.vendorIds % 65536) ++ zeros 20))
  else d.emit (.smbus [])

/-! ### Power states (R156, R405, R406) -/

/-- Why an l3_req is refused (R406, R419); 0 where it is accepted. [DEDUCED: log 84] -/
def Dev.l3Refusal (d : Dev) : Nat :=
  if d.ownershipBusy then 5
  else if d.ownedMask ≠ 0 then 2
  else if d.shipping || d.jobsWait then 4
  else if d.psHeldAt 3 ≠ 0 then 3
  else 0

/-- L3_REQ (R406). [DEDUCED: log 84] -/
def Dev.l3Request (d : Dev) : Dev :=
  let r := d.l3Refusal
  if r ≠ 0 then (d.set F.RST_L3_RES_result r).event 1 .l3Refused [r]
  else ((d.onNv (fun n => { n with entering := some 4 })).set F.NVQ_PS_entering 1).set F.RST_L3_RES_result 1

/-- Enter L3: SLEEP to the arbiter, the cache written back, keys lost, ARB_HB held high until L3 ends (R251, R406). -/
def Dev.enterL3 (d : Dev) : Dev :=
  let d := (((d.arbSend 6).scReset).bump F.RST_l3_entries).onCip (fun _ => {})
  ((d.onPow (fun p => { p with run := .l3 })).onPins (fun p => { p with arbHb := true })).set F.RST_STAT_ps 3

/-- Registers a head keeps in L2 (R10): the others return to their reset values. -/
def Dev.keepOnly (d : Dev) (mask : Nat) : Dev :=
  { d with regs := d.regs.filter (fun e => regMap.any (fun f => f.survives mask && f.lsb == e.1 % 64 && (f.locate (e.1 / 64)).isSome)) }

/-- POWER_STATE_ENTERED (R155, R405): PS2 rests in L1, PS3 in L2; an accepted l3_req in L3. -/
def Dev.psEntered (d : Dev) : Dev :=
  match d.nv.entering with
  | none => d
  | some 4 => ((d.onNv (fun n => { n with entering := none })).set F.NVQ_PS_entering 0).enterL3
  | some 3 =>
    let d := (d.onNv (fun n => { n with entering := none })).keepOnly 16
    ((d.set F.NVQ_PS_entering 0).set F.NVQ_PS_current 3).set F.RST_STAT_ps 2
  | some t => (((d.onNv (fun n => { n with entering := none })).set F.NVQ_PS_entering 0).set F.NVQ_PS_current t).set F.RST_STAT_ps 1

/-- The hottest band of a pool's dies. [DEDUCED: log 107] -/
def Dev.poolBand (d : Dev) (p : PoolRec) : Nat :=
  ((d.poolDies p).map (fun x => match d.laneOf x.1 with
    | some l => (d.die l x.2).band
    | none => 0)).foldl max 0

/-- LIFE_FIGURE_WRITE (R377, R378): every hour the life figure goes to the settings area, and every owned pool counts the hour in its
temperature band. [DEDUCED: log 107] -/
def Dev.lifeFigureWrite (d : Dev) (ok : Bool) : Dev :=
  let d : Dev := if ok && d.healthValid then
      { d with boot := { d.boot with settings := { d.boot.settings with life := d.worstWear } } } else d
  d.ownedPools.foldl (fun (d : Dev) p => d.onPool p.poolId (fun q =>
    { q with bandHours := Tab.put (d.poolBand p) (Tab.getD q.bandHours (d.poolBand p) 0 + 1) q.bandHours })) d

/-- A supply outside its monitor window zeroizes (R215, R469); the core monitor is disarmed in L3 and while parked. [DEDUCED: log 84] -/
def Dev.railAlarm (d : Dev) (core : Bool) : Dev :=
  if core && (d.pow.run == .l3 || d.pow.run == .parked || d.pow.run == .off) then d else d.zeroize 5

/-- The AON crystal stops: the head zeroizes (R215). -/
def Dev.crystalStop (d : Dev) : Dev := d.zeroize 6

end Sys2Proof.Machine
end

