-- ==== Sys2Proof/Machine/Boot.lean ====
section
/-! DEFINITION. Resets and starts (R66, R67, R75, R401 to R404, R411, R412, R418, R441, R445 to R448, R471): what survives, what ROM
boots, which pools the head still owns, and the recovery from a drain. -/
namespace Sys2Proof.Machine

/-! ### Kinds of reset -/

/-- Kinds of reset by RST_STAT.last_reset. [DEDUCED: log 89] -/
def rkPower : Nat := 0
/-- Pin reset. [DEDUCED: log 89] -/
def rkPin : Nat := 1
/-- Warm reset by request. [DEDUCED: log 89] -/
def rkWarm : Nat := 2
/-- Warm reset for an image roll or firmware. -/
def rkRoll : Nat := 3
/-- Watchdog reset. -/
def rkWatchdog : Nat := 4
/-- Takeover reset. -/
def rkTakeover : Nat := 5
/-- Exit from L3. -/
def rkL3 : Nat := 6

/-- The Kept letter of a kind (R10); none for power-on and pin. [DESIGN CHOICE: log 87] -/
def keptMask : Nat → Nat
  | 2 | 3 => 1
  | 4 => 2
  | 5 => 4
  | 6 => 32
  | _ => 0

/-- Power-on or pin reset. -/
def isCold (kind : Nat) : Bool := kind == rkPower || kind == rkPin

/-! ### Ownership at a start (R401, R403, R406, R411) -/

/-- The pools that the head owned when it was last in service; none where it never was. [DEDUCED: log 94] -/
def Dev.ownedBefore (d : Dev) : Option Nat :=
  match d.pow.run with
  | .up | .parked | .l3 => some d.ownedMask
  | _ => d.head.lastOwned

/-- The head still owns those pools: it is no takeover reset or L3 exit, and no claim on its dies carries a higher term. [DEDUCED: log 94] -/
def Dev.stillOwner (d : Dev) (kind : Nat) (b : BootEnv) : Bool :=
  kind != rkTakeover && kind != rkL3 && decide (b.bridgeTerm ≤ d.head.term)

/-- HBM holds what it held: a warm or watchdog reset without a drain before it. -/
def Dev.hbmKept (d : Dev) (kind : Nat) : Bool := (kind == rkWarm || kind == rkRoll || kind == rkWatchdog) && d.pow.drain.isNone

/-- Acknowledged staged slots not on the media. -/
def Dev.dirtySlots (d : Dev) : List Nat := (List.filter (fun (e : Nat × Staged) => !e.2.ghost) d.stg.slots).map (·.1)

/-- Pools that the head no longer owns are given up with their staging; a drain of them is discarded, and with Mirror not in effect an
event counts the slots lost with it (R411). [DEDUCED: log 88, DEDUCED: log 91] -/
def Dev.giveUpPools (d : Dev) : Dev :=
  let n := d.dirtySlots.length
  let all := (d.fl.pools.map (fun e => 2 ^ e.1)).sum
  let d' := (d.dropPools all).setOwned 0
  match d.pow.drain with
  | some r => if r.mirror then d' else d'.event 1 .drainDiscarded [n]
  | none => d'

/-! ### What a drain left (R411, R471) -/

/-- Staging at a start of a head that owns its pools: kept with HBM; from a drain's slots, the others marked unrecovered; else lost.
Answers how many were marked. [DESIGN CHOICE: log 29] -/
def Dev.restoreStaging (d : Dev) (hbm : Bool) : Nat × Dev :=
  if hbm then (0, d)
  else match d.pow.drain with
    | some r =>
      if r.metadata then
        let lost := d.dirtySlots.filter (fun n => !r.slots.contains n)
        (lost.length, (d.markLost lost).loseStaging (fun n => r.slots.contains n))
      else (0, d.loseStaging (fun _ => false))
    | none => (0, d.loseStaging (fun _ => false))

/-- Events that a drain wrote go to the event area. -/
def Dev.restoreEvents (d : Dev) : Dev :=
  match d.pow.drain with
  | some r => if !r.metadata then d else
      let f := flushTo d.boot.area r.events
      { d with boot := { d.boot with area := f.1, areaDropped := d.boot.areaDropped + f.2 }
               evr := { d.evr with buffer := d.evr.buffer.filter (fun x => !r.events.contains x) } }
  | none => d

/-- What the recovery shows of a drain: duration, octets, slots lost, cut short, and recovery under way until the pools are back. -/
def Dev.showDrain (d : Dev) (lost : Nat) : Dev :=
  match d.pow.drain with
  | none => d
  | some r =>
    let d := ((d.set F.RST_DRAIN_TIME_duration_ns r.durationNs).set F.RST_DRAIN_BYTES_bytes r.octets).set F.RST_STAT_recovering 1
    let d := d.onPow (fun p => { p with drain := none })
    if r.sealedOk then d
    else (((d.set F.RST_DRAIN_LOST_slots (d.get F.RST_DRAIN_LOST_slots + lost)).bump F.RST_drains_cut_short).set F.RST_STAT_drain_state 5).event 1
      .drainCutShort [lost]

/-! ### What survives (R404) -/

/-- Dies that hold a suspended erase at a stop, or may: their SUSPEND has had no answer (R340, R353). -/
def Dev.suspendedDies (d : Dev) : List Nat :=
  (d.fl.suspended ++ d.fl.lanes.flatMap (fun l => ((l.2.dies.filter (fun x => x.2.susp.isSome)).map (·.1) ++
    (l.2.cmds.filter (fun c => c.op == .suspend)).map (·.die)).map (dieKey l.2.module))).eraseDups

/-- The head's parts after a reset of a kind, before ROM runs: everything that survives, the rest at its reset value. [DESIGN CHOICE: log 87] -/
def Dev.survivors (d : Dev) (kind : Nat) (b : BootEnv) (metadata : Bool) : Dev :=
  let cold := isCold kind
  let keys := !cold && kind != rkL3
  let ring := metadata && !(kind == rkTakeover)
  let latch := kind != rkPower && d.pow.latch
  let was : List (Nat × Nat) := (d.keepOnly (keptMask kind)).regs
  { regs := was
    evr := { buffer := if kind = rkPower then [] else d.evr.buffer, nextSeq := d.evr.nextSeq }
    trc := { offered := d.trc.offered }
    cnt := { sel := if cold then ({} : CntState).sel else d.cnt.sel }
    boot := d.boot
    sim := { active := d.sim.active, activeCopy := d.sim.activeCopy, inForce := d.sim.inForce }
    pow := { aon := if kind = rkPower then 0 else d.pow.aon, drain := d.pow.drain, latch := latch, clocksLost := d.pow.clocksLost,
             tjSeen := F.THM_TJ_MAX_tj_max.survives (keptMask kind) && d.pow.tjSeen }
    pins := { headSel := if cold then b.headSel else d.pins.headSel, pwrFailN := b.pwrFailN, holdupOk := b.holdupOk, fenceN := b.fenceN,
              recoveryN := b.recoveryN, tamper := d.pins.tamper, thermShdnLow := latch }
    ipt := { chans := Tab.mapV (fun (x : Chan) => x.stopped ring) d.ipt.chans }
    net := { wins := Tab.mapV (fun (w : Win) => ({ horizon := w.horizon, limit := w.limit, lastImm := w.lastImm } : Win)) d.net.wins }
    cip := if keys then { kRoot := d.cip.kRoot, share := d.cip.share, master := d.cip.master, recordedKcv := d.cip.recordedKcv,
                          recordedRkcv := d.cip.recordedRkcv, carKeys := d.cip.carKeys, landKeys := d.cip.landKeys } else {}
    stg := { slots := d.stg.slots, nextSlot := d.stg.nextSlot, nextIngest := d.stg.nextIngest, nextWrite := d.stg.nextWrite
             waysOut := if cold || kind == rkL3 then [] else d.stg.waysOut
             fails := if cold || kind == rkL3 then [] else d.stg.fails }
    head := { term := if cold then 0 else d.head.term, lastOwned := d.head.lastOwned, addrsOut := d.head.addrsOut,
              store := if d.pow.drain.any (fun r => r.metadata && r.takeover.isSome) then d.head.store else {} }
    snp := { nss := d.snp.nss, cars := Tab.mapV Caravan.stopped d.snp.cars, nextCaravan := d.snp.nextCaravan }
    fl := { pools := d.fl.pools, lost := d.fl.lost, suspended := d.suspendedDies }
    free := d.free
    out := d.out }

/-! ### ROM (R441, R446 to R448) -/

/-- ROM enters recovery (R448). -/
def Dev.enterRecovery (d : Dev) : Dev :=
  ((d.onPow (fun p => { p with run := .rom })).set F.SYS_STATUS_rom_mode 1).event 21 .recoveryEntered

/-- The slots that ROM tries, in order (R441): the armed or else the active one, then the other. [DEDUCED: log 74] -/
def BootFlash.tries (b : BootFlash) : List Nat :=
  if b.fw1.state == .armed || (b.fw0.state != .armed && b.fw1.state == .active) then [1, 0] else [0, 1]

/-- The slot that boots: the first whose image passes the check. A slot that the directory calls empty or invalid does not. [DEDUCED: log 74] -/
def Dev.bootSlot (fu : Fuses) (d : Dev) : Option Nat :=
  d.boot.tries.find? (fun i =>
    let s := d.boot.slot i
    s.state != .empty && s.state != .invalid && fwFault fu.minSecurity s.bytes == 0)

/-- What boot flash lost with the reset (R75, R447): a chunk being written ends with 0x0A, a copy being written with 0x0047, a staged image
is discarded, but for one that stood staged when PWR_FAIL_N came: that waits to be activated again. `was` is the head before the reset. -/
def Dev.bootFlashLost (d was : Dev) : Dev :=
  let d := match was.fwu.chunk with
    | none => d
    | some (img, _) =>
      let d := match img, was.fwu.slot with
        | false, some i => d.setSlot i { state := .invalid, bytes := [] }
        | _, _ => d
      (d.set F.FWU_STAT_result 0x0A).event 21 .flashWriteLost
  let half := was.sim.staged.isSome && !was.sim.onFlash && !was.sim.armed
  let d := if half then d.simFails .flashWriteLost 0x0047 0 0 else d
  if was.pow.drain.isSome && was.sim.staged.isSome && was.sim.onFlash && !was.sim.armed then
    d.onSim (fun s => { s with staged := was.sim.staged, live := was.sim.live, onFlash := true })
  else [0, 1].foldl (fun (d : Dev) i =>
    if (d.boot.copy i).state == .staged then (d.setCopy i {}).event 22 .imageDiscarded else d) d

/-- Settings whose own format version changed return to their default at a firmware's first start (R446). [DESIGN CHOICE: log 19, DESIGN CHOICE: log 93] -/
def Dev.settingsFollow (d : Dev) (format : Nat) : Dev :=
  let old := d.boot.settings.format
  if old = format then d
  else
    let s := d.boot.settings
    let gone := (Tab.keys s.features).filter (Config.settingChanged old format)
    let acc := s.mgmtAccess && Config.settingChanged old format 65536
    let d : Dev := { d with boot := { d.boot with settings := { s with
      features := List.filter (fun (e : Nat × Nat) => !gone.contains e.1) s.features
      mgmtAccess := s.mgmtAccess && !acc, format := format } } }
    (gone ++ (if acc then [65536] else [])).foldl (fun (d : Dev) k => d.event 21 .settingReset [k]) d

/-- Validate a copy at a start (R66): steps 8 and 9 are left out; the change checks of step 25 are made only where they are asked for.
[DEDUCED: log 92, DEDUCED: log 106] -/
def Dev.copyImage (fu : Fuses) (d : Dev) (changes : Bool) (i : Nat) : Except ImgErr Image :=
  validateImage (d.imgCtx fu none false) (d.boot.copy i).bytes changes

/-- Armed copies are tried first; one that fails is cleared, its code logged and shown (R66). At a warm reset, and at a watchdog reset or an
exit from L3, which start the head as one does, a copy meets the change checks against the active image too (R61 step 25, R65).
[DEDUCED: log 92] -/
def Dev.armedImage (fu : Fuses) (d : Dev) (kind : Nat) : Option (Image × Nat) × Dev :=
  ([0, 1].filter (fun i => (d.boot.copy i).state == .armed)).foldl (fun (r : Option (Image × Nat) × Dev) i =>
    if r.1.isSome then r
    else match r.2.copyImage fu (kind == rkWarm || kind == rkRoll || kind == rkWatchdog || kind == rkL3) i with
      | .ok m => (some (m, i), r.2.setCopy i { r.2.boot.copy i with state := .active })
      | .error e => (none, (r.2.setCopy i { r.2.boot.copy i with state := .cleared }).simFails .armedCopyCleared e.code e.record e.offset)) (none, d)

/-- Else the active copy of highest generation that validates; the codes of copies that fail are logged. -/
def Dev.activeImage (fu : Fuses) (d : Dev) : Option (Image × Nat) × Dev :=
  ([0, 1].filter (fun i => (d.boot.copy i).state == .active)).foldl (fun (r : Option (Image × Nat) × Dev) i =>
    match r.2.copyImage fu false i with
    | .ok m => (match r.1 with
        | some b => if b.1.generation < m.generation then (some (m, i), r.2) else r
        | none => (some (m, i), r.2))
    | .error e => (r.1, r.2.event 22 .copyInvalid [e.code])) (none, d)

/-- The image that a start loads, and its copy. [DEDUCED: log 92] -/
def Dev.bootImage (fu : Fuses) (d : Dev) (kind : Nat) : Option (Image × Nat) × Dev :=
  let a := d.armedImage fu kind
  if a.1.isSome then a else a.2.activeImage fu

/-! ### Firmware starts -/

/-- INITIAL_MODE (R37, R60): loaded into SYS_MODE_REQ at power-on and pin reset. [DEDUCED: log 63] -/
def Dev.initialMode (d : Dev) : Dev :=
  match d.img.initialMode.head? with
  | none => d
  | some r => [(0, F.SYS_MODE_REQ_capture), (1, F.SYS_MODE_REQ_mirror), (2, F.SYS_MODE_REQ_reduce), (3, F.SYS_MODE_REQ_seal),
               (5, F.SYS_MODE_REQ_replicate), (7, F.SYS_MODE_REQ_reshape)].foldl (fun (d : Dev) x => d.setB x.2 (tb r.modeReq x.1)) d

/-- The pools owned at a start: those of before, with the pools the new image adds to the head's normal ones; at the first start the
normal ones. -/
def Dev.startMask (d : Dev) (before : Option Nat) (old : Image) : Nat :=
  let fresh := ((d.img.pools.filter (fun p => p.ownerHead == d.headNo && (old.pool? p.poolId).isNone)).map (fun p => 2 ^ p.poolId)).sum
  match before with
  | none => d.normalMask
  | some m => Nat.lor m fresh

/-- Lanes of the lane map train (R320). -/
def Dev.trainLanes (d : Dev) : Dev :=
  match d.img.lanes? d.headNo with
  | none => d
  | some m => (m.entries.filter (fun e => tb e.laneFlags 0)).foldl (fun (d : Dev) e => d.trainLane e.lane) d

/-- CC0 puts what boot flash and the reset tell into registers. -/
def Dev.startRegs (d : Dev) (kind : Nat) : Dev :=
  let left := 64 - d.boot.settings.retiredPages.length
  let d := (d.set F.STG_HBM_RET_retired d.boot.settings.retiredPages.length).set F.STG_HBM_RET_spares_left left
  let total := (d.stg.waysOut.map (·.2)).sum
  let d := (d.set F.STG_SC_WAYS_ways_out total).setB F.STG_SC_WAYS_degraded (decide (256 < total))
  let d := d.set F.RST_STAT_last_reset kind
  match kind with
  | 2 | 3 => d.bump F.RST_warm_resets
  | 4 => d.bump F.RST_watchdog_resets
  | 5 => d.bump F.RST_takeover_resets
  | _ => d

/-- A takeover that a drain interrupted goes on (R260). -/
def Dev.resumeTakeover (d : Dev) (pools : Option Nat) : Dev :=
  match pools with
  | none => d
  | some m => ((d.onHead (fun h => { h with phasePools := m, phaseStart := d.pow.aon })).setPhase .takeover).issueClaims

/-- The head goes into service under an image (R66, R401, R441). `before` are the pools it resumes, none at its first start. [DESIGN CHOICE: log 11] -/
def Dev.goUp (d : Dev) (kind : Nat) (m : Image) (copy : Nat) (owns : Bool) (before : Option Nat) (takeover : Option Nat) : Dev :=
  let old := d.img
  let added := d.sim.active.isSome && decide (old.generation < m.generation)
  let d := ((d.onPow (fun p => { p with run := .up })).set F.SYS_STATUS_regs_ready 1).setTerm d.head.term
  let d := d.onSim (fun s => { s with active := some m })
  let d := if isCold kind then d.initialMode else d
  let d := if owns then d.setOwned (Nat.land (d.startMask before old) ((d.img.pools.map (fun p => 2 ^ p.poolId)).sum)) else d.setOwned 0
  let d := (d.onSim (fun s => { s with active := some old })).applyImage m
  let d := d.onSim (fun s => { s with activeCopy := copy, full := if added then some (m, old) else none })
  let d := d.ownedPools.foldl (fun (d : Dev) p => d.makePool p) d
  let d := d.bump F.FLX_erase_incomplete ((d.ownedPools.map (fun p =>
    (List.filter (fun (e : Nat × BlockInfo) => e.2.state == 4) (d.pool p.poolId).blocks).length)).sum)
  let d := d.onNv (fun n => { n with ctrls := [(d.localId, d.newCtrl .local_)], unfetched := [] })
  let d := (d.startRegs kind).startTime
  let d := (List.range 4).foldl (fun (d : Dev) i => d.loadTrig i) d
  ((d.scStart.trainLanes).resumeTakeover takeover).refAll

/-- ROM runs (R441, R478): recovery, the latch, or the slot that boots with its image. A slot armed boots in trial, which ends at once where
regs_ready is not reached in time. [DESIGN CHOICE: log 6, DESIGN CHOICE: log 11] -/
def Dev.rom (fu : Fuses) (d : Dev) (kind : Nat) (b : BootEnv) (owns : Bool) (before takeover : Option Nat) : Dev :=
  let d := d.set F.RST_CYCLES_cycles d.boot.settings.powerCycles
  if d.pow.latch then
    (((d.onPow (fun p => { p with run := .latched })).set F.SYS_STATUS_rom_mode 1).set F.THM_STAT_latch 1).set F.RST_STAT_last_reset kind
  else if !b.recoveryN || !b.flashOk then (d.set F.RST_STAT_last_reset kind).enterRecovery
  else
    let slow := (d.bootSlot fu).any (fun i => (d.boot.slot i).state == .armed) && !b.fastEnough
    let d := if slow then
        match d.bootSlot fu with
        | some i => (((d.setSlot i { d.boot.slot i with state := .valid }).set F.FWU_STAT_result 0x10).event 21 .trialFailed [i])
        | none => d
      else d
    match d.bootSlot fu with
    | none => (d.set F.RST_STAT_last_reset kind).enterRecovery
    | some i =>
      let s := d.boot.slot i
      let d := if d.boot.tries.head? = some i then d else (d.event 21 .bootFallback [i]).bump F.FWU_boot_fallbacks
      let d := (((d.set F.SYS_FW_major (fwMajorOf s.bytes)).set F.SYS_FW_minor (fwMinorOf s.bytes)).set F.FWU_STAT_active_slot i)
      let d := d.settingsFollow (fwFormatOf s.bytes)
      match d.bootImage fu kind with
      | (none, d) => (((d.set F.SYS_FW_major 0).set F.SYS_FW_minor 0).set F.RST_STAT_last_reset kind).enterRecovery
      | (some (m, c), d) =>
        let d := d.goUp kind m c owns before takeover
        if s.state == .armed then d.set F.FWU_STAT_state 6 else d

/-! ### A reset and the start that follows -/

/-- Every reset of R401 but the function-level and single-engine ones, and every exit from L3: what is under way stops, what survives is
kept, and ROM starts the head. [DESIGN CHOICE: log 6, DESIGN CHOICE: log 11] -/
def Dev.restart (fu : Fuses) (kind : Nat) (b : BootEnv) (d : Dev) : Dev :=
  let was := d
  let before := d.ownedBefore
  let trialLost := kind == rkWatchdog && decide (d.get F.FWU_STAT_state = 6)
  let owns := d.stillOwner kind b
  let hbm := d.hbmKept kind
  let d := if kind = rkPower then { d with boot := { d.boot with settings := { d.boot.settings with powerCycles := d.boot.settings.powerCycles + 1 } } } else d
  let d := d.dropUnacked
  let d := if owns then d else d.giveUpPools
  let d := if owns then d else d.onPow (fun p => { p with drain := none })
  let metadata := hbm || d.pow.drain.any (·.metadata)
  let takeover := d.pow.drain.bind (fun r => if r.metadata then r.takeover else none)
  let r := if owns then d.restoreStaging hbm else (0, d)
  let d := ((r.2.stopPools (!metadata)).onEachNs (fun n x => x.stopped metadata (r.2.locGone (r.2.poolOf n)))).restoreEvents
  let d := d.survivors kind b metadata
  let d := d.onHead (fun h => { h with term := max h.term b.bridgeTerm, lastOwned := some (if owns then before.getD 0 else 0)
                                       addrsOut := h.addrsOut || !owns })
  let d := if before.isNone && owns then d.onHead (fun h => { h with lastOwned := none }) else d
  let d := (d.showDrain r.1).bootFlashLost was
  let d := if was.evr.flushing then d.flushEvents else d
  let d := if trialLost then
      let i := was.runSlot
      ((d.setSlot i { d.boot.slot i with state := .valid }).set F.FWU_STAT_result 0x10).event 21 .trialFailed [i]
    else d
  d.rom fu kind b owns (if owns then before else some 0) takeover

/-! ### Starts by their causes -/

/-- What a start within the same power cycle finds: the pins as they stand, and the term the bridges report. -/
def Dev.envNow (d : Dev) : BootEnv :=
  { recoveryN := d.pins.recoveryN, headSel := d.pins.headSel, pwrFailN := d.pins.pwrFailN, holdupOk := d.pins.holdupOk, fenceN := d.pins.fenceN
    bridgeTerm := (List.range 64).foldl (fun a i => max a (d.get (F.FLX_L_TERM_term.at i))) 0 }

/-- A drain that nothing was written for: a main rail left its range without warning (R471). -/
def noDrain (d : Dev) : DrainRec :=
  { sealedOk := false, metadata := false, slots := [], mirror := d.mode 1, takeover := none, events := [], durationNs := 0, octets := 0 }

/-- MAIN_RAIL_LOSS (R471): no drain; the next start records the event and recovers without drain metadata. -/
def Dev.railLoss (fu : Fuses) (d : Dev) (kind : Nat) (b : BootEnv) : Dev :=
  let d := if d.up && d.pow.drain.isNone then d.onPow (fun p => { p with drain := some (noDrain d) }) else d
  (d.restart fu kind b).event 1 .mainRailLost

/-- POWER_ON_RESET (R401). A head that was in service had lost its rails without warning. [DESIGN CHOICE: log 6] -/
def Dev.powerOn (fu : Fuses) (d : Dev) (b : BootEnv) : Dev := if d.up then d.railLoss fu rkPower b else d.restart fu rkPower b

/-- PIN_RESET (R401): the thermal latch and the event buffer stay. [DEDUCED: log 88] -/
def Dev.pinReset (fu : Fuses) (d : Dev) (b : BootEnv) : Dev := d.restart fu rkPin b

/-- A reset that ends a wind-down: at once, or once the share load under way has ended (R204). -/
def Dev.windDown (fu : Fuses) (d : Dev) (kind : Nat) (b : BootEnv) : Dev :=
  if d.cip.loading then d.onPow (fun p => { p with resetOwed := some kind }) else d.restart fu kind b

/-- WARM_RESET (R401): a head in service or in recovery; a latched, parked or sleeping one takes no warm reset. [DEDUCED: log 90] -/
def Dev.warmReset (fu : Fuses) (d : Dev) (b : BootEnv) : Dev :=
  match d.pow.run with
  | .up | .rom => d.windDown fu rkWarm b
  | _ => d

/-- WATCHDOG_STAGE2 (R391, R393): a watchdog reset of a head in service; while a wind-down runs it is held, recorded and acted on at the
wind-down's end. -/
def Dev.watchdogTwo (fu : Fuses) (d : Dev) : Dev :=
  if !d.up then d
  else if d.pow.resetOwed.isSome && d.cip.loading then
    ((d.set F.WDT_STAT_stage 2).bump F.WDT_wdt_held).onPow (fun p => { p with resetOwed := some rkWatchdog, stage2Held := true })
  else ((((d.set F.WDT_STAT_stage 2).set F.WDT_STAT_last_reset 1)).event 3 .watchdogReset).windDown fu rkWatchdog d.envNow

/-- ARB_FENCE_RISE (R256): a takeover reset, after which the head rejoins owning no pool. -/
def Dev.fenceRise (fu : Fuses) (d : Dev) : Dev :=
  if d.pins.fenceN then d
  else
    let d := ((d.onPins (fun p => { p with fenceN := true })).set F.ARB_STAT_fence_pin 0).event 13 .unfenced
    if d.up then d.windDown fu rkTakeover d.envNow else d

/-- A reset that software asks for first releases the pools, under Mirror with the peer in service (R402). -/
def Dev.resetWanted (d : Dev) (kind : Nat) : Dev :=
  let d := d.onPow (fun p => { p with resetOwed := some kind })
  if d.mode 1 && d.on F.HHL_STAT_peer_in_service && d.ownedMask != 0 then d.transferReq false else d

/-- WARM_RESET_PULSE (R402): the reason is a roll where a copy is armed for reset. -/
def Dev.warmPulse (d : Dev) : Dev := d.resetWanted (if d.boot.copy0.state == .armed || d.boot.copy1.state == .armed then rkRoll else rkWarm)

/-- A release that a reset waits for is asked for or under way. [DEDUCED: log 86] -/
def Dev.releaseUnder (d : Dev) : Bool :=
  d.mode 1 && d.on F.HHL_STAT_peer_in_service && d.ownedMask != 0 || d.head.phase == .giving

/-- The reset that is owed happens once no release is needed and no share load is under way; it gives way to a Wadi drain (R414). A watchdog or
takeover reset waits for the load alone. [DEDUCED: log 86] -/
def Dev.payReset (fu : Fuses) (d : Dev) : Dev :=
  match d.pow.resetOwed with
  | none => d
  | some k =>
    if d.cip.loading || d.pow.run == .parked || ((k == rkWarm || k == rkRoll) && d.releaseUnder) then d
    else
      let d' := if d.pow.stage2Held then (d.set F.WDT_STAT_last_reset 2).event 3 .watchdogReset else d
      (d'.onPow (fun p => { p with resetOwed := none, stage2Held := false })).restart fu k d.envNow

/-- FWU_COMMIT (R444, R445): a pulse on a valid slot arms it with its image and asks for the warm reset; in recovery it starts as a pin reset
does (R448). -/
def Dev.fwuCommit (fu : Fuses) (d : Dev) : Dev :=
  if d.pow.run == .rom then
    let armed := d.armUpdate fu
    if d.fwuValid fu || d.fwu.imgDone then armed.restart fu rkPin { d.envNow with recoveryN := true } else d
  else if d.fwuBarred ≠ 0 then d.fwuRefuse d.fwuBarred
  else
    let c := d.commitFault fu
    if c.1 ≠ 0 then d.fwuRefuse c.1 c.2 else (d.armUpdate fu).resetWanted rkRoll

/-- TRIAL_FAILED (R445): a watchdog reset, after which the old slot boots. -/
def Dev.trialFail (fu : Fuses) (d : Dev) : Dev :=
  if d.get F.FWU_STAT_state ≠ 6 then d else d.windDown fu rkWatchdog d.envNow

/-- L3_EXIT (R67, R405, R406): the head starts as after a warm reset, owning no pool, from the copy that such a reset loads (R75): one armed
meanwhile, else the same one. [DESIGN CHOICE: log 115] -/
def Dev.l3Exit (fu : Fuses) (d : Dev) : Dev := if d.pow.run == .l3 then d.restart fu rkL3 d.envNow else d

/-- PARK_RELEASE (R393, R412, R418): both power pins high, no latch. A watchdog expiry held through the drain makes the reset the watchdog's. -/
def Dev.parkRelease (fu : Fuses) (d : Dev) : Dev :=
  if !(d.pow.run == .parked && d.pins.pwrFailN && d.pins.holdupOk && !d.pow.latch) then d
  else if d.pow.stage2Held then ((d.set F.WDT_STAT_last_reset 2).event 3 .watchdogReset).restart fu rkWatchdog d.envNow
  else d.restart fu rkWarm d.envNow

/-- FUNCTION_LEVEL_RESET (R10, R198, R204, R214, R401, R429, R459): the local controller, both services' rings, trace, register fields
without the letter F (the mode bits are computed anew at once), held low words; a share load from host memory
whose fetch has not completed ends with result 4. -/
def Dev.functionReset (d : Dev) : Dev :=
  let d := (d.dropCmds d.localId (fun _ => true)).onCtrl d.localId (fun _ => d.newCtrl .local_)
  let d := (d.set F.NVQ_STAT_local_ready 0).resetJobs
  let kept (e : Nat × Nat) : Bool := e.1 / 64 == F.SYS_MODE_capture.off ||
    regMap.any (fun f => f.survives 8 && f.lsb == e.1 % 64 && (f.locate (e.1 / 64)).isSome)
  let d : Dev := ({ d with trc := { offered := d.trc.offered }, heldLow := [], regs := d.regs.filter kept, msix := {} } : Dev)
  if d.cip.loading then (((d.onCip (fun c => { c with loading := false })).set F.CIP_SHARE_RES_result 4).bump F.CIP_share_refusals).event 10 .shareRefused [4]
  else d

/-- Recovery after a drain ends once every owned pool has an available die and no stripe waits for replay (R411). [DEDUCED: log 94] -/
def Dev.settleRecovery (d : Dev) : Dev :=
  let back (p : PoolRec) : Bool := !(d.poolDies p).isEmpty && !(d.pool p.poolId).stripes.any (fun e => e.2.replay != 0 && e.2.state == .programming)
  if d.on F.RST_STAT_recovering && d.ownedPools.all back then d.set F.RST_STAT_recovering 0 else d

end Sys2Proof.Machine
end

