-- ==== Sys2Proof/Machine/Settle.lean ====
section
/-! DEFINITION. What follows from a command at once: the dirty budget (R221 to R223, R408, R413), the wear placement loop (R374), reshape
(R289), and the order in which everything is brought to what the rest of the state implies. -/
namespace Sys2Proof.Machine

/-! ### The dirty budget -/

/-- After a start the budget is judged once no lane is in its first training and no claim waits for its answer: until then the pools have
no dies to drain to, neither the latch of R222 nor an event begins, and no stripe is judged by its members. [DEDUCED: log 62] -/
def Dev.settleJudged (d : Dev) : Dev :=
  if d.stg.judged || d.fl.lanes.any (fun e => (e.2.state == .training && !e.2.up) || (e.2.cmds ++ e.2.held).any (·.op == .claim)) then d
  else (d.onStg (fun s => { s with judged := true, budgetReached := false })).recheckAll

/-- STG_STAT.budget_reached and over_budget (R222, R226): reached with less than 64 MiB left, until 128 MiB are left again. [DEDUCED: log 95] -/
def Dev.settleReached (d : Dev) : Dev :=
  let used := d.dirty
  let b := d.budget
  let was := d.stg.budgetReached
  let now := decide (b < used + 64 * 2 ^ 20) || (was && d.stg.judged && decide (b < used + 128 * 2 ^ 20))
  let above := decide (b < used)
  let d := (d.onStg (fun s => { s with budgetReached := now })).setB F.STG_STAT_budget_reached now
  let d := if now && !was && d.stg.judged then (d.raise 13).event 11 .budgetReached else d
  let d := if above && !d.on F.STG_STAT_over_budget then d.event 11 .overBudget [used - b] else d
  d.setB F.STG_STAT_over_budget above

/-- What B_eff was computed from (R408): image generation, owned pools, owned dies, and the state of every lane. -/
def Dev.drainBasis (d : Dev) : List Nat :=
  [d.img.generation, d.ownedMask, d.ownedDies.length] ++ d.fl.lanes.flatMap (fun e => [e.1, e.2.state.code])

/-- RST_DRAIN_CAP and drain_limited (R408), and at each recomputation a drain that one die alone would carry (R410). -/
def Dev.settleDrainCap (d : Dev) : Dev :=
  let limited := d.stg.judged && decide (d.budgetEff < d.img.tunablesD.dirtyBudgetMib)
  let n := if d.stg.judged then d.ownedDies.length else 0
  let d := (d.set F.RST_DRAIN_CAP_budget_eff_mib d.budgetEff).set F.RST_DRAIN_CAP_drain_gbs (d.drainRate / 10 ^ 9)
  let d := if limited && !d.on F.RST_STAT_drain_limited then d.event 1 .drainLimited [d.budgetEff] else d
  let basis := if d.stg.judged then d.drainBasis else []
  let d := if n = 1 ∧ d.stg.drainOf ≠ basis then d.event 1 .drainUnprotected else d
  (d.onStg (fun s => { s with drainOf := basis })).setB F.RST_STAT_drain_limited limited

/-! ### The wear placement loop (R374) -/

/-- Where a spread lies: 0 below a quarter of WL_SPREAD, 2 above three quarters, else 1. -/
def wlZoneOf (limit spread : Nat) : Nat := if spread * 4 < limit then 0 else if limit * 3 < spread * 4 then 2 else 1

/-- V of a pool halves as the spread passes three quarters of WL_SPREAD and doubles as it falls below a quarter, within its bounds. -/
def Dev.wearLoop (d : Dev) (p : PoolRec) : Dev :=
  let q := d.pool p.poolId
  let z := wlZoneOf (d.get F.FTL_CFG_wl_spread) (q.peMax - q.peMin (d.poolGood p))
  let clamp (v : Nat) : Nat := (min (d.loopUpper 3) (max (d.loopLower 3) (Int.ofNat v))).toNat
  let v := if d.loopPinned 3 then (d.loopPin 3).toNat
    else if z = 2 ∧ q.wlZone ≠ 2 then clamp (q.wlV / 2)
    else if z = 0 ∧ q.wlZone ≠ 0 then clamp (q.wlV * 2)
    else q.wlV
  d.onPool p.poolId (fun q => { q with wlZone := z, wlV := v })

/-- Every owned pool's V, and that the pools' metadata is loaded (R378). -/
def Dev.settleWear (d : Dev) : Dev :=
  let d := d.ownedPools.foldl Dev.wearLoop d
  let known := d.ownedPools.all (fun p => (d.pool p.poolId).known && !(d.poolDies p).isEmpty)
  let d : Dev := { d with fl := { d.fl with lifeKnown := d.fl.lifeKnown || known } }
  d.setB F.FTL_STAT_health_valid d.healthValid

/-! ### Reshape and pools -/

/-- A requested reshape starts on every owned pool that has a target (R46, R289), and goes on in the others. -/
def Dev.settleReshape (d : Dev) : Dev :=
  let d := if d.on F.SYS_MODE_REQ_reshape then
      (d.img.target.filter (fun t => d.owns t.poolId)).foldl (fun (d : Dev) t => d.reshapeStart t) d
    else d
  d.ownedPools.foldl (fun (d : Dev) p => d.reshapeStep p.poolId) d

/-- What staging and the pools do next: waiting commands, stripes, copies, replay. -/
def Dev.settlePools (d : Dev) : Dev :=
  ((((((d.settleWinding.dropGhosts.settleKeys.settleHeld.pumpWaits).fillStripes).workPools).settleReshape).settleReplay)).settleFetches

/-! ### Everything -/

/-- ARB_HB toggles while the head is in service and unfenced, and stands high in L3 (R251). -/
def Dev.settleHb (d : Dev) : Dev :=
  d.onPins (fun p => { p with arbHb := d.pow.run == .l3 || (d.up && !d.fenced && decide (d.get F.WDT_STAT_stage < 2)) })

/-- What the instrument port and the mode word show. In L2 the mode word's bits are lost until the exit recomputes them (R10, R37). -/
def Dev.settleModesNow (d : Dev) : Dev := if d.get F.RST_STAT_ps = 2 then d else d.settleModes

/-- A head in service, part by part: roles and modes; budget and pools; takeover, writes, Cairns, reads; peer and image; controllers, jobs
and power; configuration, health and recovery; pins. -/
def Dev.settleUp (d : Dev) : Dev :=
  let d := ((d.settleJudged.settleRoles.settleModesNow.recomputeSpans).settleReached).settleDrainCap
  let d := d.fetchWaiting.settlePools
  let d := (((d.settleTakeover.settleWrites).byteCounts).settleReads).settleFlushes
  let d := ((d.settleLandings.settleCars).settleResync).settleArb
  let d := ((d.settlePeriod.settleSim).settleCtrls).settleAna
  let d := ((d.settleWarnings.settleJobs).settlePs).settleCfg
  let d := ((d.settleWear.settleRecovery).settleReached).settleModesNow
  d.settleReady.settleHb

/-- What follows from a command at once. A head not in service drives READY low and runs nothing. -/
def Dev.settle (d : Dev) : Dev :=
  if d.up then d.settleUp else ((d.settleArb).settleReady).settleHb

/-- After every command: what follows from it, and the reset that is owed. [DEDUCED: log 105] -/
def Dev.after (fu : Fuses) (d : Dev) : Dev :=
  let d := d.settle
  if d.pow.resetOwed.isSome then (d.payReset fu).settle else d

/-! ### A tick (the block's clock) -/

/-- TIME moves on by a nanosecond, and by one more or none in each 10,000 while an offset is slewed at 100 ppm (R95); the holdover seconds
left count down. [DESIGN CHOICE: log 2, DESIGN CHOICE: log 25] -/
def Dev.tickTime (d : Dev) : Dev :=
  let s := d.ipt.time.slewLeft
  let due := decide (d.pow.aon % 10000 = 0) && s != 0
  let n := if due then (if 0 < s then 2 else 0) else 1
  let d := d.onTime (fun t => { t with now := t.now + n, slewLeft := if due then (if 0 < s then s - 1 else s + 1) else s })
  if d.timeState = 3 ∧ d.pow.aon % 10 ^ 9 = 0 then d.set F.TMB_HOLD_LEFT_hold_left_s (d.get F.TMB_HOLD_LEFT_hold_left_s - 1) else d

/-- A namespace's next close waits for lookups (R177). -/
def Dev.closeWaits (d : Dev) (nsid : Nat) : Bool :=
  match (d.ns nsid).placed with
  | p :: _ => List.any d.red.lookups (fun (e : Nat × Lookup) => e.2.nsid == nsid && inEpoch p.pos e.2.wid)
  | [] => false

/-- One nanosecond passes on an idle device: the AON timebase and TIME count, with the counters of time (R97, R222, R419, R420). [DESIGN CHOICE: log 2, DEDUCED: log 105] -/
def Dev.tick (d : Dev) : Dev :=
  let d := d.onPow (fun p => { p with aon := p.aon + 1 })
  let d : Dev := if d.pow.aon % 10 ^ 9 = 0 then { d with boot := { d.boot with settings := { d.boot.settings with
      opSeconds := d.boot.settings.opSeconds + 1 } } } else d
  let d := if !d.pins.holdupOk then d.bump F.RST_holdup_low_ns else d
  let d := if d.pow.thermDrain then d.bump F.THM_thermal_drain_ns else d
  let d := if d.ipt.time.running then d.tickTime else d
  let d := if d.stg.budgetReached then d.bump F.STG_budget_ns else d
  let d := ((d.net.gotXoff.map (·.1)).eraseDups).foldl (fun (d : Dev) p => d.bump (F.NET_P_paused_ns.at p)) d
  let d := d.bump F.RED_close_wait_ns (d.snp.nss.filter (fun e => d.closeWaits e.1)).length
  (List.range 8).foldl (fun (d : Dev) c =>
    if (d.chan c).role == .active && !(d.pins.ready.getD c false) then d.bump (F.IPT_CH_ready_low_ns.at c) else d) d

end Sys2Proof.Machine
end

