-- ==== Sys2Proof/Machine/Views.lean ====
section
/-! DEFINITION. What a read of a register field shows. Most fields stand in the register store; the fields here show other state: what a
select register names (R134, R295, R315, R380, R457), the image (R78, R355, R438), pins and fuses, and sums over the head's state. -/
namespace Sys2Proof.Machine

/-- The value a list of fields gives one field. -/
def pick (f : Field) (l : List (Field × Nat)) : Option Nat := (l.find? (fun e => e.1.key == f.key)).map (·.2)

/-- The image in effect, where firmware runs. -/
def Dev.shown (d : Dev) : Option Image := if d.pow.run == .rom || d.pow.run == .latched || d.pow.run == .off then none else d.sim.active

/-- Octet word `j` of some octets. -/
def wordOf (b : Bytes) (j : Nat) : Nat := leNat (sliceZ b (4 * j) 4)

/-- The life figure (R378). -/
def Dev.lifeFigure (d : Dev) : Nat := if d.healthValid then d.worstWear else d.boot.settings.life

/-! ### SYS, RST, SIM, FWU, EVR, CNT, TRC -/

/-- SYS fields that other state holds (R438, R439). -/
def Dev.viewSys (fu : Fuses) (d : Dev) (f : Field) : Option Nat :=
  if f.block = 0 ∧ f.off = F.SYS_INT_STAT_seq.off then some (bits d.int.value f.msb f.lsb) else
  pick f [(F.SYS_ID_stepping, fu.stepping), (F.SYS_STATUS_head, d.headNo), (F.SYS_SERIAL_serial, fu.serial),
    (F.SYS_ARRAY_ID_array_id, (d.shown.map (·.arrayId)).getD 0), (F.SYS_SUMMARY_SEQ_snap_seq, d.snapSeq)]

/-- RST fields that the pins show (R419). -/
def Dev.viewRst (d : Dev) (f : Field) : Option Nat :=
  pick f [(F.RST_STAT_pwr_fail_n, b2n d.pins.pwrFailN), (F.RST_STAT_holdup_ok, b2n d.pins.holdupOk),
    (F.RST_STAT_holdup_low_active, b2n (!d.pins.holdupOk))]

/-- SIM fields (R78). -/
def Dev.viewSim (d : Dev) (f : Field) (i : Nat) : Option Nat :=
  let m := d.shown
  let here (x : Nat) : Nat := if m.isSome then x else 0
  pick f [(F.SIM_STATUS_state, here d.simState), (F.SIM_STATUS_lock_active, b2n (m.any (fun m => m.lockFlags.isSome))),
    (F.SIM_STATUS_boot_only, b2n (m.any (fun m => m.lockFlags.any (fun l => tb l 0)))), (F.SIM_STATUS_roll, here (b2n d.roll)),
    (F.SIM_STATUS_timer_cairns, here (b2n (d.snp.nss.any (fun e => e.2.outside)))),
    (F.SIM_GEN_ACT_generation, (m.map (·.generation)).getD 0),
    (F.SIM_GEN_STG_generation, here ((d.sim.staged.map (·.generation)).getD 0)),
    (F.SIM_GEN_PEER_generation, here ((d.head.peerHb.map (·.generation)).getD 0)),
    (F.SIM_DIGEST_digest, (m.map (fun m => wordOf m.digest i)).getD 0)]

/-- FWU fields (R456). -/
def Dev.viewFwu (fu : Fuses) (d : Dev) (f : Field) (i : Nat) : Option Nat :=
  let s := d.boot.slot i
  let head (x : Nat) : Nat := if s.bytes.length < 96 then 0 else x
  pick f [(F.FWU_SLOT_VER_version, head (fwMajorOf s.bytes * 65536 + fwMinorOf s.bytes)), (F.FWU_SLOT_STAT_state, s.state.code),
    (F.FWU_SLOT_STAT_security, head (fwSecurityOf s.bytes)), (F.FWU_FUSE_owner_blank, b2n fu.ownerHash.isNone),
    (F.FWU_FUSE_kfuse_blank, b2n fu.kFuse.isNone)]

/-- EVR fields (R457). A flush ends with the command that starts it, so flushing reads 0. -/
def Dev.viewEvr (d : Dev) (f : Field) (i : Nat) : Option Nat :=
  let code := d.get F.EVR_CAT_SEL_code
  let cat := Config.catalogueEntry code
  pick f [(F.EVR_STAT_buffered, d.evr.buffer.length), (F.EVR_STAT_flushing, b2n d.evr.flushing), (F.EVR_STAT_clearing, b2n d.evr.clearing),
    (F.EVR_STAT_area_full, b2n (decide (1048576 ≤ d.boot.area.length))), (F.EVR_CTL_key, 0),
    (F.EVR_AREA_records, d.boot.area.length), (F.EVR_DROPPED_dropped, d.boot.areaDropped),
    (F.EVR_RD_STAT_ready, b2n d.evr.ready), (F.EVR_RD_STAT_valid, b2n d.evr.window.isSome),
    (F.EVR_RD_DATA_data, (d.evr.window.map (fun r => wordOf r.bytes i)).getD 0),
    (F.EVR_CAT_severity, (cat.map (·.val)).getD 0), (F.EVR_CAT_defined, b2n cat.isSome),
    (F.EVR_CAT_NAME_name, wordOf (Config.catalogueName code) i)]

/-- CNT fields (R458). -/
def Dev.viewCnt (d : Dev) (f : Field) (i : Nat) : Option Nat :=
  pick f [(F.CNT_SEL_source, bits (d.cnt.sel.getD i 0xFF0000) 10 0), (F.CNT_SEL_instance, bits (d.cnt.sel.getD i 0xFF0000) 23 16),
    (F.CNT_VAL_value, d.cnt.val.getD i 0)]

/-- The octets of a trace packet (R455). -/
def TrcPacket.bytes (p : TrcPacket) : Bytes :=
  leBytes 8 p.timeNs ++ leBytes 1 p.kind ++ leBytes 1 p.block ++ leBytes 2 p.inst ++ leBytes 4 p.data

/-- TRC fields (R459). -/
def Dev.viewTrc (d : Dev) (f : Field) (i : Nat) : Option Nat :=
  pick f [(F.TRC_STAT_running, b2n d.tracing), (F.TRC_STAT_stopped_full, b2n d.trc.stopped), (F.TRC_STAT_fill, d.trc.held.length),
    (F.TRC_LOST_lost, d.trc.lost),
    (F.TRC_RD_DATA_data, ((d.trc.held[d.get F.TRC_RD_IDX_index]?).map (fun p => wordOf p.bytes i)).getD 0)]

/-! ### IPT, TMB, NET, RDM, NVQ -/

/-- Role codes of IPT_CHn_STAT (R97). -/
def Role.code : Role → Nat
  | .disabled => 0
  | .active => 1
  | .standby => 2

/-- IPT fields (R97). -/
def Dev.viewIpt (d : Dev) (f : Field) (i : Nat) : Option Nat :=
  let c := d.chan i
  pick f [(F.IPT_STAT_active, modeMask (fun n => (d.chan n).role == .active)),
    (F.IPT_STAT_standby, modeMask (fun n => (d.chan n).role == .standby)),
    (F.IPT_CH_STAT_role, c.role.code), (F.IPT_CH_STAT_ready, b2n (d.pins.ready.getD i false)), (F.IPT_CH_STAT_hold, d.chanHold i),
    (F.IPT_CH_SLOTS_slots, fieldOfInt 32 c.slots), (F.IPT_CH_FNUM_NEXT_next, d.nextNum i)]

/-- TMB fields (R98). -/
def Dev.viewTmb (d : Dev) (f : Field) (i : Nat) : Option Nat :=
  let t := Tab.getD d.ipt.time.trigs i ({} : Trig)
  pick f [(F.TMB_NOW_now, d.now), (F.TMB_TRIG_STAT_enabled, b2n t.enabled), (F.TMB_TRIG_STAT_level, b2n (d.trigActive i)),
    (F.TMB_TRIG_NEXT_next_ns, t.nextAt.getD 0)]

/-- Whether a sub-port's link is up. -/
def Dev.subUp (d : Dev) (port sub : Nat) : Bool := d.net.up.any (fun s => s.port.val == port && s.sub.val == sub)

/-- NET fields (R133). -/
def Dev.viewNet (d : Dev) (f : Field) (i : Nat) : Option Nat :=
  let pauses (l : List (Nat × Nat)) : Nat := modeMask (fun n => l.contains (i, n))
  pick f [(F.NET_LINK_up, ((List.range 48).map (fun b => b2n (d.subUp (b / 8) (b % 8)) * 2 ^ b)).sum),
    (F.NET_P_STAT_up, modeMask (fun m => d.subUp i m)), (F.NET_P_STAT_xoff_tx, pauses d.net.sentXoff),
    (F.NET_P_STAT_xoff_rx, pauses d.net.gotXoff)]

/-- Window states as RDM_WIN_STAT numbers them (R134). -/
def WinState.code : WinState → Nat
  | .absent => 0
  | .openUnbound => 1
  | .bound => 2
  | .revoked => 3

/-- The queue pair that RDM_QP_SEL names (R134). -/
def Dev.viewQp (d : Dev) (f : Field) : Option Nat :=
  let x := d.qp (d.get F.RDM_QP_SEL_qpn)
  pick f [(F.RDM_QP_STATE_state, x.state.code), (F.RDM_QP_STATE_uc, b2n x.uc), (F.RDM_QP_STATE_spray, b2n x.spray),
    (F.RDM_QP_STATE_protected, b2n x.prot), (F.RDM_QP_STATE_single_path, b2n x.singlePath), (F.RDM_QP_STATE_cached, b2n x.cached),
    (F.RDM_QP_STATE_windows, x.windows.length), (F.RDM_QP_STATE_err_cause, x.errCause), (F.RDM_QP_EPSN_epsn, x.epsn)]

/-- The window that RDM_WIN_SEL names (R134); nothing while the head is not in service. -/
def Dev.viewWin (d : Dev) (f : Field) : Option Nat :=
  let n := d.get F.RDM_WIN_SEL_window
  let w := d.win n
  let hold := match d.img.window? n with
    | some r => if w.state == .absent then 0 else d.winHold r
    | none => 0
  pick f [(F.RDM_WIN_STAT_state, w.state.code), (F.RDM_WIN_STAT_adopted, b2n w.adopted), (F.RDM_WIN_STAT_hold, hold),
    (F.RDM_WIN_QP_qpn, if w.state == .bound then w.qpn else 0), (F.RDM_WIN_HORIZON_offset, w.horizon), (F.RDM_WIN_LIMIT_offset, w.limit),
    (F.RDM_WIN_SPAN_span_kib, w.span / 1024)]

/-- RDM fields (R134). -/
def Dev.viewRdm (d : Dev) (f : Field) : Option Nat :=
  match pick f [(F.RDM_STAT_qps_open, (d.net.qps.filter (fun e => e.2.state != .reset)).length), (F.RDM_CACHE_cached, d.cachedQps),
    (F.RDM_CACHE_pinned, (d.net.qps.filter (fun e => e.2.cached && e.2.pinned)).length),
    (F.RDM_MISS_occ_kib, ceilDiv ((d.net.missUse.map (·.2)).sum) 1024), (F.RDM_MISS_trackers, d.trackers)] with
  | some v => some v
  | none => match d.viewQp f with
    | some v => some v
    | none => d.viewWin f

/-- NVQ fields (R167). -/
def Dev.viewNvq (d : Dev) (f : Field) : Option Nat :=
  pick f [(F.NVQ_STAT_fabric_ctrls, (d.nv.ctrls.filter (fun e => e.2.kind == .fabrics)).length),
    (F.NVQ_STAT_fabric_qps, d.nvmeQps)]

/-! ### STG, ARB, STR, SNP -/

/-- STG fields (R241). -/
def Dev.viewStg (d : Dev) (f : Field) : Option Nat :=
  pick f [(F.STG_STAT_mirror_live, b2n (!d.stg.mirror.isEmpty)), (F.STG_DIRTY_bytes, d.dirty),
    (F.STG_MIRROR_bytes, (d.stg.mirror.map (fun e => 1024 * descCls e.2.desc)).sum),
    (F.STG_INPROG_used_mib, ceilDiv d.inProgress (2 ^ 20)), (F.STG_SC_STAT_dirty_lines, d.stg.dirtyLines)]

/-- Members of a stripe that are out: unavailable and not rebuilt elsewhere. -/
def Dev.membersOut (d : Dev) (s : Stripe) : Nat :=
  if s.state == .healthy || s.state == .degraded then (s.members.filter d.memberOut).length else 0

/-- Distributed spare still free, in per cent of its configured size (R295). -/
def Dev.oasisLeft (d : Dev) (p : PoolRec) : Nat :=
  let size := ((d.poolDies p).map (fun m => d.goodBlocks m.1 m.2 * p.oasisPct / 100)).sum
  let free := ((d.poolDies p).map (fun m =>
    d.goodBlocks m.1 m.2 - (d.pool p.poolId).inStates m.1 m.2 [1, 2, 4] - d.keptApart p m.1)).sum
  if size = 0 then 0 else 100 * min size free / size

/-- Octets of free space that a reshape still lacks (R291). -/
def Dev.reshapeNeed (d : Dev) (p : PoolRec) (q : Pool) (r : Reshape) : Nat :=
  let live := ((q.toCopy r).map (fun e => (e.2.slots.map (fun x => if d.isLive p.poolId (slotLoc e.1 x) then descCls x.desc * 1024 else 0)).sum)).sum
  let free := d.poolFree p * ((p.mods.map (d.blockBytes p)).foldl max 0)
  live * (r.data + r.parity) / r.data - free

/-- The pool that STR_POOL_SEL names (R295). -/
def Dev.viewStrPool (d : Dev) (f : Field) (i : Nat) : Option Nat :=
  let n := d.get F.STR_POOL_SEL_pool
  let q := d.pool n
  let t := d.img.target? n
  let rec? := d.img.pool? n
  let ask (g : PoolRec → Nat) : Nat := (rec?.map g).getD 0
  let reshape (g : PoolRec → Reshape → Nat) : Nat := match rec?, q.reshape with
    | some p, some r => g p r
    | _, _ => 0
  let failed (p : PoolRec) : Nat := (p.members.filter (fun m => match d.laneOf (memberMod m) with
    | some l => (d.die l (memberDie m)).failed
    | none => false)).length
  let modOut (p : PoolRec) : Nat := (p.mods.filter (fun m => !p.members.any (fun x => memberMod x == m && d.dieAvail m (memberDie x)))).length
  pick f [(F.STR_P_GEOM_data_members, q.data), (F.STR_P_GEOM_parity_members, q.parity),
    (F.STR_P_GEOM_target_data, (t.map (·.dataMembers)).getD 0), (F.STR_P_GEOM_target_parity, (t.map (·.parityMembers)).getD 0),
    (F.STR_P_GEOM_page_kib, ask (·.pageKib)), (F.STR_P_STAT_dies_failed, ask failed), (F.STR_P_STAT_modules_out, ask modOut),
    (F.STR_P_STAT_oasis_left_pct, ask d.oasisLeft),
    (F.STR_P_DEG_stripes, (List.filter (fun (e : Nat × Stripe) => d.membersOut e.2 == i + 1) q.stripes).length),
    (F.STR_P_REBUILD_LEFT_rebuild_left, (q.stripes.map (fun e => if q.copied e.2 then 0 else d.membersOut e.2)).sum),
    (F.STR_P_RESHAPE_POS_position, reshape (fun _ r => r.position)),
    (F.STR_P_RESHAPE_LEFT_reshape_left, reshape (fun _ r => (q.toCopy r).length)),
    (F.STR_P_RESHAPE_NEED_need_bytes, reshape (fun p r => d.reshapeNeed p q r)),
    (F.STR_P_NEXT_SEQ_next_seq, if q.known then q.nextSeq else 0)]

/-- STR fields (R295). -/
def Dev.viewStr (d : Dev) (f : Field) (i : Nat) : Option Nat :=
  let owned := d.ownedPools.map (fun p => d.pool p.poolId)
  let e := d.fl.lost[d.get F.STR_LOST_IDX_index]?
  let ask (g : LostStripe → Nat) : Nat := (e.map g).getD 0
  match pick f [(F.STR_STAT_rebuild_active, b2n (d.mode 6 && !d.rebuildPaused)), (F.STR_STAT_rebuild_paused, b2n d.rebuildPaused),
    (F.STR_STAT_reshape_phase, d.reshapePhase), (F.STR_STAT_lost_present, b2n (!d.fl.lost.isEmpty)),
    (F.STR_STAT_unplaceable, b2n (owned.any (fun q => q.stripes.any (fun s => s.2.unplaceable)))),
    (F.STR_STAT_writes_held, b2n (owned.any (·.writesHeld))), (F.STR_LOST_COUNT_entries, d.fl.lost.length),
    (F.STR_LOST_SEQ_stripe_seq, ask (·.seq)), (F.STR_LOST_MASK_lost_mask, ask (·.mask)), (F.STR_LOST_MASK_pool, ask (·.pool)),
    (F.STR_LOST_TIME_time_ns, ask (·.time)),
    (F.STR_JOURNAL_open, (owned.map (fun q => (List.filter (fun (s : Nat × Stripe) => s.2.state == .programming) q.stripes).length)).sum),
    (F.STR_JOURNAL_single_copy, b2n (owned.any (·.singleCopy)))] with
  | some v => some v
  | none => d.viewStrPool f i

/-- The namespace that SNP_NS_SEL names (R315). -/
def Dev.viewNs (d : Dev) (f : Field) : Option Nat :=
  let n := d.get F.SNP_NS_SEL_nsid
  let x := d.ns n
  let marks := ((d.streamsOf n).filter (fun s => s.cairnMaxBytes != 0)).map (fun s => (d.mark n s).isSome)
  pick f [(F.SNP_NS_STAT_retained, x.retained.length), (F.SNP_NS_STAT_outside_guarantee, b2n x.outside),
    (F.SNP_NS_STAT_replica, b2n (x.landing.isSome || x.lastLanded != 0)),
    (F.SNP_NS_STAT_bc_wait, b2n (marks.contains true && marks.contains false)), (F.SNP_NS_STAT_placed, x.placed.length),
    (F.SNP_NS_CLOSED_cairn, x.closed), (F.SNP_NS_PLACED_cairn, x.placedNum)]

/-- Target states as SNP_CAR_STAT numbers them (R315). -/
def CarState.code : CarState → Nat
  | .idle => 0
  | .connecting => 1
  | .shipping => 2
  | .waiting => 3
  | .stopped => 4
  | .refused => 5

/-- SNP fields (R315). [DEDUCED: log 96] -/
def Dev.viewSnp (d : Dev) (f : Field) : Option Nat :=
  let c := d.car (d.get F.SNP_CAR_SEL_target)
  match pick f [(F.SNP_STAT_retained, d.retainedAll),
    (F.SNP_STAT_caravans, (d.snp.cars.filter (fun e => e.2.state != .idle && e.2.state != .refused)).length),
    (F.SNP_DEV_device_id, (d.shown.map (fun _ => d.deviceId)).getD 0), (F.SNP_CAR_STAT_state, c.state.code),
    (F.SNP_CAR_STAT_full, b2n c.full), (F.SNP_CAR_STAT_err, c.err), (F.SNP_CAR_NUM_value, c.num), (F.SNP_CAR_BASE_value, c.base),
    (F.SNP_CAR_END_value, c.end_), (F.SNP_CAR_REC_value, c.confirmed)] with
  | some v => some v
  | none => d.viewNs f

/-! ### FLX, FTL, WDT -/

/-- The dies of a lane for which something holds, as a mask. -/
def dieMask (l : Lane) (p : DieState → Bool) : Nat := (l.dies.map (fun e => b2n (p e.2) * 2 ^ e.1)).sum

/-- FLX fields (R355, R356). [DEDUCED: log 96] -/
def Dev.viewFlx (d : Dev) (f : Field) (i : Nat) : Option Nat :=
  let l := d.lane i
  let e := (d.shown.bind (fun _ => d.laneEntry i))
  let up := (List.range 64).filter (fun n => (d.lane n).active)
  pick f [(F.FLX_L_STAT_module, (e.map (·.module)).getD 0), (F.FLX_L_STAT_module_port, (e.map (·.modulePort)).getD 0),
    (F.FLX_L_PRESENT_dies, dieMask l (·.present)), (F.FLX_L_OWNED_dies, dieMask l (·.claimed)), (F.FLX_L_FAILED_dies, dieMask l (·.failed)),
    (F.FLX_L_SUSP_dies, dieMask l (fun x => x.susp.isSome)), (F.FLX_STAT_lanes_up, up.length),
    (F.FLX_LANES_UP_up, (up.map (2 ^ ·)).sum)]

/-- Live octets in a pool's slots (R380). -/
def Dev.liveBytes (d : Dev) (pool : Nat) : Nat :=
  ((d.pool pool).stripes.map (fun e => (e.2.slots.map (fun x =>
    if d.isLive pool (slotLoc e.1 x) then descCls x.desc * 1024 else 0)).sum)).sum

/-- Blocks of a pool's namespaces whose newest version is unrecovered (R380). -/
def Dev.unrecovered (d : Dev) (pool : Nat) : Nat :=
  (d.snp.nss.map (fun e => if d.poolOf e.1 = pool then (List.filter (fun (m : Nat × Loc) =>
    (d.pool pool).resolve m.2 == .lost) e.2.map).length else 0)).sum

/-- The pool that FTL_POOL_SEL names (R380). -/
def Dev.viewFtlPool (d : Dev) (f : Field) (i : Nat) : Option Nat :=
  let n := d.get F.FTL_POOL_SEL_pool
  let q := d.pool n
  let rec? := if q.known then d.img.pool? n else none
  let ask (g : PoolRec → Nat) : Nat := (rec?.map g).getD 0
  let mean (p : PoolRec) : Nat := if d.poolGood p = 0 then 0 else (q.blocks.map (·.2.pe)).sum / d.poolGood p
  pick f [(F.FTL_P_STAT_read_only, b2n q.readOnly), (F.FTL_P_STAT_eol_warning, b2n q.eol), (F.FTL_P_STAT_reclaiming, b2n q.reclaiming),
    (F.FTL_P_STAT_writes_held, b2n q.hostHeld), (F.FTL_P_STAT_free_pm, ask d.freeFraction), (F.FTL_P_STAT_spare_pm, ask d.spare),
    (F.FTL_P_STAT_wear_used_pct, min 255 (ask d.wearUsed)), (F.FTL_P_PE_pe_min, ask (fun p => q.peMin (d.poolGood p))),
    (F.FTL_P_PE_pe_max, q.peMax), (F.FTL_P_PE_MEAN_pe_mean, ask mean),
    (F.FTL_P_GROWN_grown_bad, ask (fun p => ((d.poolDies p).map (fun m => ((d.dieRec m.1 m.2).map (fun r => r.grownBad.length)).getD 0)).sum)),
    (F.FTL_P_FREE_free_blocks, ask d.poolFree), (F.FTL_P_TEMP_hours, min 0xFFFFFFFF (Tab.getD q.bandHours i 0)),
    (F.FTL_P_TMAX_tmax, (q.tMax.map (fieldOfInt 8)).getD 0), (F.FTL_P_TMAX_hot_entries, min 65535 q.hotEntries),
    (F.FTL_P_UNREC_blocks, d.unrecovered n), (F.FTL_P_LIVE_bytes, d.liveBytes n)]

/-- FTL fields (R380). -/
def Dev.viewFtl (d : Dev) (f : Field) (i : Nat) : Option Nat :=
  let owned := d.ownedPools.map (fun p => d.pool p.poolId)
  match pick f [(F.FTL_STAT_any_read_only, b2n (owned.any (·.readOnly))), (F.FTL_STAT_any_eol, b2n (owned.any (·.eol))),
    (F.FTL_STAT_reclaiming, b2n (owned.any (·.reclaiming))), (F.FTL_STAT_relocating, b2n (owned.any (fun q => !q.relocQ.isEmpty))),
    (F.FTL_STAT_wl_active, b2n (owned.any (·.wlActive))), (F.FTL_LIFE_life_used_pct, min 255 d.lifeFigure),
    (F.FTL_LIFE_eol, b2n (d.fl.pools.any (fun e => e.2.eol)))] with
  | some v => some v
  | none => d.viewFtlPool f i

/-- The value in force of a loop (R394, R400): loop 1 the largest tracked offset, loop 3 the lowest V of the owned pools, loop 4 the lowest
pace; loops 2 and 5 stand in the register store. [DEDUCED: log 85] -/
def Dev.loopShown (d : Dev) (n : Nat) : Option Int :=
  if n = 1 then
    some (((d.fl.lanes.flatMap (fun l => l.2.dies.flatMap (fun x => x.2.offsets.map (fun o => o.2.natAbs)))).foldl max 0 : Nat) : Int)
  else if n = 3 then
    match d.ownedPools.map (fun p => (d.pool p.poolId).wlV) with
    | v :: t => some ((t.foldl min v : Nat) : Int)
    | [] => none
  else none

/-- WDT fields (R400). -/
def Dev.viewWdt (d : Dev) (f : Field) (i : Nat) : Option Nat :=
  if f.key = F.WDT_LOOP_VALUE_value.key then (d.loopShown (i + 1)).map (fieldOfInt 32) else none

/-! ### Any field -/

/-- What a read of element `j` of instance `i` of a field shows. [DEDUCED: log 103] -/
def Dev.field (fu : Fuses) (d : Dev) (f : Field) (i j : Nat) : Nat :=
  let v : Option Nat := match f.block with
    | 0 => d.viewSys fu f
    | 1 => d.viewRst f
    | 3 => d.viewWdt f i
    | 4 => d.viewIpt f i
    | 5 => d.viewTmb f i
    | 6 => d.viewNet f i
    | 7 => d.viewRdm f
    | 8 => d.viewNvq f
    | 11 => d.viewStg f
    | 13 => pick f [(F.ARB_STAT_fence_pin, b2n (!d.pins.fenceN))]
    | 14 => d.viewStr f i
    | 15 => d.viewSnp f
    | 16 => d.viewFlx f i
    | 17 => d.viewFtl f i
    | 18 => d.viewEvr f i
    | 19 => d.viewCnt f i
    | 20 => d.viewTrc f i
    | 21 => d.viewFwu fu f i
    | 22 => d.viewSim f i
    | _ => none
  v.getD (d.get ((f.at i).sub j)) % 2 ^ f.width

end Sys2Proof.Machine
end

