-- ==== Sys2Proof/Machine/RegWrite.lean ====
section
/-! DEFINITION. Register access (R7, R9, R421 to R431, R439): which blocks are served, what a read returns, what a write does, field by
field; 64-bit halves, the bit-alias window, clearing status by sequence number; the local controller's NVMe registers (R166). -/
namespace Sys2Proof.Machine

/-! ### Where an address lies -/

/-- Base of the bit-alias window, and of the unused range after it (R422). -/
def aliasBase : Nat := 0x800000
/-- Base of the unused range (R422). -/
def unusedBase : Nat := 0xA00000

/-- The block number an access event carries (R423). -/
def accessBlock (off : Nat) : Nat := if unusedBase ≤ off then 34 else if aliasBase ≤ off then 0 else blockOf off

/-- A block takes writes now (R418, R424, R448). [DEDUCED: log 9, DEDUCED: log 10] -/
def Dev.takes (d : Dev) (b : Nat) : Bool :=
  match d.pow.run with
  | .up => d.on F.SYS_STATUS_regs_ready || decide (b < 3)
  | .rom => [0, 1, 2, 18, 21].contains b
  | _ => false

/-- A block is read now: as for writes, and under the thermal latch as in recovery. [DEDUCED: log 10] -/
def Dev.shows (d : Dev) (b : Nat) : Bool := d.takes b || (d.pow.run == .latched && [0, 1, 2, 18, 21].contains b)

/-- Whether the head answers register accesses at all. [DEDUCED: log 10] -/
def Dev.answers (d : Dev) : Bool := d.pow.run == .up || d.pow.run == .rom || d.pow.run == .latched

/-- The fields of the register at an offset, with instance and element. -/
def fieldsAt (b off : Nat) : List (Field × Nat × Nat) :=
  (regMap.filter (fun f => f.block == b)).filterMap (fun f => (f.locate off).map (fun p => (f, p.1, p.2)))

/-- Whether the register at an offset is 64 bits wide. -/
def wideAt (b off : Nat) : Bool := (fieldsAt b off).any (fun e => decide (32 ≤ e.1.msb))

/-! ### Reading -/

/-- Dword of the local controller's NVMe registers and MSI-X table (R166), by offset within the block. -/
def Dev.nvqRead (d : Dev) (r : Nat) : Nat :=
  if 0x6000 ≤ r then ((List.range 32).map (fun i => if d.msix.pending.contains (8 * (r - 0x6000) + i) then 2 ^ i else 0)).sum
  else if 0x4000 ≤ r then d.msix.dword r else
  match d.ctrl? d.localId with
  | none => 0
  | some c =>
    if r = 0 then capValue c.kind % 2 ^ 32 else if r = 4 then capValue c.kind / 2 ^ 32
    else if r = 0x08 then 0x20000 else if r = 0x0C ∨ r = 0x10 then c.intms
    else if r = 0x14 then c.cc else if r = 0x1C then c.csts else if r = 0x24 then c.aqa
    else if r = 0x28 then c.asq % 2 ^ 32 else if r = 0x2C then c.asq / 2 ^ 32
    else if r = 0x30 then c.acq % 2 ^ 32 else if r = 0x34 then c.acq / 2 ^ 32 else 0

/-- A dword of the register maps: every field that stands in it. -/
def Dev.mapDword (fu : Fuses) (d : Dev) (b off : Nat) : Nat :=
  let low := ((fieldsAt b off).map (fun e => (d.field fu e.1 e.2.1 e.2.2 * 2 ^ e.1.lsb) % 2 ^ 32)).sum
  let high := (((fieldsAt b (off - 4)).filter (fun e => decide (4 ≤ off) && decide (32 ≤ e.1.msb))).map (fun e =>
    d.field fu e.1 e.2.1 e.2.2 * 2 ^ e.1.lsb / 2 ^ 32)).sum
  low + high

/-- What a dword read returns (R423, R424, R430, R439). -/
def Dev.readDword (fu : Fuses) (d : Dev) (off : Nat) : Nat :=
  if unusedBase ≤ off then 0
  else if aliasBase ≤ off then
    let x := off - aliasBase
    if d.shows 0 ∧ x / 128 * 4 < 0x10000 then bit (d.mapDword fu 0 (x / 128 * 4)) (x % 128 / 4) else 0
  else
    let b := blockOf off
    if !d.shows b then 0
    else if 0x1004 ≤ off ∧ off < 0x106C then d.summary.getD ((off - 0x1004) / 4) 0
    else if b = 8 ∧ off < 0x188000 then d.nvqRead (off - 0x180000)
    else d.mapDword fu b off

/-- Offsets whose dwords the control summary page copies, from 0x1004 on; the place at 0x104C is reserved (R439). -/
def summaryOf : List (Option Nat) :=
  ([0x100, 0x10C, 0x208, 0x300, 0x60000C, 0x300000, 0x10000, 0x20000, 0x30004, 0x50000, 0x40000, 0x280000, 0x340000, 0x500000, 0x240000,
    0x2C0000, 0x188004, 0x440000].map some) ++
  [none, some 0x440010, some 0x440014, some 0x80000, some 0x80004, some 0x280008, some 0x28000C, some 0x50008]

/-- CONTROL_SUMMARY_SNAPSHOT (R439). -/
def Dev.summarize (fu : Fuses) (d : Dev) : Dev :=
  if d.answers then d.snapshot (summaryOf.map (fun o => match o with
    | some off => d.readDword fu off
    | none => 0))
  else d

/-! ### Actions of W1P fields -/

/-- BAR2 octets that an access does not carry: an open value. [DESIGN CHOICE: log 8] -/
def Dev.bar2 (d : Dev) (n : Nat) : Bytes × Dev := let r := d.fresh; (leBytes n r.1, r.2)

/-- RESHAPE_CANCEL (R46, R293): every reshaping pool stops, and with none left the request is cleared. -/
def Dev.reshapeCancel (d : Dev) : Dev :=
  if !d.reshaping then d.event 0 .reshapeIdle else
  let d := d.ownedPools.foldl (fun (d : Dev) p => d.reshapeCancelPool p.poolId) d
  if d.reshaping then d else d.clearReshapeReq

/-- FWU_FUSE pulses on the fuses, with the source octets: the owner key hash first (R449). -/
def fusePulses (fu : Fuses) (d : Dev) (v : Nat) (area : Bytes) : Fuses :=
  let fu' := if tb v 0 then burn fu d false area else fu
  if tb v 1 then burn fu' (if tb v 0 then d.burned fu false else d) true (if tb v 0 then overlay area 0 (zeros 48) else area) else fu'

/-- FWU_FUSE pulses on the rest. [DESIGN CHOICE: log 8] -/
def Dev.fusePulsed (fu : Fuses) (d : Dev) (v : Nat) (area : Bytes) : Dev :=
  let fu' := if tb v 0 then burn fu d false area else fu
  let d := if tb v 0 then d.burned fu false else d
  if tb v 1 then d.burned fu' true else d

/-- One action of SYS, RST, THM to TMB. -/
def Dev.pulseA (d : Dev) (f : Field) (i v : Nat) : Option Dev :=
  if f.key = F.SYS_MODE_CTL_reshape_cancel.key then some d.reshapeCancel
  else if f.key = F.SYS_CFG_COMMIT_commit.key then some d.cfgCommit
  else if f.key = F.SYS_CFG_COMMIT_accept_all.key then some d.cfgAcceptAll
  else if f.key = F.SYS_CFG_COMMIT_reapply.key then some d.cfgReapply
  else if f.key = F.RST_CTL_warm_reset.key then some d.warmPulse
  else if f.key = F.RST_CTL_l3_req.key then some d.l3Request
  else if f.key = F.IPT_CH_SLOT_ADJ_apply.key then some (d.slotAdj i (bits v 15 0))
  else if f.key = F.IPT_CH_HIST_CFG_clear.key then some (d.histClear i)
  else if f.key = F.TMB_SEC_CTL_apply.key then some d.secSetApply
  else none

/-- One action of RDM to FLX. -/
def Dev.pulseB (d : Dev) (f : Field) (i : Nat) : Option Dev :=
  if f.key = F.RDM_QP_CTL_to_error.key then some d.qpToError
  else if f.key = F.RDM_WIN_CTL_revoke.key then some d.winRevoke
  else if f.key = F.RDM_WIN_CTL_reopen.key then some d.winReopen
  else if f.key = F.CIP_CTL_zeroize.key then some (d.zeroize 8)
  else if f.key = F.CIP_CTL_share_load.key then some d.shareBegin
  else if f.key = F.STG_SC_CTL_invalidate.key then some d.scInvalidate
  else if f.key = F.STG_SC_CTL_writeback.key then some d.scWriteback
  else if f.key = F.ARB_CTL_release.key then some (d.transferReq false)
  else if f.key = F.ARB_CTL_handback.key then some (d.transferReq true)
  else if f.key = F.SNP_RET_CTL_retain.key then some d.snpRetain
  else if f.key = F.SNP_RET_CTL_release.key then some d.snpRelease
  else if f.key = F.SNP_CAR_CTL_skip_lost.key then some d.skipLost
  else if f.key = F.SNP_CAR_CTL_restart.key then some d.carRestart
  else if f.key = F.SNP_CAR_CTL_full.key then some d.carFull
  else if f.key = F.FLX_L_CTL_retrain.key then some (d.trainLane i)
  else none

/-- One action of EVR to SIM. Where an access of this kind does not carry BAR2's octets or a flash outcome, they are open values. -/
def Dev.pulseC (fu : Fuses) (d : Dev) (f : Field) (v : Nat) : Option Dev :=
  if f.key = F.EVR_CTL_flush.key then some d.evrFlush
  else if f.key = F.EVR_CTL_clear.key then some (d.evrClear (bits v 31 16))
  else if f.key = F.CNT_CLR_clear_all.key then some d.cntClear
  else if f.key = F.TRC_CTL_clear.key then some d.trcClear
  else if f.key = F.FWU_CTL_chunk.key then some (let r := d.bar2 2097152; r.2.fwuChunk fu r.1)
  else if f.key = F.FWU_CTL_commit.key then some (d.fwuCommit fu)
  else if f.key = F.FWU_CTL_abort.key then some (d.fwuAbort fu)
  else if f.key = F.SIM_CTL_submit.key then some (let r := d.bar2 4194304; r.2.simSubmit r.1)
  else if f.key = F.SIM_CTL_activate.key then some (let r := d.fresh; r.2.simActivate (r.1 % 2 == 1))
  else if f.key = F.SIM_CTL_discard.key then some d.simDiscard
  else none

/-- The action of a W1P field. [DESIGN CHOICE: log 8] -/
def Dev.pulse (fu : Fuses) (d : Dev) (f : Field) (i v : Nat) : Dev :=
  match d.pulseA f i v with
  | some x => x
  | none => match d.pulseB f i with
    | some x => x
    | none => (d.pulseC fu f v).getD d

/-! ### Fields that software writes -/

/-- The new value of a field is an encoding its table reserves (R7); a crit_c below high_c is (R420). -/
def Dev.reservedValue (d : Dev) (f : Field) (i v : Nat) : Bool :=
  decide (v < f.lo) || f.hi.any (fun h => decide (h < v)) ||
    (f.key == F.THM_T_CFG_crit_c.key && decide (signedOf 8 v < d.getI (F.THM_T_CFG_high_c.at i)))

/-- Sub-ports that a new force_down holds down go down. -/
def Dev.forceDown (d : Dev) (p : Fin 6) (v : Nat) : Dev :=
  ((d.softC (F.NET_P_CTL_force_down.at p) v).net.up.filter (fun s => s.port == p && tb v s.sub.val)).foldl (fun (d : Dev) s => d.linkDown s)
    (d.softC (F.NET_P_CTL_force_down.at p) v)

/-- Fields whose write does more than store: those take effect after the plain fields of the same write. -/
def actsOn (f : Field) : Bool :=
  [F.STG_SC_CTL_enable, F.RED_RING_CFG_enable, F.CIP_RING_CFG_enable, F.RED_RING_SQ_TAIL_sq_tail, F.CIP_RING_SQ_TAIL_sq_tail,
    F.RED_RING_CQ_HEAD_cq_head, F.CIP_RING_CQ_HEAD_cq_head, F.FLX_L_CTL_force_down, F.NET_P_CTL_force_down, F.CIP_TAMPER_CFG_enable,
    F.CIP_TAMPER_CFG_active_high, F.EVR_RD_IDX_index, F.EVR_CTL_key].any (fun g => g.key == f.key)

/-- What the write of such a field does. -/
def Dev.actField (d : Dev) (f : Field) (i v : Nat) : Dev :=
  let on_ := v == 1
  if f.key = F.STG_SC_CTL_enable.key then d.scEnable on_
  else if f.key = F.RED_RING_CFG_enable.key then d.ringEnable false i on_
  else if f.key = F.CIP_RING_CFG_enable.key then d.ringEnable true i on_
  else if f.key = F.RED_RING_SQ_TAIL_sq_tail.key then d.sqTail false i v []
  else if f.key = F.CIP_RING_SQ_TAIL_sq_tail.key then d.sqTail true i v []
  else if f.key = F.RED_RING_CQ_HEAD_cq_head.key then d.cqHead false i v []
  else if f.key = F.CIP_RING_CQ_HEAD_cq_head.key then d.cqHead true i v []
  else if f.key = F.FLX_L_CTL_force_down.key then
    if d.get (f.at i) = v then d else (d.softC (f.at i) v).forceLane i on_
  else if f.key = F.NET_P_CTL_force_down.key then d.forceDown (Fin.ofNat 6 i) v
  else if f.key = F.CIP_TAMPER_CFG_enable.key ∨ f.key = F.CIP_TAMPER_CFG_active_high.key then
    let d := d.softC f v
    d.set F.CIP_STAT_tamper_active d.tamperLevels
  else if f.key = F.EVR_RD_IDX_index.key then d.evrIndex v
  else d

/-- LK fields are locked while a LOCK record is active (R9, R76). -/
def Dev.locked (d : Dev) : Bool := d.img.lockFlags.isSome

/-- Software writes one field (R7, R9): a locked field keeps its value, with an event where the value differs; a reserved encoding is
discarded with an event. -/
def Dev.writeField (d : Dev) (f : Field) (i j v : Nat) : Dev :=
  let g := (f.at i).sub j
  let v := v % 2 ^ f.width
  if !f.writable then d
  else if f.acc == .rwlk && d.locked then (if v = d.get g then d else d.event f.block .lockedWrite [g.off, v])
  else if d.reservedValue f i v then d.event f.block .reservedEncoding [g.off, v]
  else if actsOn f then d.actField f i v
  else if f.cls == .config then d.softC g v
  else d.set g v

/-! ### SC registers -/

/-- SC_WRITE_BACK (R426, R427): one more message while an enabled bit is still set. -/
def Dev.scWrite (d : Dev) (v : Nat) : Dev :=
  let d : Dev := { d with int := intWriteBack d.int (bits v 31 20) (bits v 19 0) }
  if d.int.set.any (fun e => d.intEnabled e.1) then d.message (d.get F.SYS_INT_CFG_vector) else d

/-! ### Registers -/

/-- A write of a whole register whose value is `v` (R7, R9, R78, R454). -/
def Dev.writeReg (fu : Fuses) (d : Dev) (b off v : Nat) : Dev :=
  let fs := fieldsAt b off
  if off = F.SYS_INT_STAT_seq.off then d.scWrite v
  else if off = F.SIM_CTL_submit.off ∧ 1 < bit v 0 + bit v 1 + bit v 2 then d.event 22 .simCtlEncoding [v]
  else if off = F.FWU_FUSE_program_owner.off then let r := d.bar2 48; r.2.fusePulsed fu v r.1
  else if b = 19 ∧ off < F.CNT_FRZ_freeze.off then d.cntSelect ((off - F.CNT_SEL_source.off) / 4) v
  else
    let put (d : Dev) (e : Field × Nat × Nat) : Dev := d.writeField e.1 e.2.1 e.2.2 (bits v e.1.msb e.1.lsb)
    let d := (fs.filter (fun e => !actsOn e.1)).foldl put d
    let d := (fs.filter (fun e => actsOn e.1)).foldl put d
    (fs.filter (fun e => e.1.acc == .w1p && tb v e.1.lsb)).foldl (fun (d : Dev) e => d.pulse fu e.1 e.2.1 v) d

/-- The same on the fuses: FWU_FUSE alone reaches them (R449). -/
def fuseWrite (fu : Fuses) (d : Dev) (off v : Nat) : Fuses :=
  if off = F.FWU_FUSE_program_owner.off then fusePulses fu d.fresh.2 v (d.bar2 48).1 else fu

/-- The low word of a 64-bit register held for its block (R429). -/
def Dev.heldAt (d : Dev) (b off : Nat) : Option Nat :=
  match Tab.find? b d.heldLow with
  | some (o, v) => if o = off then some v else none
  | none => none

/-- No low word is held for a block. -/
def Dev.unheld (d : Dev) (b : Nat) : Dev := { d with heldLow := Tab.del b d.heldLow }

/-- A dword of the MSI-X table is written, its reserved bits ignored (R7); a vector unmasked while it is pending is signalled. -/
def Dev.msixWrite (d : Dev) (r v : Nat) : Dev :=
  let v := if r % 16 = 0 then v / 4 * 4 else if r % 16 = 12 then v % 2 else v
  let d : Dev := { d with msix := { d.msix with table := if v = msixReset r then Tab.del r d.msix.table else Tab.put r v d.msix.table } }
  let n := (r - 0x4000) / 16
  if d.msix.pending.contains n && !d.msix.masked n then
    ({ d with msix := { d.msix with pending := d.msix.pending.filter (· != n) } } : Dev).emit (.msix n)
  else d

/-- The local controller's NVMe registers (R166): CC, the interrupt masks, the admin queue; the MSI-X table; the doorbells of completion queues.
A submission queue's doorbell tells of commands that arrive as commands of their own. [DEDUCED: log 48] -/
def Dev.nvqWrite (d : Dev) (r v : Nat) : Dev :=
  let up (f : Ctrl → Ctrl) : Dev := d.onCtrl d.localId f
  if r = 0x14 then d.writeCc v
  else if r = 0x0C then up (fun c => { c with intms := Nat.lor c.intms v })
  else if r = 0x10 then up (fun c => { c with intms := c.intms - Nat.land c.intms v })
  else if r = 0x24 then up (fun c => { c with aqa := Nat.land v 0x0FFF0FFF })
  else if r = 0x28 then up (fun c => { c with asq := c.asq / 2 ^ 32 * 2 ^ 32 + v / 4096 * 4096 })
  else if r = 0x2C then up (fun c => { c with asq := c.asq % 2 ^ 32 + v * 2 ^ 32 })
  else if r = 0x30 then up (fun c => { c with acq := c.acq / 2 ^ 32 * 2 ^ 32 + v / 4096 * 4096 })
  else if r = 0x34 then up (fun c => { c with acq := c.acq % 2 ^ 32 + v * 2 ^ 32 })
  else if 0x1000 ≤ r ∧ r < 0x1408 ∧ r % 8 = 4 then d.cqDoorbell ((r - 0x1000) / 8) (v % 2 ^ 16)
  else if 0x4000 ≤ r ∧ r < 0x4810 then d.msixWrite r v
  else if r < 0x4000 ∨ (0x6000 ≤ r ∧ r < 0x6018) then d
  else d.event 8 .badAccess [0x180000 + r]

/-- A dword write to the bit-alias window (R430, R431). [DEDUCED: log 98] -/
def Dev.aliasWrite (fu : Fuses) (d : Dev) (off v : Nat) : Dev :=
  let x := off - aliasBase
  let o := x / 128 * 4
  let n := x % 128 / 4
  let here := (fieldsAt 0 o).map (fun e => (e, n)) ++
    ((fieldsAt 0 (o - 4)).filter (fun e => decide (4 ≤ o) && decide (32 ≤ e.1.msb))).map (fun e => (e, n + 32))
  if !d.takes 0 then d
  else if here.isEmpty ∧ !(0x1000 ≤ o ∧ o < 0x106C) then d.event 0 .badAccess [off]
  else match here.find? (fun e => decide (e.1.1.lsb ≤ e.2) && decide (e.2 ≤ e.1.1.msb)) with
    | none => d
    | some ((f, i, j), p) =>
      match f.acc with
      | .sc => d.event 0 .badAliasWrite [off]
      | .w1p => if tb v 0 then d.pulse fu f i (2 ^ p) else d
      | .ro | .rh => d
      | .rw | .rwlk =>
        let cur := d.get ((f.at i).sub j)
        let m := 2 ^ (p - f.lsb)
        d.writeField f i j (if tb v 0 then Nat.lor cur m else cur - Nat.land cur m)

/-- A dword write of BAR0 (R423, R424, R429). -/
def Dev.writeDword (fu : Fuses) (d : Dev) (off v : Nat) : Dev :=
  if unusedBase ≤ off then (if d.takes 0 then d.event 34 .badAccess [off] else d)
  else if aliasBase ≤ off then d.aliasWrite fu off v
  else
    let b := blockOf off
    if !d.takes b then d
    else if b = 8 ∧ off < 0x188000 then d.nvqWrite (off - 0x180000) v
    else if wideAt b off then { d with heldLow := Tab.put b (off, v) d.heldLow }
    else if 4 ≤ off ∧ wideAt b (off - 4) then
      let low := (d.heldAt b (off - 4)).getD (d.mapDword fu b (off - 4))
      let d := if (d.heldAt b (off - 4)).isSome then d.unheld b else d
      d.writeReg fu b (off - 4) (low + v * 2 ^ 32)
    else if (fieldsAt b off).isEmpty then
      if 0x1004 ≤ off ∧ off < 0x106C then d else d.event b .badAccess [off]
    else d.writeReg fu b off v

/-- A qword write of BAR0: of a 64-bit register at once, else of two dwords, the low one first (R423, R429). [DEDUCED: log 98] -/
def Dev.writeQword (fu : Fuses) (d : Dev) (off v : Nat) : Dev :=
  let b := blockOf off
  if off < aliasBase ∧ d.takes b ∧ wideAt b off then
    let d := if (d.heldAt b off).isSome then d.unheld b else d
    d.writeReg fu b off v
  else (d.writeDword fu off (v % 2 ^ 32)).writeDword fu (off + 4) (v / 2 ^ 32)

/-- A discarded access (R423). [DEDUCED: log 98] -/
def Dev.badAccess (d : Dev) (off : Nat) : Dev :=
  let b := accessBlock off
  if off < 0x1000000 ∧ d.shows (if b = 34 then 0 else b) then d.event b .badAccess [off] else d

/-- Whether a write's shape is accepted (R423). -/
def writeShape (off len : Nat) : Bool := (len == 4 && off % 4 == 0) || (len == 8 && off % 8 == 0)

/-- Whether a read's shape is accepted (R423). -/
def readShape (off len : Nat) : Bool := (decide (0 < len) && decide (off % 4 + len ≤ 4)) || (len == 8 && off % 8 == 0)

/-- A write of BAR0 of any shape. -/
def Dev.barWrite (fu : Fuses) (d : Dev) (a : RegAccess) : Dev :=
  if 0x1000000 ≤ a.off then d
  else if !writeShape a.off a.len then d.badAccess a.off
  else if a.len = 4 then d.writeDword fu a.off (a.val % 2 ^ 32)
  else d.writeQword fu a.off (a.val % 2 ^ 64)

/-- The fuses after a write of BAR0. -/
def barFuses (fu : Fuses) (d : Dev) (a : RegAccess) : Fuses :=
  if d.takes 21 ∧ writeShape a.off a.len then fuseWrite fu d a.off a.val else fu

/-- MALFORMED_ACCESS (R423): an unsupported shape is discarded or reads zeros, with an event. -/
def Dev.malformedAccess (d : Dev) (write : Bool) (off len : Nat) : Dev :=
  if (if write then writeShape off len else readShape off len) then d else d.badAccess off

end Sys2Proof.Machine
end

