-- ==== Sys2Proof/Machine/Mgmt.lean ====
section
/-! DEFINITION. The SGMII management port (R450): HELLO, register reads and writes, buffer writes, and the kept replies. -/
namespace Sys2Proof.Machine

/-- Reply statuses of R450. -/
def mgOk : Nat := 0
/-- Refused. -/
def mgRefused : Nat := 1
/-- Malformed. -/
def mgMalformed : Nat := 2

/-- A reply is kept among the last 64 and sent to the port the datagram came from (R450). [DEDUCED: log 13] -/
def Dev.mgmtReply (d : Dev) (h : MgmtHdr) (typ status : Nat) (payload : Bytes) : Dev :=
  let r : MgmtReply := { typ := 128 + typ, seq := h.seq, status := status, payload := payload }
  ({ d with mgmt := (r :: d.mgmt).take 64 } : Dev).emit (.mgmt h.src r)

/-- A datagram: nothing where the head answers nothing; a repeated seq gets its kept reply and nothing else; an unsound one is answered
as malformed (R450). [DEDUCED: log 13] -/
def Dev.mgmtRun (d : Dev) (h : MgmtHdr) (typ : Nat) (f : Dev → Dev) : Dev :=
  if !d.answers then d
  else match d.mgmt.find? (fun r => r.seq == h.seq) with
    | some r => d.emit (.mgmt h.src r)
    | none => if h.sound then f d else d.mgmtReply h typ mgMalformed []

/-- Whether register access is served (R450): enabled in the management settings, or in recovery. A latched head is read only. [DESIGN CHOICE: log 14] -/
def Dev.mgmtRegs (d : Dev) (write : Bool) : Bool :=
  d.boot.settings.mgmtAccess || d.pow.run == .rom || (d.pow.run == .latched && !write)

/-- MGMT_HELLO. -/
def Dev.mgmtHello (fu : Fuses) (d : Dev) (h : MgmtHdr) : Dev :=
  let word (f : Field) : Bytes := beBytes 4 (d.readDword fu f.off)
  d.mgmtRun h 1 (fun d => d.mgmtReply h 1 mgOk
    (word F.SYS_ID_part ++ word F.SYS_FW_minor ++ word F.SYS_STATUS_head ++ beBytes 8 fu.serial ++ beBytes 4 d.lifeFigure))

/-- MGMT_REG_READ. [DEDUCED: log 15] -/
def Dev.mgmtRegRead (fu : Fuses) (d : Dev) (h : MgmtHdr) : Dev :=
  d.mgmtRun h 2 (fun d =>
    if !d.mgmtRegs false then d.mgmtReply h 2 mgRefused []
    else if h.arg0 % 4 ≠ 0 ∨ h.arg1 = 0 ∨ 256 < h.arg1 ∨ 0x1000000 < h.arg0 + 4 * h.arg1 then d.mgmtReply h 2 mgMalformed []
    else d.mgmtReply h 2 mgOk ((List.range h.arg1).flatMap (fun i => beBytes 4 (d.readDword fu (h.arg0 + 4 * i)))))

/-- The dwords a payload carries. [DEDUCED: log 15] -/
def payloadDwords (b : Bytes) : List Nat := (List.range (b.length / 4)).map (fun i => beNat (sliceZ b (4 * i) 4))

/-- Writes of consecutive dwords, on fuses and the rest. -/
def mgmtWrites : List Nat → Nat → Fuses × Dev → Fuses × Dev
  | [], _, s => s
  | v :: t, off, (fu, d) =>
    mgmtWrites t (off + 4) (if d.takes 21 then fuseWrite fu d off v else fu, d.writeDword fu off v)

/-- Whether a REG_WRITE's arguments are as R450 gives them. -/
def mgmtWriteShape (h : MgmtHdr) (payload : Bytes) : Bool :=
  h.arg0 % 4 == 0 && payload.length % 4 == 0 && !payload.isEmpty && decide (payload.length ≤ 1024) &&
    decide (h.arg0 + payload.length ≤ 0x1000000)

/-- Whether a REG_WRITE is acted on. -/
def Dev.mgmtWriteTaken (d : Dev) (h : MgmtHdr) (payload : Bytes) : Bool :=
  d.answers && !d.mgmt.any (fun r => r.seq == h.seq) && h.sound && d.mgmtRegs true && mgmtWriteShape h payload

/-- MGMT_REG_WRITE, on everything but the fuses. -/
def Dev.mgmtRegWrite (fu : Fuses) (d : Dev) (h : MgmtHdr) (payload : Bytes) : Dev :=
  d.mgmtRun h 3 (fun d =>
    if !d.mgmtRegs true then d.mgmtReply h 3 mgRefused []
    else if !mgmtWriteShape h payload then d.mgmtReply h 3 mgMalformed []
    else (mgmtWrites (payloadDwords payload) h.arg0 (fu, d)).2.mgmtReply h 3 mgOk [])

/-- MGMT_REG_WRITE on the fuses. -/
def mgmtWriteFuses (fu : Fuses) (d : Dev) (h : MgmtHdr) (payload : Bytes) : Fuses :=
  if d.mgmtWriteTaken h payload then (mgmtWrites (payloadDwords payload) h.arg0 (fu, d)).1 else fu

/-- A share that came over the management port loads as share_load does (R202, R450); a load under way refuses it. -/
def Dev.mgmtShare (fu : Fuses) (d : Dev) (h : MgmtHdr) (payload : Bytes) : Dev :=
  if !d.up ∨ d.cip.loading then
    (if d.up then (d.shareBegin).mgmtReply h 4 mgRefused [] else d.mgmtReply h 4 mgRefused [])
  else ((d.shareBegin).shareDone fu payload false).mgmtReply h 4 mgOk []

/-- MGMT_BUF_WRITE. [DEDUCED: log 13] -/
def Dev.mgmtBufWrite (fu : Fuses) (d : Dev) (h : MgmtHdr) (payload : Bytes) : Dev :=
  let n := payload.length
  d.mgmtRun h 4 (fun d =>
    if 1024 < n ∨ 2 < h.arg0 then d.mgmtReply h 4 mgMalformed []
    else if d.pow.run = .latched then d.mgmtReply h 4 mgRefused []
    else if h.arg0 = 0 then
      if 4194304 < h.arg1 + n then d.mgmtReply h 4 mgMalformed []
      else (d.onSim (fun s => { s with mgmtImage := overlay s.mgmtImage h.arg1 payload
                                       mgmtHigh := if n = 0 then s.mgmtHigh else max s.mgmtHigh (h.arg1 + n) })).mgmtReply h 4 mgOk []
    else if h.arg0 = 1 then
      if 2097152 < h.arg1 + n then d.mgmtReply h 4 mgMalformed []
      else (d.onSim (fun s => { s with mgmtFw := overlay s.mgmtFw h.arg1 payload })).mgmtReply h 4 mgOk []
    else if n ≠ 64 ∨ h.arg1 ≠ 0 then d.mgmtReply h 4 mgMalformed []
    else d.mgmtShare fu h payload)

end Sys2Proof.Machine
end

