-- ==== Sys2Proof/Machine/Run.lean ====
section
/-! DEFINITION. How a command's effect becomes an outcome: the effect, then what follows from it at once (`Dev.after`). -/
namespace Sys2Proof.Machine

/-- A command that leaves the fuses alone. [DESIGN CHOICE: log 1] -/
def State.run (s : State) (f : Fuses → Dev → Dev) : Host.Outcome State Fault Refusal :=
  .next { s with dev := (f s.fuses s.dev).after s.fuses }

/-- A command that may burn fuses. [DESIGN CHOICE: log 1] -/
def State.runF (s : State) (g : Fuses → Dev → Fuses) (f : Fuses → Dev → Dev) : Host.Outcome State Fault Refusal :=
  .next { s with fuses := g s.fuses s.dev, dev := (f s.fuses s.dev).after (g s.fuses s.dev) }

/-- A register's action, where its block takes writes (R424, R448). [DEDUCED: log 9] -/
def Dev.acts (d : Dev) (block : Nat) (f : Dev → Dev) : Dev := if d.takes block then f d else d

end Sys2Proof.Machine
end

