-- ==== Sys2Proof/Machine/ExecRegs.lean ====
section
/-! DEFINITION. Meanings of the commands, one for each row: Register accesses and the actions of the register blocks (R46 to R83, R93 to R112, R202 to R262, R423 to R459), and the management port (R450). -/
namespace Sys2Proof.Machine

/-- A dword or qword write to a BAR0 register that has no row of its own takes effect in order, within 100 ns, subject to access codes, reserved encodings and locks. (R423) -/
def execRegWrite (a : RegAccess) (s : State) : Host.Outcome State Fault Refusal :=
  s.runF (fun fu d => barFuses fu d a)
    (fun fu d => d.barWrite fu a)

/-- A write of an unsupported shape is discarded, and a read of an unsupported shape returns zeros; either records an event. (R423) -/
def execMalformedAccess (write : Bool) (off len : Nat) (s : State) : Host.Outcome State Fault Refusal :=
  s.run (fun _ d => d.malformedAccess write off len)

/-- A low-word write to a 64-bit register is held until the high-word write, or a high-word write applies with the held or present low word. (R429) -/
def execRegWrite64Half (off val : Nat) (s : State) : Host.Outcome State Fault Refusal :=
  s.runF (fun fu d => barFuses fu d { off := off, len := 4, val := val })
    (fun fu d => d.barWrite fu { off := off, len := 4, val := val })

/-- A write to the bit-alias window sets, clears or actions one SYS bit atomically; writes to SC, RO and RH bits are discarded. (R430) -/
def execBitAliasWrite (off val : Nat) (s : State) : Host.Outcome State Fault Refusal :=
  s.runF (fun fu d => barFuses fu d { off := off, len := 4, val := val })
    (fun fu d => d.barWrite fu { off := off, len := 4, val := val })

/-- A write to an SC register clears each masked bit whose set number lies at or before the written sequence number. (R426) -/
def execScWriteBack (off val : Nat) (s : State) : Host.Outcome State Fault Refusal :=
  s.runF (fun fu d => barFuses fu d { off := off, len := 4, val := val })
    (fun fu d => d.barWrite fu { off := off, len := 4, val := val })

/-- A write to SYS_MODE_REQ starts each requested mode change independently. (R52) -/
def execSysModeReqWrite (val : Nat) (s : State) : Host.Outcome State Fault Refusal :=
  s.run (fun fu d => d.acts 0 (fun d => d.writeReg fu 0 F.SYS_MODE_REQ_capture.off (val % 2 ^ 32)))

/-- A reshape_cancel pulse stops the copy of every pool not yet in switch-over at its next stripe boundary and discards the new-layout stripes. (R46) -/
def execReshapeCancel (s : State) : Host.Outcome State Fault Refusal :=
  s.run (fun _ d => d.acts 0 (fun d => d.reshapeCancel))

/-- A submit pulse checks for a lock or busy state, then copies the image and starts its validation. (R70) -/
def execSimSubmit (region : Bytes) (s : State) : Host.Outcome State Fault Refusal :=
  s.run (fun _ d => d.acts 22 (fun d => d.simSubmit region))

/-- Validation of a submitted image ends, either failing with a code or staging the image once the peer's digest agrees. (R61) -/
def execImageValidationDone (s : State) : Host.Outcome State Fault Refusal :=
  s.run (fun fu d => d.whenUp (fun d => d.validationDone fu))

/-- The staged image finishes being written to the inactive boot-flash copy, or fails with 0x0047. (R70) -/
def execStagedCopyWritten (ok : Bool) (s : State) : Host.Outcome State Fault Refusal :=
  s.run (fun _ d => d.whenUp (fun d => d.stagedWritten ok))

/-- An activate pulse either waits for the activation point of a staged-live image or arms a staged-for-reset image. (R71) -/
def execSimActivate (stateWordOk : Bool) (s : State) : Host.Outcome State Fault Refusal :=
  s.run (fun _ d => d.acts 22 (fun d => d.simActivate stateWordOk))

/-- Each 10 s that an activation spends waiting in state 4 records an event. (R73) -/
def execActivationWaitEvent (s : State) : Host.Outcome State Fault Refusal :=
  s.run (fun _ d => d.whenUp (fun d => d.activationWait))

/-- A discard pulse discards the staged image, or disarms a copy armed for reset. (R78) -/
def execSimDiscard (s : State) : Host.Outcome State Fault Refusal :=
  s.run (fun _ d => d.acts 22 (fun d => d.simDiscard))

/-- An apply pulse adds the signed amount to the channel's slot counter within 100 ns. (R83) -/
def execSlotAdjApply (ch : Fin 8) (amount : Nat) (s : State) : Host.Outcome State Fault Refusal :=
  s.run (fun _ d => d.acts 4 (fun d => d.slotAdj ch.val amount))

/-- A clear pulse zeroes both histograms of the channel. (R93) -/
def execHistClear (ch : Fin 8) (s : State) : Host.Outcome State Fault Refusal :=
  s.run (fun _ d => d.acts 4 (fun d => d.histClear ch.val))

/-- An apply pulse sets the TIME seconds at the next PPS_IN edge or TIME second, and is ignored under PTP. (R94) -/
def execSecSetApply (s : State) : Host.Outcome State Fault Refusal :=
  s.run (fun _ d => d.acts 5 (fun d => d.secSetApply))

/-- A to_error pulse moves the selected queue pair to Error. (R104) -/
def execQpToError (s : State) : Host.Outcome State Fault Refusal :=
  s.run (fun _ d => d.acts 7 (fun d => d.qpToError))

/-- A revoke pulse revokes the selected window. (R112) -/
def execWinRevoke (s : State) : Host.Outcome State Fault Refusal :=
  s.run (fun _ d => d.acts 7 (fun d => d.winRevoke))

/-- A reopen pulse returns a revoked window to open-unbound, keeping its horizon and limit. (R112) -/
def execWinReopen (s : State) : Host.Outcome State Fault Refusal :=
  s.run (fun _ d => d.acts 7 (fun d => d.winReopen))

/-- A zeroize pulse raises the software alarm. (R215) -/
def execCipZeroize (s : State) : Host.Outcome State Fault Refusal :=
  s.run (fun _ d => d.acts 10 (fun d => d.zeroize 8))

/-- A share_load pulse starts fetching the 64-byte share from host memory, or is ignored if a load is already under way. (R202) -/
def execShareLoad (s : State) : Host.Outcome State Fault Refusal :=
  s.run (fun _ d => d.acts 10 (fun d => d.shareBegin))

/-- The fetched share is checked, then accepted or refused with a reason in CIP_SHARE_RES, and the internal copy is overwritten. (R203) -/
def execShareLoadDone (data : Bytes) (fault : Bool) (s : State) : Host.Outcome State Fault Refusal :=
  s.run (fun fu d => d.whenUp (fun d => d.shareDone fu data fault))

/-- A write of the stripe cache enable bit either starts a write-back toward disabled, or enables an invalidated cache. (R231) -/
def execScEnableWrite (enable : Bool) (s : State) : Host.Outcome State Fault Refusal :=
  s.run (fun _ d => d.acts 11 (fun d => d.scEnable enable))

/-- An invalidate pulse on a disabled cache sets every tag entry invalid within 12 µs. (R231) -/
def execScInvalidate (s : State) : Host.Outcome State Fault Refusal :=
  s.run (fun _ d => d.acts 11 (fun d => d.scInvalidate))

/-- A writeback pulse writes back every dirty line present and leaves it clean. (R231) -/
def execScWriteback (s : State) : Host.Outcome State Fault Refusal :=
  s.run (fun _ d => d.acts 11 (fun d => d.scWriteback))

/-- The last dirty line is written, and the cache moves from writing back to disabled. (R231) -/
def execScWritebackComplete (s : State) : Host.Outcome State Fault Refusal :=
  s.run (fun _ d => d.whenUp (fun d => d.scWritebackDone))

/-- A release pulse sends TRANSFER_REQ to give all pools to the peer, unless a transfer is refused. (R262) -/
def execArbRelease (s : State) : Host.Outcome State Fault Refusal :=
  s.run (fun _ d => d.acts 13 (fun d => d.transferReq false))

/-- A handback pulse sends TRANSFER_REQ to take back the pools the head owns in normal service. (R262) -/
def execArbHandback (s : State) : Host.Outcome State Fault Refusal :=
  s.run (fun _ d => d.acts 13 (fun d => d.transferReq true))

/-- A retrain pulse starts training of the flash lane. (R320) -/
def execLaneRetrain (lane : Fin 64) (s : State) : Host.Outcome State Fault Refusal :=
  s.run (fun _ d => d.acts 16 (fun d => d.trainLane lane.val))

/-- A retain pulse retains the selected Cairn, or is refused for the limit or for availability. (R307) -/
def execSnpRetain (s : State) : Host.Outcome State Fault Refusal :=
  s.run (fun _ d => d.acts 15 (fun d => d.snpRetain))

/-- A release pulse schedules the release of a retained Cairn at the namespace's next close, unless a Caravan holds it. (R308) -/
def execSnpRelease (s : State) : Host.Outcome State Fault Refusal :=
  s.run (fun _ d => d.acts 15 (fun d => d.snpRelease))

/-- A skip_lost pulse makes a stopped Caravan ship its lost blocks as records with the slot omitted. (R314) -/
def execSkipLost (s : State) : Host.Outcome State Fault Refusal :=
  s.run (fun _ d => d.acts 15 (fun d => d.skipLost))

/-- A restart pulse takes a refused or abandoned target out of state 5, so the next Caravan opens with a new number. (R314) -/
def execCaravanRestart (s : State) : Host.Outcome State Fault Refusal :=
  s.run (fun _ d => d.acts 15 (fun d => d.carRestart))

/-- A full pulse makes the next Caravan full. (R313) -/
def execCaravanMakeFull (s : State) : Host.Outcome State Fault Refusal :=
  s.run (fun _ d => d.acts 15 (fun d => d.carFull))

/-- A warm_reset pulse resets the head, first running a release when it owns pools under Mirror. (R402) -/
def execWarmResetPulse (s : State) : Host.Outcome State Fault Refusal :=
  s.run (fun _ d => d.acts 1 (fun d => d.warmPulse))

/-- An l3_req pulse enters L3 when its conditions hold, and is otherwise refused with a reason in RST_L3_RES. (R406) -/
def execL3Req (s : State) : Host.Outcome State Fault Refusal :=
  s.run (fun _ d => d.acts 1 (fun d => d.l3Request))

/-- A commit pulse makes the next sweep take the CRC of every touched block as its reference. (R435) -/
def execCfgCommit (s : State) : Host.Outcome State Fault Refusal :=
  s.run (fun _ d => d.acts 0 (fun d => d.cfgCommit))

/-- An accept_all pulse takes the next sweep's CRC as the reference of every block. (R437) -/
def execCfgAcceptAll (s : State) : Host.Outcome State Fault Refusal :=
  s.run (fun _ d => d.acts 0 (fun d => d.cfgAcceptAll))

/-- A reapply pulse makes CC0 rewrite every image-set register and update the references, or is refused while an activation waits or switches. (R437) -/
def execCfgReapply (s : State) : Host.Outcome State Fault Refusal :=
  s.run (fun _ d => d.acts 0 (fun d => d.cfgReapply))

/-- A chunk pulse writes one chunk of a firmware or structural image into the inactive slot or copy, unless refused under R444. (R443) -/
def execFwuChunk (data : Bytes) (s : State) : Host.Outcome State Fault Refusal :=
  s.run (fun fu d => d.acts 21 (fun d => d.fwuChunk fu data))

/-- When the last byte has been written, the firmware slot is verified and marked valid. (R443) -/
def execFwuWriteDone (ok : Bool) (s : State) : Host.Outcome State Fault Refusal :=
  s.run (fun fu d => d.fwuWritten fu ok)

/-- A commit pulse arms the valid slot and the staged image, then starts a warm reset into a trial. (R445) -/
def execFwuCommit (s : State) : Host.Outcome State Fault Refusal :=
  s.run (fun fu d => d.acts 21 (fun d => d.fwuCommit fu))

/-- An abort pulse discards a slot that is not yet armed. (R456) -/
def execFwuAbort (s : State) : Host.Outcome State Fault Refusal :=
  s.run (fun fu d => d.acts 21 (fun d => d.fwuAbort fu))

/-- In recovery, this pulse programs the blank owner key hash fuse field once from the source bytes. (R449) -/
def execProgramOwner (source : Bytes) (s : State) : Host.Outcome State Fault Refusal :=
  s.runF (fun fu d => if d.takes 21 then fusePulses fu d 1 source else fu)
    (fun fu d => if d.takes 21 then d.fusePulsed fu 1 source else d)

/-- In recovery, this pulse programs the blank K_fuse field once from the source bytes. (R449) -/
def execProgramKfuse (source : Bytes) (s : State) : Host.Outcome State Fault Refusal :=
  s.runF (fun fu d => if d.takes 21 then fusePulses fu d 2 source else fu)
    (fun fu d => if d.takes 21 then d.fusePulsed fu 2 source else d)

/-- A flush pulse appends the buffered event records to the event area. (R452) -/
def execEvrFlush (s : State) : Host.Outcome State Fault Refusal :=
  s.run (fun _ d => d.acts 18 (fun d => d.evrFlush))

/-- A clear pulse written with the key starts erasing the event area; without the key it records an event. (R453) -/
def execEvrClear (key : Nat) (s : State) : Host.Outcome State Fault Refusal :=
  s.run (fun _ d => d.acts 18 (fun d => d.evrClear key))

/-- The erase of the event area ends, and the clear itself becomes the first record. (R453) -/
def execEvrClearDone (s : State) : Host.Outcome State Fault Refusal :=
  s.run (fun _ d => d.evrClearDone)

/-- A write of the read index starts fetching the named event record into the read window. (R457) -/
def execEvrRdIdxWrite (index : Nat) (s : State) : Host.Outcome State Fault Refusal :=
  s.run (fun _ d => d.acts 18 (fun d => d.evrIndex index))

/-- The named record is in the read window, and ready and valid are set within 200 µs. (R457) -/
def execEvrRecordFetched (s : State) : Host.Outcome State Fault Refusal :=
  s.run (fun _ d => d.evrFetched)

/-- A write of a counter selection zeroes the counter and starts counting the new source. (R454) -/
def execCntSelWrite (counter : Fin 256) (val : Nat) (s : State) : Host.Outcome State Fault Refusal :=
  s.run (fun _ d => d.acts 19 (fun d => d.cntSelect counter.val val))

/-- A clear_all pulse zeroes every event counter. (R458) -/
def execCntClearAll (s : State) : Host.Outcome State Fault Refusal :=
  s.run (fun _ d => d.acts 19 (fun d => d.cntClear))

/-- A clear pulse empties the trace buffer. (R459) -/
def execTrcClear (s : State) : Host.Outcome State Fault Refusal :=
  s.run (fun _ d => d.acts 20 (fun d => d.trcClear))

/-- Advancing a RED ring's submission tail makes the device fetch job descriptors in order while the completion queue has room. (R186) -/
def execRedSqTailWrite (ring : Fin 4) (tail : Nat) (fetched : List Bool) (s : State) : Host.Outcome State Fault Refusal :=
  s.run (fun _ d => d.acts 9 (fun d => d.sqTail false ring.val tail fetched))

/-- Advancing a RED ring's completion head frees completion room, so a held fetch resumes. (R186) -/
def execRedCqHeadWrite (ring : Fin 4) (head : Nat) (fetched : List Bool) (s : State) : Host.Outcome State Fault Refusal :=
  s.run (fun _ d => d.acts 9 (fun d => d.cqHead false ring.val head fetched))

/-- Clearing a ring's enable stops its running jobs with STOPPED, and setting it again restarts fetching at sq_head. (R199) -/
def execRedRingEnableWrite (ring : Fin 4) (val : Nat) (s : State) : Host.Outcome State Fault Refusal :=
  s.run (fun fu d => d.acts 9 (fun d => d.writeReg fu 9 (F.RED_RING_CFG_enable.at ring.val).off (val % 2 ^ 32)))

/-- Advancing a CIP ring's submission tail makes the device fetch cipher job descriptors. (R186) -/
def execCipSqTailWrite (ring : Fin 2) (tail : Nat) (fetched : List Bool) (s : State) : Host.Outcome State Fault Refusal :=
  s.run (fun _ d => d.acts 10 (fun d => d.sqTail true ring.val tail fetched))

/-- Advancing a CIP ring's completion head frees completion room for further fetches. (R186) -/
def execCipCqHeadWrite (ring : Fin 2) (head : Nat) (fetched : List Bool) (s : State) : Host.Outcome State Fault Refusal :=
  s.run (fun _ d => d.acts 10 (fun d => d.cqHead true ring.val head fetched))

/-- Clearing or setting a CIP ring's enable stops or restarts its jobs, as for RED rings. (R214) -/
def execCipRingEnableWrite (ring : Fin 2) (val : Nat) (s : State) : Host.Outcome State Fault Refusal :=
  s.run (fun fu d => d.acts 10 (fun d => d.writeReg fu 10 (F.CIP_RING_CFG_enable.at ring.val).off (val % 2 ^ 32)))

end Sys2Proof.Machine
end

