-- ==== Sys2Proof/Machine/ExecJobs.lean ====
section
/-! DEFINITION. Meanings of the commands, one for each row: Jobs of the reduction and cipher services (R186 to R216), and the management port (R450). -/
namespace Sys2Proof.Machine

/-- A compress job codes its input into DEFLATE blocks on its context and posts a completion. (R190) -/
def execJobCompress (j : JobArgs) (s : State) : Host.Outcome State Fault Refusal :=
  s.run (fun _ d => d.whenUp (fun d => d.submitJob (.jobCompress j)))

/-- A decompress job decodes its input stream on its context and posts a completion. (R190) -/
def execJobDecompress (j : JobArgs) (s : State) : Host.Outcome State Fault Refusal :=
  s.run (fun _ d => d.whenUp (fun d => d.submitJob (.jobDecompress j)))

/-- A flush job writes the output the stream still owes and frees the context. (R194) -/
def execJobFlush (j : JobArgs) (s : State) : Host.Outcome State Fault Refusal :=
  s.run (fun _ d => d.whenUp (fun d => d.submitJob (.jobFlush j)))

/-- A save job writes a 33,856-byte context image and frees the context. (R197) -/
def execJobSaveContext (j : JobArgs) (s : State) : Host.Outcome State Fault Refusal :=
  s.run (fun _ d => d.whenUp (fun d => d.submitJob (.jobSaveContext j)))

/-- A restore job reads a context image and binds the context, or ends with CTX_INVALID. (R197) -/
def execJobRestoreContext (j : JobArgs) (s : State) : Host.Outcome State Fault Refusal :=
  s.run (fun _ d => d.whenUp (fun d => d.submitJob (.jobRestoreContext j)))

/-- An encrypt job encrypts its data on a cipher context in the chosen mode. (R212) -/
def execCipEncrypt (j : CipherArgs) (s : State) : Host.Outcome State Fault Refusal :=
  s.run (fun _ d => d.whenUp (fun d => d.submitJob (.cipEncrypt j)))

/-- A decrypt job decrypts its data, and on a GCM final job checks the tag, ending with AUTH_FAIL on a mismatch. (R212) -/
def execCipDecrypt (j : CipherArgs) (s : State) : Host.Outcome State Fault Refusal :=
  s.run (fun _ d => d.whenUp (fun d => d.submitJob (.cipDecrypt j)))

/-- A load key job binds a context with a clear, wrapped or label-derived key. (R213) -/
def execCipLoadKey (j : CipherArgs) (s : State) : Host.Outcome State Fault Refusal :=
  s.run (fun _ d => d.whenUp (fun d => d.submitJob (.cipLoadKey j)))

/-- A save job writes the cipher context image, wrapped where required, and frees the context. (R213) -/
def execCipSaveContext (j : CipherArgs) (s : State) : Host.Outcome State Fault Refusal :=
  s.run (fun _ d => d.whenUp (fun d => d.submitJob (.cipSaveContext j)))

/-- A restore job reads a cipher context image and binds the context, or ends with CTX_INVALID. (R213) -/
def execCipRestoreContext (j : CipherArgs) (s : State) : Host.Outcome State Fault Refusal :=
  s.run (fun _ d => d.whenUp (fun d => d.submitJob (.cipRestoreContext j)))

/-- A HELLO datagram on the management port returns the identity, firmware version, status, serial and life figure. (R450) -/
def execMgmtHello (h : MgmtHdr) (s : State) : Host.Outcome State Fault Refusal :=
  s.run (fun fu d => d.mgmtHello fu h)

/-- A REG_READ datagram returns 1 to 256 register dwords, when register access is enabled or in recovery. (R450) -/
def execMgmtRegRead (h : MgmtHdr) (s : State) : Host.Outcome State Fault Refusal :=
  s.run (fun fu d => d.mgmtRegRead fu h)

/-- A REG_WRITE datagram writes register dwords, when register access is enabled or in recovery. (R450) -/
def execMgmtRegWrite (h : MgmtHdr) (payload : Bytes) (s : State) : Host.Outcome State Fault Refusal :=
  s.runF (fun fu d => mgmtWriteFuses fu d h payload)
    (fun fu d => d.mgmtRegWrite fu h payload)

/-- A BUF_WRITE datagram writes the image buffer or the firmware buffer, or loads the share. (R450) -/
def execMgmtBufWrite (h : MgmtHdr) (payload : Bytes) (s : State) : Host.Outcome State Fault Refusal :=
  s.run (fun fu d => d.mgmtBufWrite fu h payload)

end Sys2Proof.Machine
end

