-- ==== Sys2Proof/Machine/ExecNet.lean ====
section
/-! DEFINITION. Meanings of the commands, one for each row: Packets, connections, links and timers of the network and of RDMA capture (R99 to R133). -/
namespace Sys2Proof.Machine

/-- A received SEND packet is processed in PSN order on its queue pair, for example as an NVMe capsule. (R120) -/
def execSend (p : Pkt) (pos : MsgPos) (imm : Option Nat) (payload : Bytes) (s : State) : Host.Outcome State Fault Refusal :=
  s.run (fun _ d => d.whenUp (fun d => d.receive (.send p pos imm payload)))

/-- A received RDMA WRITE packet is placed at its offset in the ingest buffers and recorded in the packet bitmap. (R120) -/
def execRdmaWrite (p : Pkt) (pos : MsgPos) (reth : Option Reth) (payload : Bytes) (s : State) : Host.Outcome State Fault Refusal :=
  s.run (fun _ d => d.whenUp (fun d => d.receive (.rdmaWrite p pos reth payload)))

/-- A received WRITE with immediate ends a frame message; its immediate is held until completion and then matched to a strobe. (R89) -/
def execRdmaWriteWithImmediate (p : Pkt) (pos : MsgPos) (reth : Option Reth) (imm : Nat) (payload : Bytes) (s : State) : Host.Outcome State Fault Refusal :=
  s.run (fun _ d => d.whenUp (fun d => d.receive (.rdmaWriteWithImmediate p pos reth imm payload)))

/-- An RDMA READ request on a window's rkey returns visible data within [H − L, H), or causes a remote access error. (R111) -/
def execRdmaReadRequest (p : Pkt) (reth : Reth) (s : State) : Host.Outcome State Fault Refusal :=
  s.run (fun _ d => d.whenUp (fun d => d.receive (.rdmaReadRequest p reth)))

/-- A READ response to the device's own READ delivers host data for an NVMe command; a fault ends the command with Data Transfer Error. (R34) -/
def execRdmaReadResponse (p : Pkt) (payload : Bytes) (last error : Bool) (s : State) : Host.Outcome State Fault Refusal :=
  s.run (fun _ d => d.whenUp (fun d => d.receive (.rdmaReadResponse p payload last error)))

/-- An ACK or NAK received for the device's own sends advances or retransmits its requester state. (R131) -/
def execAcknowledge (p : Pkt) (syndrome msn : Nat) (s : State) : Host.Outcome State Fault Refusal :=
  s.run (fun _ d => d.whenUp (fun d => d.receive (.acknowledge p syndrome msn)))

/-- A received CNP halves the pace of the transmitting queue pair under the credit-pacing loop. (R130) -/
def execCnp (p : Pkt) (s : State) : Host.Outcome State Fault Refusal :=
  s.run (fun _ d => d.whenUp (fun d => d.receive (.cnp p)))

/-- A 0xC0 spray WRITE packet is placed by its header within the reorder window of 4,096 packets. (R125) -/
def execSprayWriteNotLast (p : Pkt) (h : SprayHdr) (payload : Bytes) (s : State) : Host.Outcome State Fault Refusal :=
  s.run (fun _ d => d.whenUp (fun d => d.receive (.sprayWriteNotLast p h payload)))

/-- A 0xC1 spray WRITE packet ends a sprayed message and is placed by its header. (R125) -/
def execSprayWriteLast (p : Pkt) (h : SprayHdr) (payload : Bytes) (s : State) : Host.Outcome State Fault Refusal :=
  s.run (fun _ d => d.whenUp (fun d => d.receive (.sprayWriteLast p h payload)))

/-- A 0xC2 spray WRITE packet ends a sprayed message and carries an immediate. (R125) -/
def execSprayWriteLastImmediate (p : Pkt) (h : SprayHdr) (imm : Nat) (payload : Bytes) (s : State) : Host.Outcome State Fault Refusal :=
  s.run (fun _ d => d.whenUp (fun d => d.receive (.sprayWriteLastImmediate p h imm payload)))

/-- A request outside R99 gets NAK 0x61 with Error on RC, or is discarded and its message abandoned on UC. (R100) -/
def execUnsupportedOpcode (p : Pkt) (transport : Transport) (opcode : Nat) (s : State) : Host.Outcome State Fault Refusal :=
  s.run (fun _ d => d.whenUp (fun d => d.unsupported p transport (.unsupportedOpcode p transport opcode)))

/-- A received PFC frame pauses or resumes transmission of a priority in pfc_mask, and is otherwise ignored and counted. (R130) -/
def execPfcFrame (port : SubPort) (prio : Fin 8) (pause : Bool) (s : State) : Host.Outcome State Fault Refusal :=
  s.run (fun _ d => d.whenUp (fun d => d.pfcFrame port prio.val pause))

/-- A TCP segment opening a connection to a data address is answered with RST. (R100) -/
def execTcpSegment (port : SubPort) (opens toData : Bool) (s : State) : Host.Outcome State Fault Refusal :=
  s.run (fun _ d => d.whenUp (fun d => d.tcpSegment port opens toData))

/-- A CM REQ is accepted or refused with REJ, binding windows or admitting a Caravan or NVMe connection. (R102) -/
def execCmReq (r : CmReq) (s : State) : Host.Outcome State Fault Refusal :=
  s.run (fun _ d => d.whenUp (fun d => d.cmReq r))

/-- A REP received for the device's own REQ moves the queue pair to RTR. (R103) -/
def execCmRep (qpn peerQpn psn : Nat) (priv : Bytes) (s : State) : Host.Outcome State Fault Refusal :=
  s.run (fun _ d => d.whenUp (fun d => d.cmRep qpn peerQpn psn priv))

/-- An RTU moves the queue pair to RTS. (R103) -/
def execCmRtu (qpn : Nat) (s : State) : Host.Outcome State Fault Refusal :=
  s.run (fun _ d => d.whenUp (fun d => d.cmRtu qpn))

/-- A DREQ from the sender moves the queue pair through a flush to Reset and unbinds its windows. (R103) -/
def execCmDreq (qpn : Nat) (s : State) : Host.Outcome State Fault Refusal :=
  s.run (fun _ d => d.whenUp (fun d => d.cmDreq qpn))

/-- A REJ received for a Caravan REQ refuses or abandons the Caravan according to its code. (R314) -/
def execCmRej (qpn code : Nat) (s : State) : Host.Outcome State Fault Refusal :=
  s.run (fun _ d => d.whenUp (fun d => d.cmRej qpn code))

/-- A sub-port link goes down; protected queue pairs continue on a single path, and unprotected connections fail. (R128) -/
def execNetLinkDown (port : SubPort) (s : State) : Host.Outcome State Fault Refusal :=
  s.run (fun _ d => d.whenUp (fun d => d.linkDown port))

/-- A sub-port link comes up, and duplicate sending resumes within 1 ms. (R128) -/
def execNetLinkUp (port : SubPort) (s : State) : Host.Outcome State Fault Refusal :=
  s.run (fun _ d => d.whenUp (fun d => d.linkUp port))

/-- A queue-pair context fetch from HBM ends, and the packets held in the miss buffer are processed. (R106) -/
def execContextFetchDone (qpn : Nat) (fault : Bool) (s : State) : Host.Outcome State Fault Refusal :=
  s.run (fun _ d => d.whenUp (fun d => d.contextFetched qpn fault))

/-- 10 ms after Error or disconnect, the queue pair returns to Reset, and windows with auto_reopen reopen. (R103) -/
def execQpResetTimeout (qpn : Nat) (s : State) : Host.Outcome State Fault Refusal :=
  s.run (fun _ d => d.whenUp (fun d => d.qpReset qpn))

/-- A UC message with no packet for 5 ms is abandoned. (R129) -/
def execUcMessageTimeout (qpn : Nat) (s : State) : Host.Outcome State Fault Refusal :=
  s.run (fun _ d => d.whenUp (fun d => d.ucTimeout qpn))

/-- Every 16 µs while a gap persists on a sprayed queue pair, a SACK report is sent. (R127) -/
def execSackGapTimer (qpn : Nat) (s : State) : Host.Outcome State Fault Refusal :=
  s.run (fun _ d => d.whenUp (fun d => d.sackGap qpn))

/-- Every credit_refresh_us, a credit message is sent for each bound window. (R117) -/
def execCreditRefresh (s : State) : Host.Outcome State Fault Refusal :=
  s.run (fun _ d => d.whenUp (fun d => d.creditRefresh))

/-- After 7 attempts as requester without success, the queue pair enters Error with cause 4. (R131) -/
def execRequesterRetriesExhausted (qpn : Nat) (s : State) : Host.Outcome State Fault Refusal :=
  s.run (fun _ d => d.whenUp (fun d => d.retriesOut qpn))

/-- As requester, a queue pair whose request gets no acknowledgement within its timeout retransmits it, counting an attempt toward the seven. (R131) -/
def execRetransmissionTimeout (qpn : Nat) (s : State) : Host.Outcome State Fault Refusal :=
  s.run (fun _ d => d.whenUp (fun d => d.retransmit qpn))

/-- After each 55 µs without a congestion mark, an auto pace rises by 1/64 of its upper bound. (R397) -/
def execPaceRise (qpn : Nat) (s : State) : Host.Outcome State Fault Refusal :=
  s.run (fun _ d => d.whenUp (fun d => d.paceRise qpn))

end Sys2Proof.Machine
end

