-- ==== Sys2Proof/Machine/ExecInst.lean ====
section
/-! DEFINITION. Meanings of the commands, one for each row: Strobes, triggers and TIME (R79 to R98). -/
namespace Sys2Proof.Machine

/-- An accepted FRAME edge is stamped, numbered, decrements the slot counter and becomes a pending strobe. (R79) -/
def execStrobe (ch : Fin 8) (stamp width : Nat) (s : State) : Host.Outcome State Fault Refusal :=
  s.run (fun _ d => d.whenUp (fun d => d.strobe ch.val stamp width))

/-- late_limit_us passes after a strobe with no completion, and the frame is recorded MISSING. (R90) -/
def execStrobeLateLimit (ch : Fin 8) (num : Nat) (s : State) : Host.Outcome State Fault Refusal :=
  s.run (fun _ d => d.whenUp (fun d => d.strobeLate ch.val num))

/-- late_limit_us passes after a completion with no strobe, and the frame is recorded UNSTROBED. (R90) -/
def execCompletionLateLimit (ch : Fin 8) (num : Nat) (s : State) : Host.Outcome State Fault Refusal :=
  s.run (fun _ d => d.whenUp (fun d => d.completionLate ch.val num))

/-- Each 10 µs window measures the IPCLK frequency and closes the ipclk gate when it is outside ±2 %. (R85) -/
def execIpclkMeasurement (khz : Nat) (s : State) : Host.Outcome State Fault Refusal :=
  s.run (fun _ d => d.whenUp (fun d => d.ipclkMeasured khz))

/-- IPCLK gives no edge for two configured periods, and READY is driven low. (R85) -/
def execIpclkStopped (s : State) : Host.Outcome State Fault Refusal :=
  s.run (fun _ d => d.whenUp (fun d => d.ipclkStopped))

/-- After 1,024 consecutive IPCLK cycles in tolerance, the ipclk gate opens. (R85) -/
def execIpclkInTolerance (s : State) : Host.Outcome State Fault Refusal :=
  s.run (fun _ d => d.whenUp (fun d => d.set F.IPT_STAT_ipclk_ok 1))

/-- At start_ns + k × period_ns, an enabled TRIG output issues pulse k, or counts it as skipped. (R96) -/
def execTrigPulse (trig : Fin 4) (s : State) : Host.Outcome State Fault Refusal :=
  s.run (fun _ d => d.whenUp (fun d => d.trigPulse trig.val))

/-- A PPS_IN rising edge disciplines TIME, applies a pending seconds value and counts toward lock. (R94) -/
def execPpsInEdge (offset : Int) (s : State) : Host.Outcome State Fault Refusal :=
  s.run (fun _ d => d.whenUp (fun d => d.ppsEdge offset))

/-- A PTP Sync message disciplines TIME under the delay request-response mechanism. (R94) -/
def execPtpSync (m : PtpSync) (s : State) : Host.Outcome State Fault Refusal :=
  s.run (fun _ d => d.whenUp (fun d => d.ptpSync m))

/-- No Sync message arrives in three announced intervals, and the reference is lost. (R95) -/
def execPtpSyncTimeout (s : State) : Host.Outcome State Fault Refusal :=
  s.run (fun _ d => d.whenUp (fun d => d.referenceLost 1))

/-- PPS_IN shows no edge for 1.5 s, and the reference is lost. (R95) -/
def execPpsInTimeout (s : State) : Host.Outcome State Fault Refusal :=
  s.run (fun _ d => d.whenUp (fun d => d.referenceLost 0))

/-- REF10M_IN stops, or stays outside ±50 ppm for 1 ms, and the reference is lost. (R95) -/
def execRef10mLost (s : State) : Host.Outcome State Fault Refusal :=
  s.run (fun _ d => d.whenUp (fun d => d.referenceLost 0))

/-- holdover_s passes after a loss of reference, and TIME turns unlocked. (R95) -/
def execHoldoverExpiry (s : State) : Host.Outcome State Fault Refusal :=
  s.run (fun _ d => d.whenUp (fun d => d.holdoverExpiry))

/-- A PTP Announce message names the master and the Sync interval, and a change of master restarts lock. (R95) -/
def execPtpAnnounce (master : PtpMaster) (intervalNs : Nat) (s : State) : Host.Outcome State Fault Refusal :=
  s.run (fun _ d => d.whenUp (fun d => d.ptpAnnounce master intervalNs))

/-- Under free-run, at the next TIME second a pending TMB_SEC_SET apply takes effect and pending clears. (R94) -/
def execTimeSecond (s : State) : Host.Outcome State Fault Refusal :=
  s.run (fun _ d => d.whenUp (fun d => d.timeSecond))

end Sys2Proof.Machine
end

