-- ==== Sys2Proof/Machine/ExecNvme.lean ====
section
/-! DEFINITION. Meanings of the commands, one for each row: NVMe commands, connections and controllers (R135 to R167). -/
namespace Sys2Proof.Machine

/-- A Flush completes at the acknowledgement point under Mirror, or once data is programmed and verified without it. (R146) -/
def execNvmeFlush (h : NvHdr) (s : State) : Host.Outcome State Fault Refusal :=
  s.run (fun _ d => d.whenUp (fun d => d.arrives h (.nvmeFlush h) (fun d => d.nvFlush h)))

/-- A Write reserves budget, fetches data, takes a host-stream sequence number and completes under R16 or R17. (R143) -/
def execNvmeWrite (h : NvHdr) (slba nlb : Nat) (fua : Bool) (data : NvData) (s : State) : Host.Outcome State Fault Refusal :=
  s.run (fun _ d => d.whenUp (fun d => d.arrives h (.nvmeWrite h slba nlb fua data) (fun d => d.nvWrite h slba nlb fua data)))

/-- A Read returns the newest visible data from staging, the cache or flash. (R22) -/
def execNvmeRead (h : NvHdr) (slba nlb : Nat) (fua : Bool) (buf : NvBuf) (s : State) : Host.Outcome State Fault Refusal :=
  s.run (fun _ d => d.whenUp (fun d => d.arrives h (.nvmeRead h slba nlb fua buf) (fun d => d.nvRead h slba nlb buf)))

/-- A Compare reads the blocks and completes with Compare Failure on a miscompare. (R140) -/
def execNvmeCompare (h : NvHdr) (slba nlb : Nat) (data : NvData) (s : State) : Host.Outcome State Fault Refusal :=
  s.run (fun _ d => d.whenUp (fun d => d.arrives h (.nvmeCompare h slba nlb data) (fun d => d.nvCompare h slba nlb data)))

/-- Write Zeroes makes each block a zero-block descriptor, deallocating it with DEAC. (R147) -/
def execNvmeWriteZeroes (h : NvHdr) (slba nlb : Nat) (deac fua : Bool) (s : State) : Host.Outcome State Fault Refusal :=
  s.run (fun _ d => d.whenUp (fun d => d.arrives h (.nvmeWriteZeroes h slba nlb deac fua) (fun d => d.nvWriteZeroes h slba nlb deac fua)))

/-- Dataset Management deallocates its ranges and skips ranges of length 0. (R148) -/
def execNvmeDatasetManagement (h : NvHdr) (nr : Nat) (ad : Bool) (ranges : List DsmRange) (fault : Option DmaFault) (s : State) : Host.Outcome State Fault Refusal :=
  s.run (fun _ d => d.whenUp (fun d => d.arrives h (.nvmeDatasetManagement h nr ad ranges fault) (fun d => d.nvDsm h nr ad ranges fault)))

/-- Verify reads and checks every block without transferring data. (R140) -/
def execNvmeVerify (h : NvHdr) (slba nlb : Nat) (s : State) : Host.Outcome State Fault Refusal :=
  s.run (fun _ d => d.whenUp (fun d => d.arrives h (.nvmeVerify h slba nlb) (fun d => d.nvVerify h slba nlb)))

/-- Place Cairn places a Cairn on the namespace at the current stream positions, optionally retained and optionally waiting for the close. (R162) -/
def execPlaceCairn (h : NvHdr) (retain waitClose : Bool) (s : State) : Host.Outcome State Fault Refusal :=
  s.run (fun _ d => d.whenUp (fun d => d.arrives h (.placeCairn h retain waitClose) (fun d => d.placeCairn h retain waitClose)))

/-- Delete I/O Submission Queue removes a queue of the local controller. (R139) -/
def execDeleteIoSubmissionQueue (h : NvHdr) (qid : Nat) (s : State) : Host.Outcome State Fault Refusal :=
  s.run (fun _ d => d.whenUp (fun d => d.arrives h (.deleteIoSubmissionQueue h qid) (fun d => d.deleteSq h qid)))

/-- Delete I/O Completion Queue removes a queue of the local controller. (R139) -/
def execDeleteIoCompletionQueue (h : NvHdr) (qid : Nat) (s : State) : Host.Outcome State Fault Refusal :=
  s.run (fun _ d => d.whenUp (fun d => d.arrives h (.deleteIoCompletionQueue h qid) (fun d => d.deleteCq h qid)))

/-- Create I/O Submission Queue creates a contiguous queue on the local controller. (R139) -/
def execCreateIoSubmissionQueue (h : NvHdr) (qid size : Nat) (contig : Bool) (cqid base : Nat) (s : State) : Host.Outcome State Fault Refusal :=
  s.run (fun _ d => d.whenUp (fun d => d.arrives h (.createIoSubmissionQueue h qid size contig cqid base) (fun d => d.createSq h qid size contig cqid base)))

/-- Create I/O Completion Queue creates a contiguous queue on the local controller. (R139) -/
def execCreateIoCompletionQueue (h : NvHdr) (qid size : Nat) (contig ien : Bool) (vector base : Nat) (s : State) : Host.Outcome State Fault Refusal :=
  s.run (fun _ d => d.whenUp (fun d => d.arrives h (.createIoCompletionQueue h qid size contig ien vector base) (fun d => d.createCq h qid size contig ien vector base)))

/-- Get Log Page returns one of the supported pages, or Invalid Log Page. (R153) -/
def execGetLogPage (h : NvHdr) (lid : Nat) (rae : Bool) (numd offset : Nat) (buf : NvBuf) (s : State) : Host.Outcome State Fault Refusal :=
  s.run (fun _ d => d.whenUp (fun d => d.arrives h (.getLogPage h lid rae numd offset buf) (fun d => d.getLog h lid rae numd offset buf)))

/-- Identify returns the controller or namespace structure with the values of R142. (R142) -/
def execIdentify (h : NvHdr) (cns : Nat) (buf : NvBuf) (s : State) : Host.Outcome State Fault Refusal :=
  s.run (fun _ d => d.whenUp (fun d => d.arrives h (.identify h cns buf) (fun d => d.identify h cns buf)))

/-- Abort catches the named command if it has not passed its point of no return. (R150) -/
def execAbort (h : NvHdr) (sqid target : Nat) (s : State) : Host.Outcome State Fault Refusal :=
  s.run (fun _ d => d.whenUp (fun d => d.arrives h (.abort h sqid target) (fun d => d.abortCmd h sqid target)))

/-- Set Features sets, and optionally saves, a supported feature. (R151) -/
def execSetFeatures (h : NvHdr) (fid : Nat) (save : Bool) (dw11 dw12 : Nat) (data : NvData) (s : State) : Host.Outcome State Fault Refusal :=
  s.run (fun _ d => d.whenUp (fun d => d.arrives h (.setFeatures h fid save dw11 dw12 data) (fun d => d.setFeatures h fid save dw11 dw12 data)))

/-- Get Features returns the current, default or saved value of a feature. (R151) -/
def execGetFeatures (h : NvHdr) (fid sel dw11 : Nat) (buf : NvBuf) (s : State) : Host.Outcome State Fault Refusal :=
  s.run (fun _ d => d.whenUp (fun d => d.arrives h (.getFeatures h fid sel dw11 buf) (fun d => d.getFeatures h fid sel dw11 buf)))

/-- An Asynchronous Event Request is held, up to 8, until an enabled event is posted. (R154) -/
def execAsynchronousEventRequest (h : NvHdr) (s : State) : Host.Outcome State Fault Refusal :=
  s.run (fun _ d => d.whenUp (fun d => d.arrives h (.asynchronousEventRequest h) (fun d => d.aer h)))

/-- Keep Alive restarts a fabrics controller's keep-alive timer. (R151) -/
def execKeepAlive (h : NvHdr) (s : State) : Host.Outcome State Fault Refusal :=
  s.run (fun _ d => d.whenUp (fun d => d.arrives h (.keepAlive h) (fun d => d.keepAlive h)))

/-- The keep-alive timer expires, and the controller's association ends. (R151) -/
def execKeepAliveTimeout (ctrl : Nat) (s : State) : Host.Outcome State Fault Refusal :=
  s.run (fun _ d => d.whenUp (fun d => d.katoExpired ctrl))

/-- Read Epoch Digest returns the 64-byte digest structure of a closed Cairn, or Cairn Not Available. (R163) -/
def execReadEpochDigest (h : NvHdr) (cairn : Nat) (latest : Bool) (buf : NvBuf) (s : State) : Host.Outcome State Fault Refusal :=
  s.run (fun _ d => d.whenUp (fun d => d.arrives h (.readEpochDigest h cairn latest buf) (fun d => d.readDigest h cairn latest buf)))

/-- Frame Index Query returns frame index records of an active channel from flash and the HBM ring. (R164) -/
def execFrameIndexQuery (h : NvHdr) (channel : Fin 8) (byTime : Bool) (kindMask startSeq startNs count : Nat) (buf : NvBuf) (s : State) : Host.Outcome State Fault Refusal :=
  s.run (fun _ d => d.whenUp (fun d => d.arrives h (.frameIndexQuery h channel byTime kindMask startSeq startNs count buf) (fun d => d.frameQuery h channel.val byTime kindMask startSeq startNs count buf)))

/-- Connect creates an admin or I/O queue, or completes with Connect Invalid Parameters. (R137) -/
def execFabricsConnect (c : ConnectArgs) (s : State) : Host.Outcome State Fault Refusal :=
  s.run (fun _ d => d.whenUp (fun d => d.connect c))

/-- Property Get reads a controller property of a fabrics controller. (R138) -/
def execPropertyGet (h : NvHdr) (off : Nat) (eight : Bool) (s : State) : Host.Outcome State Fault Refusal :=
  s.run (fun _ d => d.whenUp (fun d => d.arrives h (.propertyGet h off eight) (fun d => d.propertyGet h off eight)))

/-- Property Set writes a controller property of a fabrics controller. (R138) -/
def execPropertySet (h : NvHdr) (off : Nat) (eight : Bool) (val : Nat) (s : State) : Host.Outcome State Fault Refusal :=
  s.run (fun _ d => d.whenUp (fun d => d.arrives h (.propertySet h off eight val) (fun d => d.propertySet h off eight val)))

/-- An unsupported admin, I/O or fabrics opcode completes with Invalid Command Opcode. (R139) -/
def execInvalidCommandOpcode (h : NvHdr) (admin : Bool) (opcode : Nat) (s : State) : Host.Outcome State Fault Refusal :=
  s.run (fun _ d => d.whenUp (fun d => d.arrives h (.invalidCommandOpcode h admin opcode) (fun d => d.badOpcode h admin opcode)))

/-- CC.EN cleared to 0 resets the local controller and drops its unsaved features. (R152) -/
def execControllerReset (s : State) : Host.Outcome State Fault Refusal :=
  s.run (fun _ d => d.whenUp (fun d => d.controllerReset))

end Sys2Proof.Machine
end

