-- ==== Sys2Proof/Machine/ExecPeer.lean ====
section
/-! DEFINITION. Meanings of the commands, one for each row: Lookups and alarms (R177, R215), memory checks (R233 to R240), and the two heads: the Pengenko link, the arbiter, takeover and self-test (R242 to R266). -/
namespace Sys2Proof.Machine

/-- A fingerprint lookup without an answer within defer_us stores the block as a deferred holder. (R177) -/
def execLookupDefer (lookup : Nat) (s : State) : Host.Outcome State Fault Refusal :=
  s.run (fun _ d => d.whenUp (fun d => d.lookupDefer lookup))

/-- A fingerprint lookup answers, and the holder becomes a reference or stores its slot with a pending entry. (R179) -/
def execFingerprintLookupDone (lookup : Nat) (level : Fin 3) (s : State) : Host.Outcome State Fault Refusal :=
  s.run (fun _ d => d.whenUp (fun d => d.lookupDone lookup level.val))

/-- An enabled TAMPER input held active for 100 ns raises an alarm and zeroizes. (R215) -/
def execTamperAlarm (input : Fin 4) (s : State) : Host.Outcome State Fault Refusal :=
  s.run (fun _ d => d.tamperAlarm input.val)

/-- VDD_CORE or the AON 0.8 V rail outside its monitor window for 200 ns zeroizes. (R215) -/
def execRailAlarm (core : Bool) (s : State) : Host.Outcome State Fault Refusal :=
  s.run (fun _ d => d.railAlarm core)

/-- The AON crystal stops; the AON domain runs on from the oscillator, and the device zeroizes. (R215) -/
def execCrystalStop (s : State) : Host.Outcome State Fault Refusal :=
  s.run (fun _ d => d.crystalStop)

/-- The patrol scrubber reads HBM words, writes back corrected words and retires failing rows. (R238) -/
def execPatrolScrub (w : ScrubWord) (s : State) : Host.Outcome State Fault Refusal :=
  s.run (fun _ d => d.whenUp (fun d => d.patrolScrub w))

/-- A Pengenko heartbeat reports term, generation, owned pools, flags and check value, and may start resynchronization. (R245) -/
def execHeartbeat (h : PeerHdr) (b : Heartbeat) (s : State) : Host.Outcome State Fault Refusal :=
  s.run (fun _ d => d.whenUp (fun d => d.peerRx (.heartbeat h b)))

/-- A received NAK makes the sender replay from the NAKed lseq. (R247) -/
def execPengenkoNak (h : PeerHdr) (lseq : Nat) (s : State) : Host.Outcome State Fault Refusal :=
  s.run (fun _ d => d.whenUp (fun d => d.peerRx (.pengenkoNak h lseq)))

/-- The peer's confirmation of mirror cseq values lets the waiting writes be acknowledged. (R220) -/
def execMirrorConfirmation (h : PeerHdr) (upTo : Nat) (s : State) : Host.Outcome State Fault Refusal :=
  s.run (fun _ d => d.whenUp (fun d => d.peerRx (.mirrorConfirmation h upTo)))

/-- The peer's image digest arrives, and the image is staged if it matches, or refused with 0x0046 (R70); a newer active image of the peer's
is validated and armed (R74). -/
def execImageDigest (h : PeerHdr) (generation : Nat) (digest : Bytes) (ok : PeerImage) (s : State) : Host.Outcome State Fault Refusal :=
  s.run (fun fu d => d.whenUp (fun d => (d.peerRx (.imageDigest h generation digest ok)).takeOffered fu))

/-- A self-test echo packet is returned unchanged. (R245) -/
def execSelfTestEcho (h : PeerHdr) (payload : Bytes) (s : State) : Host.Outcome State Fault Refusal :=
  s.run (fun _ d => d.whenUp (fun d => d.peerRx (.selfTestEcho h payload)))

/-- A mirrored slot is written at the owner's offset in the mirror-receive area and then confirmed. (R220) -/
def execMirrorSlot (h : PeerHdr) (sl : MirrorSlot) (s : State) : Host.Outcome State Fault Refusal :=
  s.run (fun _ d => d.whenUp (fun d => d.peerRx (.mirrorSlot h sl)))

/-- The peer's journal open record is stored in the HBM journal copy. (R276) -/
def execJournalOpen (h : PeerHdr) (r : OpenRec) (s : State) : Host.Outcome State Fault Refusal :=
  s.run (fun _ d => d.whenUp (fun d => d.peerRx (.journalOpen h r)))

/-- The peer's journal close releases the mirror copies of the stripe's slots. (R220) -/
def execJournalClose (h : PeerHdr) (pool seq : Nat) (s : State) : Host.Outcome State Fault Refusal :=
  s.run (fun _ d => d.whenUp (fun d => d.peerRx (.journalClose h pool seq)))

/-- The peer's map delta is stored, to be applied at takeover. (R249) -/
def execMapDelta (h : PeerHdr) (dl : MapDelta) (s : State) : Host.Outcome State Fault Refusal :=
  s.run (fun _ d => d.whenUp (fun d => d.peerRx (.mapDelta h dl)))

/-- A mirrored capture queue-pair context is stored. (R249) -/
def execQpContextState (h : PeerHdr) (q : QpMirror) (s : State) : Host.Outcome State Fault Refusal :=
  s.run (fun _ d => d.whenUp (fun d => d.peerRx (.qpContextState h q)))

/-- Mirrored window state with its horizon and limit is stored. (R249) -/
def execWindowState (h : PeerHdr) (w : WinMirror) (s : State) : Host.Outcome State Fault Refusal :=
  s.run (fun _ d => d.whenUp (fun d => d.peerRx (.windowState h w)))

/-- Mirrored open-epoch positions and digest chain are stored. (R249) -/
def execCairnState (h : PeerHdr) (c : CairnMirror) (s : State) : Host.Outcome State Fault Refusal :=
  s.run (fun _ d => d.whenUp (fun d => d.peerRx (.cairnState h c)))

/-- Mirrored pending de-duplication holders are stored. (R185) -/
def execPendingHolders (h : PeerHdr) (l : List HolderMirror) (s : State) : Host.Outcome State Fault Refusal :=
  s.run (fun _ d => d.whenUp (fun d => d.peerRx (.pendingHolders h l)))

/-- The mirrored list of retained Cairns is stored. (R249) -/
def execRetainedCairnList (h : PeerHdr) (l : List (Nat × Nat)) (s : State) : Host.Outcome State Fault Refusal :=
  s.run (fun _ d => d.whenUp (fun d => d.peerRx (.retainedCairnList h l)))

/-- Mirrored Caravan progress at a boundary is stored. (R249) -/
def execCaravanProgress (h : PeerHdr) (c : CaravanMirror) (s : State) : Host.Outcome State Fault Refusal :=
  s.run (fun _ d => d.whenUp (fun d => d.peerRx (.caravanProgress h c)))

/-- The mirrored reshape position is stored. (R249) -/
def execReshapePosition (h : PeerHdr) (pool : Nat) (position : ReshapeMark) (s : State) : Host.Outcome State Fault Refusal :=
  s.run (fun _ d => d.whenUp (fun d => d.peerRx (.reshapePosition h pool position)))

/-- The mirrored frame number and strobe time of a channel's last matched frame are stored. (R87) -/
def execChannelLastMatched (h : PeerHdr) (ch : Fin 8) (num strobeNs : Nat) (s : State) : Host.Outcome State Fault Refusal :=
  s.run (fun _ d => d.whenUp (fun d => d.peerRx (.channelLastMatched h ch num strobeNs)))

/-- The peer's firmware update state is kept for the update interlock. (R444) -/
def execFwuState (h : PeerHdr) (f : FwuPeer) (s : State) : Host.Outcome State Fault Refusal :=
  s.run (fun _ d => d.whenUp (fun d => d.peerRx (.fwuState h f)))

/-- No valid Pengenko packet arrives for 10 µs; the peer is silent and a link reset and VERDICT_REQ follow. (R248) -/
def execPeerSilent (s : State) : Host.Outcome State Fault Refusal :=
  s.run (fun _ d => d.whenUp (fun d => d.peerSilent))

/-- At least every 2 µs, a heartbeat is sent to the peer. (R248) -/
def execHeartbeatTimer (s : State) : Host.Outcome State Fault Refusal :=
  s.run (fun _ d => d.whenUp (fun d => d.heartbeatOut))

/-- A removed link lane is retrained every 1 s and rejoins on success, unless both heads present the same number. (R244, R466) -/
def execPengenkoLaneRetrain (lane : Fin 24) (ok sameHead : Bool) (s : State) : Host.Outcome State Fault Refusal :=
  s.run (fun _ d => d.whenUp (fun d => d.linkLaneRetrain lane.val ok sameHead))

/-- ARB_FENCE_N falls, and hardware squelches transmitters, drives READY low and reports every ANA group Inaccessible within 5 µs. (R256) -/
def execArbFenceFall (s : State) : Host.Outcome State Fault Refusal :=
  s.run (fun _ d => d.fenceFall)

/-- ARB_FENCE_N rises, and the head performs a takeover reset and rejoins owning no pool. (R256) -/
def execArbFenceRise (s : State) : Host.Outcome State Fault Refusal :=
  s.run (fun fu d => d.fenceRise fu)

/-- A VERDICT naming this head with a higher term while unfenced is accepted and ACKed, and the peer is lost. (R254) -/
def execVerdict (m : ArbMsg) (s : State) : Host.Outcome State Fault Refusal :=
  s.run (fun _ d => d.whenUp (fun d => d.verdict m))

/-- A die not confirming its claim by step 5 of takeover is failed, and its module too if the module answers no claim. (R260) -/
def execClaimTimeout (s : State) : Host.Outcome State Fault Refusal :=
  s.run (fun _ d => d.whenUp (fun d => d.claimTimeout))

/-- Gratuitous ARP or unsolicited Neighbor Advertisements for adopted addresses are sent three times, 1 ms apart. (R259) -/
def execAddressAnnounce (s : State) : Host.Outcome State Fault Refusal :=
  s.run (fun _ d => d.whenUp (fun d => d.announceAddresses))

/-- An accepted TRANSFER_GRANT sets the term and starts a transfer of pools between the heads. (R263) -/
def execTransferGrant (m : ArbMsg) (s : State) : Host.Outcome State Fault Refusal :=
  s.run (fun _ d => d.whenUp (fun d => d.transferGrant m))

/-- Once admitted commands complete, the giving head stops capture, sends final state and withdraws its addresses, and the taking head claims and adopts the pools. (R263) -/
def execTransferCommandsDrained (s : State) : Host.Outcome State Fault Refusal :=
  s.run (fun _ d => d.whenUp (fun d => d.transferDrained))

/-- Every 10 × arb_hb_us, a STATUS message is sent to the arbiter. (R252) -/
def execArbStatusTimer (s : State) : Host.Outcome State Fault Refusal :=
  s.run (fun _ d => d.whenUp (fun d => d.arbStatus))

/-- Every 10 µs while the peer is silent without a verdict, a VERDICT_REQ is sent. (R252) -/
def execVerdictReqTimer (s : State) : Host.Outcome State Fault Refusal :=
  s.run (fun _ d => d.whenUp (fun d => d.verdictReqTimer))

/-- Under policy 1, verdict_wait_ms passes with no verdict and the peer unheard, and the peer is lost. (R255) -/
def execVerdictWaitExpiry (s : State) : Host.Outcome State Fault Refusal :=
  s.run (fun _ d => d.whenUp (fun d => d.verdictWaitOver))

/-- Every 1 s, each standby lane's training, loopback and bridge status are checked. (R264) -/
def execSelfTestPathCheck (failed : List Nat) (s : State) : Host.Outcome State Fault Refusal :=
  s.run (fun _ d => d.whenUp (fun d => d.pathCheck failed))

/-- In rotation, a standby die's option-area page is read through the standby port and checked, and the die marked faulty if it fails twice. (R264) -/
def execSelfTestDieCheck (lane die : Fin 64) (idle : Bool) (s : State) : Host.Outcome State Fault Refusal :=
  s.run (fun _ d => d.whenUp (fun d => d.dieCheck lane.val die.val idle))

/-- An arbiter datagram with a bad magic, version or array_id is discarded and counted in msgs_bad. (R252) -/
def execArbiterDatagramBad (s : State) : Host.Outcome State Fault Refusal :=
  s.run (fun _ d => d.whenUp (fun d => d.arbBad))

end Sys2Proof.Machine
end

