-- ==== Sys2Proof/Machine/ExecStore.lean ====
section
/-! DEFINITION. Meanings of the commands, one for each row: Stripes, Cairns and Caravans (R269 to R315). -/
namespace Sys2Proof.Machine

/-- fill_us after its first slot, an assembling stripe is closed with zero padding. (R270) -/
def execStripeFillTimeout (pool seq : Nat) (s : State) : Host.Outcome State Fault Refusal :=
  s.run (fun _ d => d.whenUp (fun d => d.stripeFillTimeout pool seq))

/-- A stripe's parity completes, the journal open is sent and the member programs are issued. (R274) -/
def execParityComplete (pool seq : Nat) (s : State) : Host.Outcome State Fault Refusal :=
  s.run (fun _ d => d.whenUp (fun d => d.parityDone pool seq))

/-- 500 µs after its first record, a journal page is written in two copies. (R277) -/
def execJournalPageTimer (pool : Nat) (s : State) : Host.Outcome State Fault Refusal :=
  s.run (fun _ d => d.whenUp (fun d => if d.owns pool then d.journalPage pool else d))

/-- timer_cairn_ms passes, and a timer Cairn is placed in a permitted namespace. (R297) -/
def execTimerCairn (stream : Nat) (s : State) : Host.Outcome State Fault Refusal :=
  s.run (fun _ d => d.whenUp (fun d => d.timerCairn stream))

/-- Once its epoch is acknowledged, looked up and mirrored, a Cairn closes: overlaps are resolved, ownership finalized, entries built and the digest extended. (R299) -/
def execCairnClose (nsid : Nat) (stateWordOk : Bool) (s : State) : Host.Outcome State Fault Refusal :=
  s.run (fun _ d => d.whenUp (fun d => d.cairnClose nsid stateWordOk))

/-- With Replicate in effect, a Caravan opens for a target whenever the source has a closed Cairn above the target's last_cairn. (R313) -/
def execCaravanOpens (target : Nat) (s : State) : Host.Outcome State Fault Refusal :=
  s.run (fun _ d => d.whenUp (fun d => d.caravanOpens target))

/-- At the target, an OPEN record starts a chained or full Caravan landing. (R311) -/
def execCaravanOpenRecord (qpn : Nat) (r : CarOpen) (s : State) : Host.Outcome State Fault Refusal :=
  s.run (fun _ d => d.whenUp (fun d => d.openRecord qpn r))

/-- At the target, an EPOCH record starts an epoch of n entries. (R311) -/
def execEpochRecord (qpn : Nat) (r : CarEpoch) (s : State) : Host.Outcome State Fault Refusal :=
  s.run (fun _ d => d.whenUp (fun d => d.epochRecord qpn r))

/-- At the target, a BLOCK record's tag and CRC are checked and its slot stored or referenced. (R312) -/
def execBlockRecord (qpn : Nat) (r : CarBlock) (s : State) : Host.Outcome State Fault Refusal :=
  s.run (fun _ d => d.whenUp (fun d => d.blockRecord qpn r))

/-- At the target, an EPOCH_END record's digest is checked against the recomputed D_k and confirmed. (R312) -/
def execEpochEndRecord (qpn : Nat) (index : CarEnd) (digest : Bytes) (s : State) : Host.Outcome State Fault Refusal :=
  s.run (fun _ d => d.whenUp (fun d => d.epochEnd qpn index digest))

/-- At the target, an IMAGE_END record's image digest is checked and confirmed. (R312) -/
def execImageEndRecord (qpn : Nat) (index : CarEnd) (imageDigest chainDigest : Bytes) (s : State) : Host.Outcome State Fault Refusal :=
  s.run (fun _ d => d.whenUp (fun d => d.imageEnd qpn index imageDigest chainDigest))

/-- At the target, a confirmed CLOSE record makes the Caravan visible by closing Cairns b + 1 to e. (R312) -/
def execCloseRecord (qpn : Nat) (index : CarClose) (s : State) : Host.Outcome State Fault Refusal :=
  s.run (fun _ d => d.whenUp (fun d => d.closeRecord qpn index))

/-- At the source, a confirmation SEND advances the confirmed index, and on CLOSE releases b and keeps e. (R312) -/
def execCaravanConfirmation (target index : Nat) (refused : Option Nat) (s : State) : Host.Outcome State Fault Refusal :=
  s.run (fun _ d => d.whenUp (fun d => d.carConfirmed target index refused))

/-- 1 s after a connection is lost, and then every 10 s, the source reconnects and resumes at resume_at. (R314) -/
def execCaravanReconnectTimer (target : Nat) (s : State) : Host.Outcome State Fault Refusal :=
  s.run (fun _ d => d.whenUp (fun d => d.carReconnect target))

end Sys2Proof.Machine
end

