-- ==== Sys2Proof/Machine/ExecFlash.lean ====
section
/-! DEFINITION. Meanings of the commands, one for each row: Vrelen lanes, bridges and dies (R316 to R356). -/
namespace Sys2Proof.Machine

/-- A normal Vrelen frame is accepted in fseq order, its transactions and credits taken, and a nak sent on a gap. (R322) -/
def execVrelenFrame (f : FrameFlit) (s : State) : Host.Outcome State Fault Refusal :=
  s.run (fun _ d => d.whenUp (fun d => d.vrelenFrame f))

/-- A received filler frame may be discarded to absorb clock difference. (R319) -/
def execFillerFrame (lane : Fin 64) (s : State) : Host.Outcome State Fault Refusal :=
  s.run (fun _ d => d.whenUp (fun d => d.fillerFrame lane.val))

/-- At least once in every 2,048 frames, a filler frame is sent. (R319) -/
def execFillerFrameDue (lane : Fin 64) (s : State) : Host.Outcome State Fault Refusal :=
  s.run (fun _ d => d.whenUp (fun d => d.fillerDue lane.val))

/-- A retrain request frame from the bridge starts lane training. (R320) -/
def execRetrainRequest (lane : Fin 64) (s : State) : Host.Outcome State Fault Refusal :=
  s.run (fun _ d => d.whenUp (fun d => d.trainLane lane.val))

/-- 4 µs without ack progress replays from the oldest unacknowledged frame, and a second replay of the same fseq retrains the lane. (R322) -/
def execFrameAckTimeout (lane : Fin 64) (s : State) : Host.Outcome State Fault Refusal :=
  s.run (fun _ d => d.whenUp (fun d => d.frameAckTimeout lane.val))

/-- A training state passes its time limit, and the lane falls back to ×2 or goes down. (R320) -/
def execLaneTrainingLimit (lane : Fin 64) (onePair : Bool) (s : State) : Host.Outcome State Fault Refusal :=
  s.run (fun _ d => d.whenUp (fun d => d.trainingLimit lane.val onePair))

/-- Matching config flits complete training to Active, or keep the lane down on a mismatch. (R321) -/
def execConfigFlit (c : ConfigFlit) (s : State) : Host.Outcome State Fault Refusal :=
  s.run (fun _ d => d.whenUp (fun d => d.configFlit c))

/-- Every 1 s while a lane is down, training is tried again. (R320) -/
def execLaneDownRetry (lane : Fin 64) (s : State) : Host.Outcome State Fault Refusal :=
  s.run (fun _ d => d.whenUp (fun d => d.laneRetry lane.val))

/-- A READ response delivers codewords for decoding, climbing the retry ladder on failure. (R341) -/
def execReadResponse (r : Resp) (dec : Decode) (s : State) : Host.Outcome State Fault Refusal :=
  s.run (fun _ x => x.whenUp (fun x => x.readResponse r dec))

/-- A PROGRAM response starts margin-read verify, or on FAIL makes the plane's block grown-bad. (R334) -/
def execProgramResponse (r : Resp) (s : State) : Host.Outcome State Fault Refusal :=
  s.run (fun _ d => d.whenUp (fun d => d.programResponse r))

/-- An ERASE response frees the block, or on FAIL makes it grown-bad. (R335) -/
def execEraseResponse (r : Resp) (s : State) : Host.Outcome State Fault Refusal :=
  s.run (fun _ d => d.whenUp (fun d => d.eraseResponse r))

/-- A SUSPENDED response lets queued reads and one program be served before RESUME. (R338) -/
def execSuspendResponse (r : Resp) (s : State) : Host.Outcome State Fault Refusal :=
  s.run (fun _ d => d.whenUp (fun d => d.suspendResponse r))

/-- A RESUME response restarts the suspended erase. (R338) -/
def execResumeResponse (r : Resp) (s : State) : Host.Outcome State Fault Refusal :=
  s.run (fun _ d => d.whenUp (fun d => d.resumeResponse r))

/-- A STATUS response is taken during timeout handling or recovery. (R351) -/
def execStatusResponse (r : Resp) (s : State) : Host.Outcome State Fault Refusal :=
  s.run (fun _ d => d.whenUp (fun d => d.statusResponse r))

/-- A RESET_DIE response ends timeout handling or clears a suspended erase at recovery. (R351) -/
def execResetDieResponse (r : Resp) (s : State) : Host.Outcome State Fault Refusal :=
  s.run (fun _ d => d.whenUp (fun d => d.resetDieResponse r))

/-- A SET_THRESH response confirms the load of a threshold slot. (R341) -/
def execSetThreshResponse (r : Resp) (s : State) : Host.Outcome State Fault Refusal :=
  s.run (fun _ d => d.whenUp (fun d => d.plainResponse r .setThresh))

/-- A SET_TRIM response confirms the band trims. (R352) -/
def execSetTrimResponse (r : Resp) (s : State) : Host.Outcome State Fault Refusal :=
  s.run (fun _ d => d.whenUp (fun d => d.plainResponse r .setTrim))

/-- A CLAIM response confirms ownership of dies under a term, or refuses it with CLAIM_LOW. (R243) -/
def execClaimResponse (r : Resp) (s : State) : Host.Outcome State Fault Refusal :=
  s.run (fun _ d => d.whenUp (fun d => d.claimResponse r))

/-- A BRIDGE_STATUS response reports terms, claims, channel states and temperatures. (R326) -/
def execBridgeStatusResponse (r : Resp) (b : BridgeStatus) (s : State) : Host.Outcome State Fault Refusal :=
  s.run (fun _ d => d.whenUp (fun d => d.bridgeStatusResponse r b))

/-- A LOOPBACK response returns the bytes sent for a path check. (R326) -/
def execLoopbackResponse (r : Resp) (same : Bool) (s : State) : Host.Outcome State Fault Refusal :=
  s.run (fun _ d => d.whenUp (fun d => d.loopbackResponse r same))

/-- A command with no response within its maximum time plus 1 ms starts STATUS and then RESET_DIE. (R351) -/
def execBridgeCommandTimeout (lane : Fin 64) (tag : Nat) (s : State) : Host.Outcome State Fault Refusal :=
  s.run (fun _ d => d.whenUp (fun d => d.commandTimeout lane.val tag))

/-- Every 100 ms, BRIDGE_STATUS is read for channel temperatures. (R352) -/
def execBridgeStatusPoll (s : State) : Host.Outcome State Fault Refusal :=
  s.run (fun _ d => d.whenUp (fun d => d.bridgePoll))

/-- An erase outstanding past 10 × tBERS_max is starved and reported to the allocator. (R339) -/
def execStarvedErase (lane die : Fin 64) (s : State) : Host.Outcome State Fault Refusal :=
  s.run (fun _ d => d.whenUp (fun d => d.starvedErase lane.val die.val))

/-- Every thr_sample_s, each block group is sampled at ±1 step and its tracked offsets move one step. (R342) -/
def execThresholdSample (lane die : Fin 64) (group level : Nat) (reads : ThrSample) (s : State) : Host.Outcome State Fault Refusal :=
  s.run (fun _ d => d.whenUp (fun d => d.thresholdSample lane.val die.val group level reads))

end Sys2Proof.Machine
end

