-- ==== Sys2Proof/Machine/ExecPower.lean ====
section
/-! DEFINITION. Meanings of the commands, one for each row: Stalls and engines, configuration CRC, resets, power, heat, trials and housekeeping (R386 to R473). -/
namespace Sys2Proof.Machine

/-- Each time a mode's time without progress passes a further 1 s, an event is raised. (R47) -/
def execStallEvent (mode : Fin 8) (seconds : Nat) (s : State) : Host.Outcome State Fault Refusal :=
  s.run (fun _ d => d.whenUp (fun d => d.stalled mode.val seconds))

/-- timeout_ms without service records an event, interrupts CC0 and sets stage 1. (R391) -/
def execWatchdogStage1 (s : State) : Host.Outcome State Fault Refusal :=
  s.run (fun _ d => d.whenUp (fun d => d.watchdogOne))

/-- A further timeout_ms without service performs a watchdog reset, or is held during a drain or wind-down. (R391) -/
def execWatchdogStage2 (s : State) : Host.Outcome State Fault Refusal :=
  s.run (fun fu d => d.watchdogTwo fu)

/-- An engine that completes no queued work within its limit gets one single-engine reset, or is taken out of service. (R392) -/
def execEngineHang (e : EngineId) (s : State) : Host.Outcome State Fault Refusal :=
  s.run (fun _ d => d.whenUp (fun d => d.engineHang e))

/-- Every 200 µs, the CRCs of all class-C registers are computed and compared with the references. (R432) -/
def execCfgSweep (upset : Option RegUpset) (s : State) : Host.Outcome State Fault Refusal :=
  s.run (fun _ d => d.whenUp (fun d => d.cfgSweep upset))

/-- The AON rails become valid, and the whole device starts from an empty state. (R401) -/
def execPowerOnReset (b : BootEnv) (s : State) : Host.Outcome State Fault Refusal :=
  s.run (fun fu d => d.powerOn fu b)

/-- RESET_N held low for at least 1 µs resets the device as power-on does, except the thermal latch and the event buffer. (R401) -/
def execPinReset (b : BootEnv) (s : State) : Host.Outcome State Fault Refusal :=
  s.run (fun fu d => d.pinReset fu b)

/-- A warm reset winds down the cache and lanes, restarts from boot flash and resumes or gives up its pools. (R401) -/
def execWarmReset (b : BootEnv) (s : State) : Host.Outcome State Fault Refusal :=
  s.run (fun fu d => d.warmReset fu b)

/-- A PCIe function-level reset resets the local controller, the RED and CIP rings, and trace. (R401) -/
def execFunctionLevelReset (s : State) : Host.Outcome State Fault Refusal :=
  s.run (fun _ d => if d.answers then d.functionReset else d)

/-- PWR_FAIL_N held low for 200 ns starts the Wadi drain within 1 µs; a shorter pulse is counted as a glitch. (R407) -/
def execPwrFailNFall (lowNs : Nat) (intact : DrainFate) (s : State) : Host.Outcome State Fault Refusal :=
  s.run (fun _ d => d.pwrFailFall lowNs intact)

/-- PWR_FAIL_N rises again while a drain runs or the head is parked. (R412) -/
def execPwrFailNRise (s : State) : Host.Outcome State Fault Refusal :=
  s.run (fun _ d => d.pwrFailRise)

/-- After PWR_FAIL_N and HOLDUP_OK have been high for 100 ms, the parked head performs a warm reset and recovers. (R412) -/
def execParkRelease (s : State) : Host.Outcome State Fault Refusal :=
  s.run (fun fu d => d.parkRelease fu)

/-- HOLDUP_OK low limits B_eff to holdup_low_mib and refuses firmware updates. (R413) -/
def execHoldupOkFall (s : State) : Host.Outcome State Fault Refusal :=
  s.run (fun _ d => d.holdupFall)

/-- HOLDUP_OK high lifts the holdup_low limit. (R413) -/
def execHoldupOkRise (s : State) : Host.Outcome State Fault Refusal :=
  s.run (fun _ d => d.holdupRise)

/-- When the conditions hold, the head enters the lowest permitted non-operational state, L1 or L2. (R156) -/
def execPowerStateEntry (p : PsQuiet) (s : State) : Host.Outcome State Fault Refusal :=
  s.run (fun _ d => d.whenUp (fun d => d.psEntry p))

/-- PCIe link activity from the host ends L3, and the head starts as after a warm reset. (R405) -/
def execL3Exit (s : State) : Host.Outcome State Fault Refusal :=
  s.run (fun fu d => d.l3Exit fu)

/-- Every 1 ms, D0–D7 are sampled, which updates bands and applies the thermal thresholds. (R415) -/
def execDieTempSample (t : List Int) (hotUs : Nat) (s : State) : Host.Outcome State Fault Refusal :=
  s.run (fun _ d => d.dieTemps t hotUs)

/-- Every 10 ms, T0–T15 are sampled for high, critical and fault conditions. (R415) -/
def execRemoteTempSample (t : List (Option Int)) (s : State) : Host.Outcome State Fault Refusal :=
  s.run (fun _ d => d.whenUp (fun d => d.remoteTemps t))

/-- After 1 s below the release temperatures, the thermal drain ends. (R417) -/
def execThermalDrainEnd (s : State) : Host.Outcome State Fault Refusal :=
  s.run (fun _ d => d.thermalDrainEnd)

/-- A main rail leaves its range without warning, resetting the head at once with no drain. (R471) -/
def execMainRailLoss (b : BootEnv) (s : State) : Host.Outcome State Fault Refusal :=
  s.run (fun fu d => d.railLoss fu rkWarm b)

/-- A lost reference clock is found within 1 µs, and its PLLs move to the on-package oscillator. (R473) -/
def execRefclkLoss (c : RefClk) (s : State) : Host.Outcome State Fault Refusal :=
  s.run (fun _ d => d.clockLost c)

/-- After the board clock has been in tolerance for 1 s, the PLLs return to it. (R473) -/
def execRefclkReturn (c : RefClk) (s : State) : Host.Outcome State Fault Refusal :=
  s.run (fun _ d => d.clockBack c)

/-- A PCIe link fault makes the local controller and the RED and CIP rings unavailable. (R390) -/
def execPcieLinkDown (s : State) : Host.Outcome State Fault Refusal :=
  s.run (fun _ d => d.pcieDown)

/-- The host retrains the PCIe link, and the local controller and the RED and CIP rings become available again. (R390) -/
def execPcieLinkTrained (s : State) : Host.Outcome State Fault Refusal :=
  s.run (fun _ d => d.pcieTrained)

/-- 60 s after regs_ready with no watchdog reset, the trial slot becomes active. (R445) -/
def execTrialPassed (s : State) : Host.Outcome State Fault Refusal :=
  s.runF (fun fu d => trialFuses fu d)
    (fun _ d => d.trialPassed)

/-- A failure to reach regs_ready within 2 s, or a watchdog reset, ends the trial and boots the old slot. (R445) -/
def execTrialFailed (s : State) : Host.Outcome State Fault Refusal :=
  s.run (fun fu d => d.trialFail fu)

/-- 10 s after the oldest waiting event record, the buffer is flushed. (R452) -/
def execEventFlushTimer (s : State) : Host.Outcome State Fault Refusal :=
  s.run (fun _ d => d.evrTimer)

/-- A TAMPER input changes level, updating tamper_active, and a return to the inactive level lifts the tamper refusal of share loads. (R203) -/
def execTamperInputChange (input : Fin 4) (level : Bool) (s : State) : Host.Outcome State Fault Refusal :=
  s.run (fun _ d => d.tamperChange input.val level)

/-- Every hour the life figure is written to the settings area of boot flash. (R378) -/
def execLifeFigureWrite (ok : Bool) (s : State) : Host.Outcome State Fault Refusal :=
  s.run (fun _ d => d.whenUp (fun d => d.lifeFigureWrite ok))

/-- An NVMe-MI Basic Management Command on SMBus at address 0x6A is answered with composite temperature and status. (R478) -/
def execBasicManagementCommand (code : Nat) (s : State) : Host.Outcome State Fault Refusal :=
  s.run (fun _ d => d.basicManagement code)

/-- An entry to L1, L2 or L3 finishes after its entry latency; entering clears and the head rests in the new state. (R405) -/
def execPowerStateEntered (s : State) : Host.Outcome State Fault Refusal :=
  s.run (fun _ d => d.psEntered)

/-- Every 1 µs the control summary page is refreshed as one snapshot, with snap_seq odd during the write. (R439) -/
def execControlSummarySnapshot (s : State) : Host.Outcome State Fault Refusal :=
  s.run (fun fu d => d.summarize fu)

end Sys2Proof.Machine
end

