-- ==== Sys2Proof/Machine/Dispatch.lean ====
section
/-! DEFINITION. The dispatcher: one arm for each command. -/
namespace Sys2Proof.Machine

/-- The effect of a command on everything but the queue. -/
def exec (i : Instr) (s : State) : Host.Outcome State Fault Refusal :=
  match i with
  | .regWrite a => Sys2Proof.Machine.execRegWrite a s
  | .malformedAccess write off len => Sys2Proof.Machine.execMalformedAccess write off len s
  | .regWrite64Half off val => Sys2Proof.Machine.execRegWrite64Half off val s
  | .bitAliasWrite off val => Sys2Proof.Machine.execBitAliasWrite off val s
  | .scWriteBack off val => Sys2Proof.Machine.execScWriteBack off val s
  | .sysModeReqWrite val => Sys2Proof.Machine.execSysModeReqWrite val s
  | .reshapeCancel => Sys2Proof.Machine.execReshapeCancel s
  | .simSubmit region => Sys2Proof.Machine.execSimSubmit region s
  | .imageValidationDone => Sys2Proof.Machine.execImageValidationDone s
  | .stagedCopyWritten ok => Sys2Proof.Machine.execStagedCopyWritten ok s
  | .simActivate stateWordOk => Sys2Proof.Machine.execSimActivate stateWordOk s
  | .activationWaitEvent => Sys2Proof.Machine.execActivationWaitEvent s
  | .simDiscard => Sys2Proof.Machine.execSimDiscard s
  | .slotAdjApply ch amount => Sys2Proof.Machine.execSlotAdjApply ch amount s
  | .histClear ch => Sys2Proof.Machine.execHistClear ch s
  | .secSetApply => Sys2Proof.Machine.execSecSetApply s
  | .qpToError => Sys2Proof.Machine.execQpToError s
  | .winRevoke => Sys2Proof.Machine.execWinRevoke s
  | .winReopen => Sys2Proof.Machine.execWinReopen s
  | .cipZeroize => Sys2Proof.Machine.execCipZeroize s
  | .shareLoad => Sys2Proof.Machine.execShareLoad s
  | .shareLoadDone data fault => Sys2Proof.Machine.execShareLoadDone data fault s
  | .scEnableWrite enable => Sys2Proof.Machine.execScEnableWrite enable s
  | .scInvalidate => Sys2Proof.Machine.execScInvalidate s
  | .scWriteback => Sys2Proof.Machine.execScWriteback s
  | .scWritebackComplete => Sys2Proof.Machine.execScWritebackComplete s
  | .arbRelease => Sys2Proof.Machine.execArbRelease s
  | .arbHandback => Sys2Proof.Machine.execArbHandback s
  | .laneRetrain lane => Sys2Proof.Machine.execLaneRetrain lane s
  | .snpRetain => Sys2Proof.Machine.execSnpRetain s
  | .snpRelease => Sys2Proof.Machine.execSnpRelease s
  | .skipLost => Sys2Proof.Machine.execSkipLost s
  | .caravanRestart => Sys2Proof.Machine.execCaravanRestart s
  | .caravanMakeFull => Sys2Proof.Machine.execCaravanMakeFull s
  | .warmResetPulse => Sys2Proof.Machine.execWarmResetPulse s
  | .l3Req => Sys2Proof.Machine.execL3Req s
  | .cfgCommit => Sys2Proof.Machine.execCfgCommit s
  | .cfgAcceptAll => Sys2Proof.Machine.execCfgAcceptAll s
  | .cfgReapply => Sys2Proof.Machine.execCfgReapply s
  | .fwuChunk data => Sys2Proof.Machine.execFwuChunk data s
  | .fwuWriteDone ok => Sys2Proof.Machine.execFwuWriteDone ok s
  | .fwuCommit => Sys2Proof.Machine.execFwuCommit s
  | .fwuAbort => Sys2Proof.Machine.execFwuAbort s
  | .programOwner source => Sys2Proof.Machine.execProgramOwner source s
  | .programKfuse source => Sys2Proof.Machine.execProgramKfuse source s
  | .evrFlush => Sys2Proof.Machine.execEvrFlush s
  | .evrClear key => Sys2Proof.Machine.execEvrClear key s
  | .evrClearDone => Sys2Proof.Machine.execEvrClearDone s
  | .evrRdIdxWrite index => Sys2Proof.Machine.execEvrRdIdxWrite index s
  | .evrRecordFetched => Sys2Proof.Machine.execEvrRecordFetched s
  | .cntSelWrite counter val => Sys2Proof.Machine.execCntSelWrite counter val s
  | .cntClearAll => Sys2Proof.Machine.execCntClearAll s
  | .trcClear => Sys2Proof.Machine.execTrcClear s
  | .redSqTailWrite ring tail fetched => Sys2Proof.Machine.execRedSqTailWrite ring tail fetched s
  | .redCqHeadWrite ring head fetched => Sys2Proof.Machine.execRedCqHeadWrite ring head fetched s
  | .redRingEnableWrite ring val => Sys2Proof.Machine.execRedRingEnableWrite ring val s
  | .cipSqTailWrite ring tail fetched => Sys2Proof.Machine.execCipSqTailWrite ring tail fetched s
  | .cipCqHeadWrite ring head fetched => Sys2Proof.Machine.execCipCqHeadWrite ring head fetched s
  | .cipRingEnableWrite ring val => Sys2Proof.Machine.execCipRingEnableWrite ring val s
  | .jobCompress j => Sys2Proof.Machine.execJobCompress j s
  | .jobDecompress j => Sys2Proof.Machine.execJobDecompress j s
  | .jobFlush j => Sys2Proof.Machine.execJobFlush j s
  | .jobSaveContext j => Sys2Proof.Machine.execJobSaveContext j s
  | .jobRestoreContext j => Sys2Proof.Machine.execJobRestoreContext j s
  | .cipEncrypt j => Sys2Proof.Machine.execCipEncrypt j s
  | .cipDecrypt j => Sys2Proof.Machine.execCipDecrypt j s
  | .cipLoadKey j => Sys2Proof.Machine.execCipLoadKey j s
  | .cipSaveContext j => Sys2Proof.Machine.execCipSaveContext j s
  | .cipRestoreContext j => Sys2Proof.Machine.execCipRestoreContext j s
  | .mgmtHello h => Sys2Proof.Machine.execMgmtHello h s
  | .mgmtRegRead h => Sys2Proof.Machine.execMgmtRegRead h s
  | .mgmtRegWrite h payload => Sys2Proof.Machine.execMgmtRegWrite h payload s
  | .mgmtBufWrite h payload => Sys2Proof.Machine.execMgmtBufWrite h payload s
  | .send p pos imm payload => Sys2Proof.Machine.execSend p pos imm payload s
  | .rdmaWrite p pos reth payload => Sys2Proof.Machine.execRdmaWrite p pos reth payload s
  | .rdmaWriteWithImmediate p pos reth imm payload => Sys2Proof.Machine.execRdmaWriteWithImmediate p pos reth imm payload s
  | .rdmaReadRequest p reth => Sys2Proof.Machine.execRdmaReadRequest p reth s
  | .rdmaReadResponse p payload last error => Sys2Proof.Machine.execRdmaReadResponse p payload last error s
  | .acknowledge p syndrome msn => Sys2Proof.Machine.execAcknowledge p syndrome msn s
  | .cnp p => Sys2Proof.Machine.execCnp p s
  | .sprayWriteNotLast p h payload => Sys2Proof.Machine.execSprayWriteNotLast p h payload s
  | .sprayWriteLast p h payload => Sys2Proof.Machine.execSprayWriteLast p h payload s
  | .sprayWriteLastImmediate p h imm payload => Sys2Proof.Machine.execSprayWriteLastImmediate p h imm payload s
  | .unsupportedOpcode p transport opcode => Sys2Proof.Machine.execUnsupportedOpcode p transport opcode s
  | .pfcFrame port prio pause => Sys2Proof.Machine.execPfcFrame port prio pause s
  | .tcpSegment port opens toData => Sys2Proof.Machine.execTcpSegment port opens toData s
  | .cmReq r => Sys2Proof.Machine.execCmReq r s
  | .cmRep qpn peerQpn psn priv => Sys2Proof.Machine.execCmRep qpn peerQpn psn priv s
  | .cmRtu qpn => Sys2Proof.Machine.execCmRtu qpn s
  | .cmDreq qpn => Sys2Proof.Machine.execCmDreq qpn s
  | .cmRej qpn code => Sys2Proof.Machine.execCmRej qpn code s
  | .netLinkDown port => Sys2Proof.Machine.execNetLinkDown port s
  | .netLinkUp port => Sys2Proof.Machine.execNetLinkUp port s
  | .contextFetchDone qpn fault => Sys2Proof.Machine.execContextFetchDone qpn fault s
  | .qpResetTimeout qpn => Sys2Proof.Machine.execQpResetTimeout qpn s
  | .ucMessageTimeout qpn => Sys2Proof.Machine.execUcMessageTimeout qpn s
  | .sackGapTimer qpn => Sys2Proof.Machine.execSackGapTimer qpn s
  | .creditRefresh => Sys2Proof.Machine.execCreditRefresh s
  | .requesterRetriesExhausted qpn => Sys2Proof.Machine.execRequesterRetriesExhausted qpn s
  | .paceRise qpn => Sys2Proof.Machine.execPaceRise qpn s
  | .strobe ch stamp width => Sys2Proof.Machine.execStrobe ch stamp width s
  | .strobeLateLimit ch num => Sys2Proof.Machine.execStrobeLateLimit ch num s
  | .completionLateLimit ch num => Sys2Proof.Machine.execCompletionLateLimit ch num s
  | .ipclkMeasurement khz => Sys2Proof.Machine.execIpclkMeasurement khz s
  | .ipclkStopped => Sys2Proof.Machine.execIpclkStopped s
  | .ipclkInTolerance => Sys2Proof.Machine.execIpclkInTolerance s
  | .trigPulse trig => Sys2Proof.Machine.execTrigPulse trig s
  | .ppsInEdge offset => Sys2Proof.Machine.execPpsInEdge offset s
  | .ptpSync m => Sys2Proof.Machine.execPtpSync m s
  | .ptpSyncTimeout => Sys2Proof.Machine.execPtpSyncTimeout s
  | .ppsInTimeout => Sys2Proof.Machine.execPpsInTimeout s
  | .ref10mLost => Sys2Proof.Machine.execRef10mLost s
  | .holdoverExpiry => Sys2Proof.Machine.execHoldoverExpiry s
  | .nvmeFlush h => Sys2Proof.Machine.execNvmeFlush h s
  | .nvmeWrite h slba nlb fua data => Sys2Proof.Machine.execNvmeWrite h slba nlb fua data s
  | .nvmeRead h slba nlb fua buf => Sys2Proof.Machine.execNvmeRead h slba nlb fua buf s
  | .nvmeCompare h slba nlb data => Sys2Proof.Machine.execNvmeCompare h slba nlb data s
  | .nvmeWriteZeroes h slba nlb deac fua => Sys2Proof.Machine.execNvmeWriteZeroes h slba nlb deac fua s
  | .nvmeDatasetManagement h nr ad ranges fault => Sys2Proof.Machine.execNvmeDatasetManagement h nr ad ranges fault s
  | .nvmeVerify h slba nlb => Sys2Proof.Machine.execNvmeVerify h slba nlb s
  | .placeCairn h retain waitClose => Sys2Proof.Machine.execPlaceCairn h retain waitClose s
  | .deleteIoSubmissionQueue h qid => Sys2Proof.Machine.execDeleteIoSubmissionQueue h qid s
  | .deleteIoCompletionQueue h qid => Sys2Proof.Machine.execDeleteIoCompletionQueue h qid s
  | .createIoSubmissionQueue h qid size contig cqid base => Sys2Proof.Machine.execCreateIoSubmissionQueue h qid size contig cqid base s
  | .createIoCompletionQueue h qid size contig ien vector base => Sys2Proof.Machine.execCreateIoCompletionQueue h qid size contig ien vector base s
  | .getLogPage h lid rae numd offset buf => Sys2Proof.Machine.execGetLogPage h lid rae numd offset buf s
  | .identify h cns buf => Sys2Proof.Machine.execIdentify h cns buf s
  | .abort h sqid target => Sys2Proof.Machine.execAbort h sqid target s
  | .setFeatures h fid save dw11 dw12 data => Sys2Proof.Machine.execSetFeatures h fid save dw11 dw12 data s
  | .getFeatures h fid sel dw11 buf => Sys2Proof.Machine.execGetFeatures h fid sel dw11 buf s
  | .asynchronousEventRequest h => Sys2Proof.Machine.execAsynchronousEventRequest h s
  | .keepAlive h => Sys2Proof.Machine.execKeepAlive h s
  | .keepAliveTimeout ctrl => Sys2Proof.Machine.execKeepAliveTimeout ctrl s
  | .readEpochDigest h cairn latest buf => Sys2Proof.Machine.execReadEpochDigest h cairn latest buf s
  | .frameIndexQuery h channel byTime kindMask startSeq startNs count buf => Sys2Proof.Machine.execFrameIndexQuery h channel byTime kindMask startSeq startNs count buf s
  | .fabricsConnect c => Sys2Proof.Machine.execFabricsConnect c s
  | .propertyGet h off eight => Sys2Proof.Machine.execPropertyGet h off eight s
  | .propertySet h off eight val => Sys2Proof.Machine.execPropertySet h off eight val s
  | .invalidCommandOpcode h admin opcode => Sys2Proof.Machine.execInvalidCommandOpcode h admin opcode s
  | .controllerReset => Sys2Proof.Machine.execControllerReset s
  | .lookupDefer lookup => Sys2Proof.Machine.execLookupDefer lookup s
  | .fingerprintLookupDone lookup level => Sys2Proof.Machine.execFingerprintLookupDone lookup level s
  | .tamperAlarm input => Sys2Proof.Machine.execTamperAlarm input s
  | .railAlarm core => Sys2Proof.Machine.execRailAlarm core s
  | .crystalStop => Sys2Proof.Machine.execCrystalStop s
  | .patrolScrub w => Sys2Proof.Machine.execPatrolScrub w s
  | .heartbeat h b => Sys2Proof.Machine.execHeartbeat h b s
  | .pengenkoNak h lseq => Sys2Proof.Machine.execPengenkoNak h lseq s
  | .mirrorConfirmation h upTo => Sys2Proof.Machine.execMirrorConfirmation h upTo s
  | .imageDigest h generation digest ok => Sys2Proof.Machine.execImageDigest h generation digest ok s
  | .selfTestEcho h payload => Sys2Proof.Machine.execSelfTestEcho h payload s
  | .mirrorSlot h sl => Sys2Proof.Machine.execMirrorSlot h sl s
  | .journalOpen h r => Sys2Proof.Machine.execJournalOpen h r s
  | .journalClose h pool seq => Sys2Proof.Machine.execJournalClose h pool seq s
  | .mapDelta h d => Sys2Proof.Machine.execMapDelta h d s
  | .qpContextState h q => Sys2Proof.Machine.execQpContextState h q s
  | .windowState h w => Sys2Proof.Machine.execWindowState h w s
  | .cairnState h c => Sys2Proof.Machine.execCairnState h c s
  | .pendingHolders h l => Sys2Proof.Machine.execPendingHolders h l s
  | .retainedCairnList h l => Sys2Proof.Machine.execRetainedCairnList h l s
  | .caravanProgress h c => Sys2Proof.Machine.execCaravanProgress h c s
  | .reshapePosition h pool position => Sys2Proof.Machine.execReshapePosition h pool position s
  | .channelLastMatched h ch num strobeNs => Sys2Proof.Machine.execChannelLastMatched h ch num strobeNs s
  | .fwuState h f => Sys2Proof.Machine.execFwuState h f s
  | .peerSilent => Sys2Proof.Machine.execPeerSilent s
  | .heartbeatTimer => Sys2Proof.Machine.execHeartbeatTimer s
  | .pengenkoLaneRetrain lane ok sameHead => Sys2Proof.Machine.execPengenkoLaneRetrain lane ok sameHead s
  | .arbFenceFall => Sys2Proof.Machine.execArbFenceFall s
  | .arbFenceRise => Sys2Proof.Machine.execArbFenceRise s
  | .verdict m => Sys2Proof.Machine.execVerdict m s
  | .claimTimeout => Sys2Proof.Machine.execClaimTimeout s
  | .addressAnnounce => Sys2Proof.Machine.execAddressAnnounce s
  | .transferGrant m => Sys2Proof.Machine.execTransferGrant m s
  | .transferCommandsDrained => Sys2Proof.Machine.execTransferCommandsDrained s
  | .arbStatusTimer => Sys2Proof.Machine.execArbStatusTimer s
  | .verdictReqTimer => Sys2Proof.Machine.execVerdictReqTimer s
  | .verdictWaitExpiry => Sys2Proof.Machine.execVerdictWaitExpiry s
  | .selfTestPathCheck failed => Sys2Proof.Machine.execSelfTestPathCheck failed s
  | .selfTestDieCheck lane die ok => Sys2Proof.Machine.execSelfTestDieCheck lane die ok s
  | .stripeFillTimeout pool seq => Sys2Proof.Machine.execStripeFillTimeout pool seq s
  | .parityComplete pool seq => Sys2Proof.Machine.execParityComplete pool seq s
  | .journalPageTimer pool => Sys2Proof.Machine.execJournalPageTimer pool s
  | .timerCairn stream => Sys2Proof.Machine.execTimerCairn stream s
  | .cairnClose nsid stateWordOk => Sys2Proof.Machine.execCairnClose nsid stateWordOk s
  | .caravanOpens target => Sys2Proof.Machine.execCaravanOpens target s
  | .caravanOpenRecord qpn r => Sys2Proof.Machine.execCaravanOpenRecord qpn r s
  | .epochRecord qpn r => Sys2Proof.Machine.execEpochRecord qpn r s
  | .blockRecord qpn r => Sys2Proof.Machine.execBlockRecord qpn r s
  | .epochEndRecord qpn index digest => Sys2Proof.Machine.execEpochEndRecord qpn index digest s
  | .imageEndRecord qpn index imageDigest chainDigest => Sys2Proof.Machine.execImageEndRecord qpn index imageDigest chainDigest s
  | .closeRecord qpn index => Sys2Proof.Machine.execCloseRecord qpn index s
  | .caravanConfirmation target index refused => Sys2Proof.Machine.execCaravanConfirmation target index refused s
  | .caravanReconnectTimer target => Sys2Proof.Machine.execCaravanReconnectTimer target s
  | .vrelenFrame f => Sys2Proof.Machine.execVrelenFrame f s
  | .fillerFrame lane => Sys2Proof.Machine.execFillerFrame lane s
  | .fillerFrameDue lane => Sys2Proof.Machine.execFillerFrameDue lane s
  | .retrainRequest lane => Sys2Proof.Machine.execRetrainRequest lane s
  | .frameAckTimeout lane => Sys2Proof.Machine.execFrameAckTimeout lane s
  | .laneTrainingLimit lane onePair => Sys2Proof.Machine.execLaneTrainingLimit lane onePair s
  | .configFlit c => Sys2Proof.Machine.execConfigFlit c s
  | .laneDownRetry lane => Sys2Proof.Machine.execLaneDownRetry lane s
  | .readResponse r d => Sys2Proof.Machine.execReadResponse r d s
  | .programResponse r => Sys2Proof.Machine.execProgramResponse r s
  | .eraseResponse r => Sys2Proof.Machine.execEraseResponse r s
  | .suspendResponse r => Sys2Proof.Machine.execSuspendResponse r s
  | .resumeResponse r => Sys2Proof.Machine.execResumeResponse r s
  | .statusResponse r => Sys2Proof.Machine.execStatusResponse r s
  | .resetDieResponse r => Sys2Proof.Machine.execResetDieResponse r s
  | .setThreshResponse r => Sys2Proof.Machine.execSetThreshResponse r s
  | .setTrimResponse r => Sys2Proof.Machine.execSetTrimResponse r s
  | .claimResponse r => Sys2Proof.Machine.execClaimResponse r s
  | .bridgeStatusResponse r b => Sys2Proof.Machine.execBridgeStatusResponse r b s
  | .loopbackResponse r same => Sys2Proof.Machine.execLoopbackResponse r same s
  | .bridgeCommandTimeout lane tag => Sys2Proof.Machine.execBridgeCommandTimeout lane tag s
  | .bridgeStatusPoll => Sys2Proof.Machine.execBridgeStatusPoll s
  | .starvedErase lane die => Sys2Proof.Machine.execStarvedErase lane die s
  | .thresholdSample lane die group level reads => Sys2Proof.Machine.execThresholdSample lane die group level reads s
  | .stallEvent mode seconds => Sys2Proof.Machine.execStallEvent mode seconds s
  | .watchdogStage1 => Sys2Proof.Machine.execWatchdogStage1 s
  | .watchdogStage2 => Sys2Proof.Machine.execWatchdogStage2 s
  | .engineHang e => Sys2Proof.Machine.execEngineHang e s
  | .cfgSweep upset => Sys2Proof.Machine.execCfgSweep upset s
  | .powerOnReset b => Sys2Proof.Machine.execPowerOnReset b s
  | .pinReset b => Sys2Proof.Machine.execPinReset b s
  | .warmReset b => Sys2Proof.Machine.execWarmReset b s
  | .functionLevelReset => Sys2Proof.Machine.execFunctionLevelReset s
  | .pwrFailNFall lowNs intact => Sys2Proof.Machine.execPwrFailNFall lowNs intact s
  | .pwrFailNRise => Sys2Proof.Machine.execPwrFailNRise s
  | .parkRelease => Sys2Proof.Machine.execParkRelease s
  | .holdupOkFall => Sys2Proof.Machine.execHoldupOkFall s
  | .holdupOkRise => Sys2Proof.Machine.execHoldupOkRise s
  | .powerStateEntry p => Sys2Proof.Machine.execPowerStateEntry p s
  | .l3Exit => Sys2Proof.Machine.execL3Exit s
  | .dieTempSample t hotUs => Sys2Proof.Machine.execDieTempSample t hotUs s
  | .remoteTempSample t => Sys2Proof.Machine.execRemoteTempSample t s
  | .thermalDrainEnd => Sys2Proof.Machine.execThermalDrainEnd s
  | .mainRailLoss b => Sys2Proof.Machine.execMainRailLoss b s
  | .refclkLoss c => Sys2Proof.Machine.execRefclkLoss c s
  | .refclkReturn c => Sys2Proof.Machine.execRefclkReturn c s
  | .pcieLinkDown => Sys2Proof.Machine.execPcieLinkDown s
  | .trialPassed => Sys2Proof.Machine.execTrialPassed s
  | .trialFailed => Sys2Proof.Machine.execTrialFailed s
  | .eventFlushTimer => Sys2Proof.Machine.execEventFlushTimer s
  | .tamperInputChange input level => Sys2Proof.Machine.execTamperInputChange input level s
  | .pcieLinkTrained => Sys2Proof.Machine.execPcieLinkTrained s
  | .ptpAnnounce master intervalNs => Sys2Proof.Machine.execPtpAnnounce master intervalNs s
  | .timeSecond => Sys2Proof.Machine.execTimeSecond s
  | .lifeFigureWrite ok => Sys2Proof.Machine.execLifeFigureWrite ok s
  | .arbiterDatagramBad => Sys2Proof.Machine.execArbiterDatagramBad s
  | .basicManagementCommand code => Sys2Proof.Machine.execBasicManagementCommand code s
  | .retransmissionTimeout qpn => Sys2Proof.Machine.execRetransmissionTimeout qpn s
  | .powerStateEntered => Sys2Proof.Machine.execPowerStateEntered s
  | .controlSummarySnapshot => Sys2Proof.Machine.execControlSummarySnapshot s

end Sys2Proof.Machine
end

