-- ==== Sys2Proof/Machine/Step.lean ====
section
/-! DEFINITION. One step: the command at the front of the queue, or a tick of the clock where none waits. -/
namespace Sys2Proof.Machine

/-- An idle device: a nanosecond passes, and what follows from it (R97, R222, R419). [DESIGN CHOICE: log 2, DEDUCED: log 105] -/
def State.idle (s : State) : State := { s with dev := s.dev.tick.after s.fuses }

/-- The device takes the command at the front of its queue; with none waiting, time passes. [DESIGN CHOICE: log 1] -/
def step (s : State) : Host.Outcome State Fault Refusal :=
  match s.pending with
  | [] => .next s.idle
  | c :: rest => exec c { s with pending := rest }

/-- The command that a table word spells, put at the front of the queue: the table gives its rows no bits, so no word spells one. [DEDUCED: log 7] -/
def State.withFetchWord (s : State) (nbits w : Nat) : State :=
  match decodeTableWord nbits w with
  | some c => { s with pending := c :: s.pending }
  | none => s

end Sys2Proof.Machine
end

