-- ==== Sys2Proof/Machine/Package.lean ====
section
/-! DEFINITION. The package (R460 to R464): which region a ball lies in, which signal, rail or ground it carries. -/
namespace Sys2Proof.Machine

/-- Regions of the ball array (R460). -/
inductive Region where
  | westFlash | eastFlash | northBand | northLow | southBand | southLow | nw | ne | se | sw | interior
  deriving DecidableEq, Repr

/-- The region of ball (r, c), rows and columns 1 to 72 (R460). -/
def regionOf (r c : Nat) : Option Region :=
  if r < 1 ∨ 72 < r ∨ c < 1 ∨ 72 < c then none
  else if r ≤ 4 then
    if c ≤ 8 then some .nw else if c ≤ 56 then some .northBand else if c ≤ 64 then some .northLow else some .ne
  else if r ≤ 68 then
    if c ≤ 8 then some .westFlash else if c ≤ 64 then some .interior else some .eastFlash
  else if c ≤ 8 then some .sw else if c ≤ 48 then some .southBand else if c ≤ 64 then some .southLow else some .se

/-- Supply rails of the interior (R464). -/
inductive Rail where
  | core | sram | hbm11 | hbm04 | sd09 | sd12 | io18 | aon08 | aon18
  deriving DecidableEq, Repr

/-- What a ball carries: ground, a rail, or a signal by kind and indices. -/
inductive Ball where
  | vss
  | rail (x : Rail)
  | lane (lane serdes : Nat) (tx pos : Bool)
  | net (serdes : Nat) (tx pos : Bool)
  | peer (serdes : Nat) (tx pos : Bool)
  | pcie (lane : Nat) (tx pos : Bool)
  | low (region : Region) (index : Nat)
  deriving DecidableEq, Repr

/-- The two balls of each of some differential pairs. -/
def pairs (l : List String) : List String := l.flatMap (fun s => [s ++ "_P", s ++ "_N"])
/-- A name with each number below `n`. -/
def numbered (s : String) (n : Nat) : List String := (List.range n).map (fun i => s ++ toString i)

/-- The signals of a low-speed region or corner in their order (R463). -/
def lowNames : Region → List String
  | .nw => pairs ["REFCLK_SYS", "REFCLK_NET"] ++ ["XTAL25_IN", "XTAL25_OUT"] ++ pairs ["VSNS_CORE", "VSNS_SRAM", "VSNS_HBM", "VSNS_AON"]
  | .northLow => pairs (["TRC_CLK", "TRC_SYNC"] ++ numbered "TRC_D" 4 ++ ["SGMII_TX", "SGMII_RX"]) ++
      ["MDC", "MDIO", "SMB_SCL", "SMB_SDA", "SMB_ALERT_N", "QSPI_CLK", "QSPI_CS_N"] ++ numbered "QSPI_DQ" 4 ++
      ["TCK", "TMS", "TDI", "TDO", "TRST_N"]
  | .ne => pairs (numbered "FRAME" 8 ++ ["IPCLK"]) ++ ["PPS_IN", "REF10M_IN"]
  | .se => pairs (numbered "READY" 8 ++ numbered "TRIG" 4)
  | .southLow => pairs ["PCIE_REFCLK"] ++ ["PCIE_PERST_N", "PCIE_WAKE_N"] ++ pairs ["REFCLK_PEER", "REFCLK_LANE"] ++
      ["RESET_N", "PWR_FAIL_N", "HOLDUP_OK", "THERM_SHDN_N", "ARB_HB", "ARB_FENCE_N"] ++ numbered "TAMPER" 4 ++
      ["RECOVERY_N", "HEAD_SEL"] ++ numbered "RSVD" 18
  | .sw => pairs (numbered "TEMP" 16)
  | _ => []

/-- How many signal balls a low-speed region or corner carries; the balls left over are ground (R463). -/
def lowSignals (g : Region) : Nat := (lowNames g).length

/-- The first column and the columns of a low-speed region or corner, with its first row. -/
def lowBox : Region → Nat × Nat × Nat
  | .nw => (1, 1, 8)
  | .northLow => (1, 57, 8)
  | .ne => (1, 65, 8)
  | .se => (69, 65, 8)
  | .southLow => (69, 49, 16)
  | .sw => (69, 1, 8)
  | _ => (0, 0, 1)

/-- The rail of an interior ball with r + c odd (R464). -/
def railOf (r c : Nat) : Rail :=
  if c ≤ 12 ∨ 61 ≤ c then (if r ≤ 52 then .sd09 else .sd12)
  else if r ≤ 6 then (if c ≤ 44 then .sd12 else .io18)
  else if 67 ≤ r then (if c ≤ 52 then .io18 else if c ≤ 56 then .aon08 else .aon18)
  else if r ≤ 14 ∨ 59 ≤ r then (if c ≤ 32 then .hbm11 else if c ≤ 44 then .hbm04 else .sram)
  else if r ≤ 16 ∨ 57 ≤ r then .sram
  else .core

/-- What ball (r, c) carries (R461, R463, R464). -/
def ballOf (r c : Nat) : Option Ball :=
  (regionOf r c).map (fun g =>
    match g with
    | .westFlash => .lane ((r - 5) / 2) ((c - 1) / 2) ((r - 5) % 2 == 0) (c % 2 == 1)
    | .eastFlash => .lane (32 + (r - 5) / 2) ((72 - c) / 2) ((r - 5) % 2 == 0) (c % 2 == 0)
    | .northBand => .net (c - 9) (decide (r ≤ 2)) (r % 2 == 1)
    | .southBand => if c < 33 then .peer (c - 9) (decide (r ≤ 70)) (r % 2 == 1) else .pcie (c - 33) (decide (r ≤ 70)) (r % 2 == 1)
    | .interior => if (r + c) % 2 = 0 then .vss else .rail (railOf r c)
    | g =>
      let b := lowBox g
      let i := (r - b.1) * b.2.2 + (c - b.2.1)
      if i < lowSignals g then .low g i else .vss)

/-- The network serdes of sub-port m of a port under split s of its PORT_BREAKOUT record (R462). -/
def subPortSerdes (port split m : Nat) : List Nat :=
  (List.range (2 ^ (3 - split))).map (fun i => 8 * port + m * 2 ^ (3 - split) + i)

end Sys2Proof.Machine
end

