-- ==== Sys2Proof/Safety.lean ====
section
/-! DEFINITION. What claims about the device are stated in: what the fuses keep, what a run does to the queue, what it means that keys are
gone, that staging keeps its budget, that the recorder and trace stay within their buffers. -/
namespace Sys2Proof.Machine

/-- What one-time fuses keep from one state to a later one (R442, R449): identity, and everything burned; the minimum security version
never falls. -/
def Fuses.kept (a b : Fuses) : Prop :=
  b.serial = a.serial ∧ b.stepping = a.stepping ∧ (a.ownerHash ≠ none → b.ownerHash = a.ownerHash) ∧
    (a.kFuse ≠ none → b.kFuse = a.kFuse) ∧ a.minSecurity ≤ b.minSecurity

/-- No key is held and the status says so (R215). -/
def Dev.keysGone (d : Dev) : Prop :=
  d.cip.kRoot = none ∧ d.cip.share = [] ∧ d.cip.master = none ∧ d.cip.cache = [] ∧ d.cip.ctxs = [] ∧ d.cip.carKeys = [] ∧ d.cip.landKeys = [] ∧
    d.get F.CIP_STAT_keys_loaded = 0 ∧ d.get F.CIP_STAT_zeroized = 1

/-- The limits granted on windows stay within the span pool (R115). -/
def Dev.grantsFit (d : Dev) : Prop := d.granted ≤ d.spanPool

/-- How a command ends whose own effect leaves the device as `d` and the fuses alone: in a next state, the queue untouched, after what
follows from the effect at once. -/
def State.ends (s : State) (d : Dev) : Host.Outcome State Fault Refusal := .next { s with dev := d.after s.fuses }

/-- The same for an effect that leaves the fuses as `fu`. -/
def State.endsF (s : State) (fu : Fuses) (d : Dev) : Host.Outcome State Fault Refusal :=
  .next { s with fuses := fu, dev := d.after fu }

/-- Every register field but those listed reads as before. -/
def Dev.regsKept (a b : Dev) (but : List Field) : Prop := ∀ g : Field, (∀ f ∈ but, g.key ≠ f.key) → b.get g = a.get g

/-- The registers that recording an event may change (R452). -/
def eventRegs : List Field := [F.EVR_buffer_drops, F.EVR_records_taken, F.EVR_flushes]

/-- What the device stores of data stays as it was: staging, namespaces and their Cairns, pools and lanes (R216). -/
def Dev.dataKept (a b : Dev) : Prop := b.stg = a.stg ∧ b.snp = a.snp ∧ b.fl = a.fl

/-- A run of `k` steps that ends in a next state. -/
def State.reaches (k : Nat) (s t : State) : Prop := Sys2Proof.core.run k s = .next t

end Sys2Proof.Machine
end

