-- ==== Sys2Proof/Certificates/Slice0/Obligations.lean ====
section
/-! DEFINITION. Statements for the provers. -/
open Sys2Proof Sys2Proof.Machine

/-- A step takes the command at the front of the queue and runs it with the queue's rest; the model's own order of service (FIRST IN,
FIRST OUT). -/
def Obligations.StepTakesFront : Prop :=
  ∀ (c : Instr) (rest : List Instr) (s : State), s.pending = c :: rest → step s = exec c { s with pending := rest }

/-- On an empty queue a nanosecond passes (the model's choice): the AON timebase counts one, the queue stays empty, the fuses stay,
and what follows from the tick at once is all that happens. -/
def Obligations.IdleStepTicks : Prop :=
  ∀ s : State, s.pending = [] → step s = s.ends s.dev.tick ∧ s.dev.tick.pow.aon = s.dev.pow.aon + 1

/-- Every command of the table answers a next state, from every state: no fault, no refusal; and no command touches the queue. -/
def Obligations.EveryCommandAnswers : Prop :=
  ∀ (c : Instr) (s : State), ∃ t, exec c s = .next t ∧ t.pending = s.pending

/-- The queue drains in order: after as many steps as commands waited, the queue is empty, and each command was taken in turn by
`exec`. Whatever is put behind the queue is untouched and comes next. -/
def Obligations.QueueDrains : Prop :=
  ∀ (s : State) (front back : List Instr), s.pending = front ++ back →
    ∃ t, s.reaches front.length t ∧ t.pending = back ∧
      Host.Outcome.next t = front.foldl (fun o c => match o with
        | .next u => exec c u
        | x => x) (.next { s with pending := back })

/-- One-time fuses (R442, R449): for whatever fuses a part was made with, a step of any command, and of the idle device, keeps serial
number and stepping, everything burned, and never lowers the fused minimum. -/
def Obligations.FusesKeptByStep : Prop :=
  ∀ (made : Fuses) (s t : State), made.kept s.fuses → step s = .next t → made.kept t.fuses

/-- The invariant of O5 holds after reset of the fuses that State.reset holds, which are blank. -/
def Obligations.FusesKeptAtReset : Prop :=
  State.reset.fuses.kept State.reset.fuses ∧ State.reset.fuses.ownerHash = none ∧ State.reset.fuses.kFuse = none

/-- Fuses change by eight commands alone: the register writes (which may pulse FWU_FUSE), the two fuse pulses, the management
port's register write, and the end of a firmware trial. Every other command, and an idle step, leaves all of them as they were. -/
def Obligations.FusesOnlyBy : Prop :=
  (∀ (c : Instr) (s t : State), exec c s = .next t →
    (∀ a, c ≠ .regWrite a) → (∀ o v, c ≠ .regWrite64Half o v) → (∀ o v, c ≠ .bitAliasWrite o v) → (∀ o v, c ≠ .scWriteBack o v) →
    (∀ b, c ≠ .programOwner b) → (∀ b, c ≠ .programKfuse b) → (∀ h b, c ≠ .mgmtRegWrite h b) → c ≠ .trialPassed →
    t.fuses = s.fuses) ∧
  (∀ s t : State, s.pending = [] → step s = .next t → t.fuses = s.fuses)

/-- What follows at once from a command on a head that is not in service and owes no reset (R251, R266, R448): its arbiter role, READY,
ARB_HB and the READY-low counters of its channels. Every other register, and everything else the device holds, stays as the command
left it. -/
def Obligations.QuietHeadSettles : Prop :=
  ∀ (fu : Fuses) (d : Dev), d.up = false → d.pow.resetOwed = none → ∃ x : Dev, d.after fu = x ∧
    d.regsKept x (F.ARB_STAT_role :: (List.range 8).map (F.IPT_CH_ready_low_events.at ·)) ∧
    (∃ (ready : List Bool) (hb : Bool), x.pins = { d.pins with ready := ready, arbHb := hb } ∧ hb = (d.pow.run == .l3)) ∧
    d.dataKept x ∧ x.pow = d.pow ∧ x.boot = d.boot ∧ x.sim = d.sim ∧ x.fwu = d.fwu ∧ x.cfg = d.cfg ∧ x.mgmt = d.mgmt ∧ x.ipt = d.ipt ∧
    x.net = d.net ∧ x.txHeld = d.txHeld ∧ x.nv = d.nv ∧ x.red = d.red ∧ x.cip = d.cip ∧ x.head = d.head ∧ x.int = d.int ∧ x.msix = d.msix ∧
    x.evr = d.evr ∧ x.trc = d.trc ∧
    x.heldLow = d.heldLow ∧ x.free = d.free ∧ x.out = d.out

/-- After reset no command waits, every register field reads its reset value, no image is in effect, no key is held, no pool is
owned, nothing is staged, and nothing has been sent. (R11; blank fuses and flash are the model's choice.) -/
def Obligations.ResetLeaves : Prop :=
  State.reset.pending = [] ∧ (∀ f : Field, State.reset.dev.get f = f.reset) ∧ State.reset.dev.sim.active = none ∧
    State.reset.dev.cip.kRoot = none ∧ State.reset.dev.cip.master = none ∧ (∀ p, State.reset.dev.owns p = false) ∧
    State.reset.dev.stg.slots = [] ∧ State.reset.dev.out = [] ∧ State.reset.dev.keysUsable = false

/-! ### Registers -/

/-- The register store: a field written reads back what its width keeps, every other field reads as before, and the store keeps its
canonical form. -/
def Obligations.FieldReadsBack : Prop :=
  ∀ (d : Dev) (f : Field) (v : Nat), (d.set f v).get f = v % 2 ^ f.width ∧
    (∀ g : Field, g.key ≠ f.key → (d.set f v).get g = d.get g) ∧
    (Tab.wf d.regs = true → Tab.wf (d.set f v).regs = true)

/-- Software's write of one field (R7, R9): a field software may not write is left alone; a locked field keeps its value, with an
event exactly where the value written differs; a reserved encoding is discarded with an event. -/
def Obligations.FieldWriteDiscarded : Prop :=
  ∀ (d : Dev) (f : Field) (i j v : Nat),
    (f.acc ≠ .rw → f.acc ≠ .rwlk → d.writeField f i j v = d) ∧
    (f.acc = .rwlk → d.locked = true →
      d.writeField f i j v = if v % 2 ^ f.width = d.get ((f.at i).sub j) then d
        else d.event f.block .lockedWrite [((f.at i).sub j).off, v % 2 ^ f.width]) ∧
    (f.acc = .rw ∨ (f.acc = .rwlk ∧ d.locked = false) → d.reservedValue f i (v % 2 ^ f.width) = true →
      d.writeField f i j v = d.event f.block .reservedEncoding [((f.at i).sub j).off, v % 2 ^ f.width]) ∧
    (f.acc = .rw ∨ (f.acc = .rwlk ∧ d.locked = false) → d.reservedValue f i (v % 2 ^ f.width) = false → actsOn f = false →
      ((f.at i).sub j).key ≠ F.SYS_CFG_TOUCHED_blocks.key →
      (d.writeField f i j v).get ((f.at i).sub j) = v % 2 ^ f.width)

/-- 64-bit registers (R429): the low word is held; the high word's write takes effect with it and releases it; alone it takes effect
with the low word present; a qword write takes effect at once and discards a held low word of its register. -/
def Obligations.WideWriteHeld : Prop :=
  ∀ (fu : Fuses) (d : Dev) (b off lo hi : Nat), off + 4 < aliasBase → blockOf off = b → blockOf (off + 4) = b → b ≠ 8 →
    d.takes b = true → wideAt b off = true → wideAt b (off + 4) = false →
    d.writeDword fu off lo = { d with heldLow := Tab.put b (off, lo) d.heldLow } ∧
    (d.writeDword fu off lo).writeDword fu (off + 4) hi = (d.unheld b).writeReg fu b off (lo + hi * 2 ^ 32) ∧
    (d.heldAt b off = none → d.writeDword fu (off + 4) hi = d.writeReg fu b off (d.mapDword fu b off + hi * 2 ^ 32)) ∧
    d.writeQword fu off (lo + hi * 2 ^ 32) = (if (d.heldAt b off).isSome then d.unheld b else d).writeReg fu b off (lo + hi * 2 ^ 32)

/-- R426: status bits in 19:0 and seq in 31:20. A condition increments seq modulo 4,096, sets the bit and records the new seq as its
set number, whether or not the bit was set. A write-back clears each bit whose mask bit is 1 and whose set number lies at or before the
sequence number written, (s − n) mod 4,096 below 2,048; it clears no other bit and never changes seq; SC_WRITE_BACK on a served SYS block is
that write. -/
def Obligations.StatusRegister : Prop :=
  (∀ (st : IntState) (b : Nat), (intRaise st b).seq = (st.seq + 1) % 4096 ∧
    Tab.find? b (intRaise st b).set = some ((st.seq + 1) % 4096) ∧
    (∀ c, c ≠ b → Tab.find? c (intRaise st b).set = Tab.find? c st.set) ∧
    (Tab.wf st.set = true → Tab.wf (intRaise st b).set = true)) ∧
  (∀ (st : IntState) (s m : Nat), Tab.wf st.set = true →
    (intWriteBack st s m).seq = st.seq ∧ Tab.wf (intWriteBack st s m).set = true ∧
    ∀ b, Tab.find? b (intWriteBack st s m).set = (Tab.find? b st.set).filter (fun n =>
      !(tb m b && decide ((s + 4096 - n % 4096) % 4096 < 2048)))) ∧
  (∀ (st : IntState), Tab.wf st.set = true → (∀ e ∈ st.set, e.1 < 20) → bits st.value 31 20 = st.seq % 4096 ∧
    ∀ b, b < 20 → tb st.value b = Tab.has b st.set) ∧
  (∀ (d : Dev) (v : Nat), (d.scWrite v).int = intWriteBack d.int (bits v 31 20) (bits v 19 0) ∧ (d.scWrite v).regs = d.regs) ∧
  (∀ (s : State) (v : Nat), s.dev.takes 0 = true →
    exec (.scWriteBack F.SYS_INT_STAT_seq.off v) s = s.ends (s.dev.scWrite (v % 2 ^ 32)))

/-- R427: a message is due whenever an enabled bit changes from 0 to 1, and none for a condition that recurs while its bit is set;
after a write-back one more is due where an enabled bit is still set, and otherwise none. A message that is due goes out on its vector, or
stands in the pending bits while the vector is masked. (Masks and pending bits are PCIe's, through R8: log 97.) -/
def Obligations.StatusMessages : Prop :=
  (∀ (d : Dev) (b : Nat), let v := d.get F.SYS_INT_CFG_vector
    ((d.raise b).out, (d.raise b).msix) =
      if d.intEnabled b = true ∧ Tab.has b d.int.set = false then ((d.message v).out, (d.message v).msix) else (d.out, d.msix)) ∧
  (∀ (d : Dev) (v : Nat), let m := d.get F.SYS_INT_CFG_vector
    ((d.scWrite v).out, (d.scWrite v).msix) =
      if ∃ e ∈ (d.scWrite v).int.set, d.intEnabled e.1 = true then ((d.message m).out, (d.message m).msix) else (d.out, d.msix)) ∧
  (∀ (d : Dev) (v : Nat),
    (d.msix.masked v = false → (d.message v).out = d.out ++ [.msix v] ∧ (d.message v).msix = d.msix) ∧
    (d.msix.masked v = true → (d.message v).out = d.out ∧ v ∈ (d.message v).msix.pending ∧
      (d.message v).msix.table = d.msix.table))

/-- R434, as far as a single write shows it: a write of the value a class-C field holds touches nothing; a changed value is kept and
sets the block's bit in SYS_CFG_TOUCHED, and no field but these two changes. -/
def Obligations.SoftwareChangeTouches : Prop :=
  ∀ (d : Dev) (f : Field) (v : Nat), f.key ≠ F.SYS_CFG_TOUCHED_blocks.key → f.block < 23 →
    (d.get f = v % 2 ^ f.width → d.softC f v = d) ∧
    (d.get f ≠ v % 2 ^ f.width → (d.softC f v).get f = v % 2 ^ f.width ∧
      tb ((d.softC f v).get F.SYS_CFG_TOUCHED_blocks) f.block = true) ∧
    d.regsKept (d.softC f v) [f, F.SYS_CFG_TOUCHED_blocks]

/-! ### Events, counters, trace -/

/-- The recorder (R452, R453): a record is taken in order while fewer than 4,096 wait and dropped otherwise, with the next sequence
number either way; a flush appends in order up to 1,048,576 records, keeps what the area holds, and counts what it drops. -/
def Obligations.RecorderBounded : Prop :=
  (∀ (e : EvrState) (r : EvRec), (evrTake e r).nextSeq = (e.nextSeq + 1) % 2 ^ 32 ∧
    (evrTake e r).buffer = (if e.buffer.length < 4096 then e.buffer ++ [r] else e.buffer) ∧
    (e.buffer.length ≤ 4096 → (evrTake e r).buffer.length ≤ 4096)) ∧
  (∀ area buf : List EvRec, area.length ≤ 1048576 →
    (flushTo area buf).1.take area.length = area ∧ (flushTo area buf).1.length ≤ 1048576 ∧
    (flushTo area buf).1.length + (flushTo area buf).2 = area.length + buf.length ∧
    ((flushTo area buf).2 ≠ 0 → (flushTo area buf).1.length = 1048576))

/-- EVR_CLEAR (R453): with the key 0xC1EA the area is emptied and EVR_DROPPED returns to 0 while the records waiting in the buffer
stay; without it only an event is recorded. -/
def Obligations.EventAreaClear : Prop :=
  ∀ (s : State) (key : Nat), s.dev.takes 18 = true →
    (key = 0xC1EA → ∃ x : Dev, exec (.evrClear key) s = s.ends x ∧ x.boot.area = [] ∧ x.boot.areaDropped = 0 ∧
      x.evr.clearing = true ∧ x.evr.buffer = s.dev.evr.buffer ∧ x.regs = s.dev.regs ∧ x.boot.settings = s.dev.boot.settings) ∧
    (key ≠ 0xC1EA → exec (.evrClear key) s = s.ends (s.dev.event 18 .clearWithoutKey [key]))

/-- Event counters (R454, R458): each of the 256 that selects the source, takes the instance or the sum of all (0xFF) and is not
frozen counts `n` more modulo 2^64; every other one, and every selection, stays. -/
def Obligations.CountersCount : Prop :=
  ∀ (c : CntState) (rs : List (Nat × Nat)) (source inst n i : Nat), i < 256 →
    (cntAdd c rs source inst n).sel = c.sel ∧
    (cntAdd c rs source inst n).val.getD i 0 =
      (if bits (c.sel.getD i 0xFF0000) 10 0 = source ∧
          (bits (c.sel.getD i 0xFF0000) 23 16 = 0xFF ∨ bits (c.sel.getD i 0xFF0000) 23 16 = inst) ∧ frozenCnt rs i = false
        then (c.val.getD i 0 + n) % 2 ^ 64 else c.val.getD i 0)

/-- Trace (R455): the buffer never holds more than 131,072 packets; below that a packet is appended; at the last place it stops
where stop_on_full is set; a full buffer that goes on overwrites its oldest packet. A packet that finds the port or the buffer busy is
dropped and counted in TRC_LOST, and the next one sent is a loss marker with the number dropped. TRC_CLEAR empties the buffer and lets it
run again. (When it is busy is an open value: log 77.) -/
def Obligations.TraceBuffer : Prop :=
  (∀ (t : TrcState) (stop : Bool) (p : TrcPacket), t.held.length ≤ 131072 →
    (trcPush t stop p).held.length ≤ 131072 ∧ (trcPush t stop p).held.getLast? = some p ∧
    (t.held.length < 131072 → (trcPush t stop p).held = t.held ++ [p]) ∧
    (t.held.length = 131071 → (trcPush t stop p).stopped = stop) ∧
    (t.held.length = 131072 → (trcPush t stop p).held = t.held.tail ++ [p])) ∧
  (∀ (t : TrcState) (stop : Bool) (p : TrcPacket),
    (trcOffer t stop p).1.lost = (if Config.traceBusy t.offered then (t.lost + 1) % 2 ^ 64 else t.lost) ∧
    (trcOffer t stop p).1.owed = (if Config.traceBusy t.offered then t.owed + 1 else 0) ∧
    ((trcOffer t stop p).2 = [] ↔ Config.traceBusy t.offered = true) ∧
    (∀ (m : TrcPacket) (rest : List TrcPacket), (trcOffer t stop p).2 = m :: rest →
      if t.owed = 0 then m = p ∧ rest = [] else m.kind = 15 ∧ m.data = t.owed % 2 ^ 32 ∧ m.timeNs = p.timeNs ∧ (rest = [] ∨ rest = [p]))) ∧
  (∀ s : State, s.dev.takes 20 = true → ∃ x : Dev, exec .trcClear s = s.ends x ∧ x.trc.held = [] ∧ x.trc.stopped = false ∧
    x.regs = s.dev.regs ∧ x.evr = s.dev.evr)

/-! ### The structural image -/

/-- SIM_SUBMIT is refused with 0x0044 while a boot_only lock is active, else with 0x0045 while the head is busy (R65, R69): the code
stands in SIM_ERR, and nothing is taken in; what the management port has supplied counts from this submit on. That a refusal is an event
and an interrupt is the model's reading. -/
def Obligations.SubmitRefused : Prop :=
  ∀ (s : State) (region : Bytes), s.dev.takes 22 = true →
    (s.dev.img.lockFlags.any (fun f => tb f 0) = true →
      ∃ x : Dev, exec (.simSubmit region) s = s.ends x ∧ x.get F.SIM_ERR_code = 0x0044 ∧
        x.sim = { s.dev.sim with mgmtHigh := 0 } ∧ s.dev.dataKept x ∧
        s.dev.regsKept x (F.SIM_ERR_code :: F.SIM_ERR_record :: F.SIM_ERR_OFF_offset :: eventRegs)) ∧
    (s.dev.img.lockFlags.any (fun f => tb f 0) = false → s.dev.ownershipBusy = true →
      ∃ x : Dev, exec (.simSubmit region) s = s.ends x ∧ x.get F.SIM_ERR_code = 0x0045 ∧
        x.sim = { s.dev.sim with mgmtHigh := 0 } ∧ s.dev.dataKept x ∧
        s.dev.regsKept x (F.SIM_ERR_code :: F.SIM_ERR_record :: F.SIM_ERR_OFF_offset :: eventRegs))

/-- SIM_DISCARD (R78): a staged image is dropped, its copy emptied, and no copy is armed; with nothing staged only an event is
recorded. Registers other than the recorder's keep their values. -/
def Obligations.DiscardStaged : Prop :=
  ∀ s : State, s.dev.takes 22 = true →
    ((s.dev.simState = 2 ∨ s.dev.simState = 3 ∨ s.dev.simState = 4 ∨ s.dev.simState = 6) →
      ∃ x : Dev, exec .simDiscard s = s.ends x ∧ x.sim.staged = none ∧ x.sim.armed = false ∧ x.simState = 0 ∧
        x.sim.active = s.dev.sim.active ∧ s.dev.dataKept x ∧ s.dev.regsKept x eventRegs) ∧
    ((s.dev.simState = 0 ∨ s.dev.simState = 1 ∨ s.dev.simState = 5) →
      exec .simDiscard s = s.ends (s.dev.event 22 .discardIdle))

/-! ### Strobes and TIME -/

/-- SLOT_ADJ_APPLY (R83): the signed 16-bit amount is added to the channel's slot counter, a signed 32-bit count, and nothing else
of any channel changes. -/
def Obligations.SlotAdjustment : Prop :=
  ∀ (s : State) (ch : Fin 8) (amount : Nat), s.dev.takes 4 = true →
    ∃ x : Dev, exec (.slotAdjApply ch amount) s = s.ends x ∧
      (-(2 ^ 31 : Int) ≤ (s.dev.chan ch.val).slots + signedOf 16 amount → (s.dev.chan ch.val).slots + signedOf 16 amount < 2 ^ 31 →
        x.chan ch.val = { s.dev.chan ch.val with slots := (s.dev.chan ch.val).slots + signedOf 16 amount }) ∧
      (∀ c, c ≠ ch.val → x.chan c = s.dev.chan c) ∧ s.dev.regsKept x [F.IPT_CH_SLOT_ADJ_amount.at ch.val] ∧
      x.out = s.dev.out ∧ s.dev.dataKept x

/-- STROBE (R79, R80): a channel that is disabled ignores it; a pulse shorter than 2 ns only counts as a glitch; one of 4 ns or more
that follows the previous strobe within 20 ns only counts as too close, and does not become the previous strobe. (TIME stands at the
stamp: a strobe carries it.) -/
def Obligations.StrobeFilter : Prop :=
  ∀ (s : State) (ch : Fin 8) (stamp width : Nat), s.dev.up = true →
    ((s.dev.chan ch.val).role = .disabled → exec (.strobe ch stamp width) s = s.ends s.dev) ∧
    ((s.dev.chan ch.val).role ≠ .disabled → width < 2 →
      exec (.strobe ch stamp width) s = s.ends ((s.dev.reachTime stamp).bump (F.IPT_CH_glitches.at ch.val))) ∧
    (∀ p, (s.dev.chan ch.val).role ≠ .disabled → 4 ≤ width → (s.dev.chan ch.val).prevStrobe = some p → (stamp : Int) - p < 20 →
      exec (.strobe ch stamp width) s = s.ends ((s.dev.reachTime stamp).bump (F.IPT_CH_too_close.at ch.val))) ∧
    (∀ f, (((s.dev.reachTime stamp).bump f).chan ch.val) = s.dev.chan ch.val)

/-- The first pulse of a schedule after it becomes active (R96): the least k whose time start + k × period is not past; with period 0
pulse 0 alone, while its time is not past. -/
def Obligations.FirstPulseIsLeast : Prop :=
  ∀ (t : Trig) (now : Nat),
    (0 < t.period → now ≤ t.start + firstPulse t now * t.period ∧ ∀ k, k < firstPulse t now → t.start + k * t.period < now) ∧
    (t.period = 0 → (firstPulse t now = 0 ↔ now ≤ t.start))

/-- SEC_SET_APPLY (R94): under PTP it only records an event; otherwise the seconds standing at the pulse are kept, pending reads 1,
and no later write of TMB_SEC_SET changes the apply in progress. -/
def Obligations.SecondsApply : Prop :=
  ∀ s : State, s.dev.takes 5 = true →
    (s.dev.timeSource = 1 → ∃ x : Dev, exec .secSetApply s = s.ends x ∧ x.ipt = s.dev.ipt ∧ s.dev.regsKept x eventRegs) ∧
    (s.dev.timeSource ≠ 1 → ∃ x : Dev, exec .secSetApply s = s.ends x ∧
      x.ipt.time.secLatch = some (s.dev.get F.TMB_SEC_SET_seconds) ∧ x.get F.TMB_SEC_CTL_pending = 1 ∧
      s.dev.regsKept x [F.TMB_SEC_CTL_pending] ∧ x.ipt.time.now = s.dev.ipt.time.now ∧
      ∀ v, (x.set F.TMB_SEC_SET_seconds v).ipt = x.ipt)

/-! ### Network and capture -/

/-- A packet of any kind with a bad FCS, a bad ICRC, a P_Key other than 0xFFFF or a queue pair number above 131,071 is discarded: it is
counted, an event is recorded, and no queue pair and no window changes (R101, R131); on a sub-port that is not enabled nothing arrives at
all. A CNP shows it at the command. -/
def Obligations.BadPacketDiscarded : Prop :=
  (∀ (d : Dev) (c : Instr) (r : Rx), rxOf c = some r →
    (d.hasSubPort r.p.port = false → d.receive c = d) ∧
    (d.hasSubPort r.p.port = true → (r.p.badFcs = true ∨ r.p.badIcrc = true ∨ r.p.pkey ≠ 0xFFFF ∨ 131071 < r.p.qpn) →
      (d.receive c).net = d.net ∧ (d.receive c).nv = d.nv ∧ d.dataKept (d.receive c) ∧
      (d.receive c).evr.nextSeq = (d.evr.nextSeq + 1) % 2 ^ 32 ∧
      (d.receive c).get (F.NET_P_rx_packets.at r.p.port.port) = (d.get (F.NET_P_rx_packets.at r.p.port.port) + 1) % 2 ^ 64)) ∧
  (∀ (s : State) (p : Pkt), s.dev.up = true → s.dev.hasSubPort p.port = true →
    (p.badFcs = true ∨ p.badIcrc = true ∨ p.pkey ≠ 0xFFFF ∨ 131071 < p.qpn) →
    ∃ x : Dev, exec (.cnp p) s = s.ends x ∧ x.net = s.dev.net ∧ x.nv = s.dev.nv ∧ s.dev.dataKept x)

/-- R115: no advance of a window's limit takes the sum of Λ − H over the bound windows above the buffer they share; the limit never
falls, and gains at most what the dirty budget has left (R223); horizons, bindings and every other window stay. -/
def Obligations.GrantsStayWithinBuffer : Prop :=
  ∀ (d : Dev) (w : Nat), Tab.wf d.net.wins = true → d.grantsFit →
    (d.advanceLimit w).grantsFit ∧ (d.win w).limit ≤ ((d.advanceLimit w).win w).limit ∧
    ((d.advanceLimit w).win w).horizon = (d.win w).horizon ∧ ((d.advanceLimit w).win w).state = (d.win w).state ∧
    (∀ v, v ≠ w → (d.advanceLimit w).win v = d.win v) ∧ Tab.wf (d.advanceLimit w).net.wins = true ∧
    ((d.advanceLimit w).win w).limit - (d.win w).limit ≤ d.budget - d.dirty

/-- CM_RTU moves a queue pair from RTR to RTS and no other; a queue pair in any other state stays (R103). -/
def Obligations.RtuCompletesConnection : Prop :=
  ∀ (s : State) (q : Nat), s.dev.up = true →
    ((s.dev.qp q).state = .rtr → ∃ x : Dev, exec (.cmRtu q) s = s.ends x ∧ x.qp q = { s.dev.qp q with state := .rts } ∧
      (∀ k, k ≠ q → x.qp k = s.dev.qp k) ∧ x.regs = s.dev.regs ∧ x.net.wins = s.dev.net.wins ∧ s.dev.dataKept x) ∧
    ((s.dev.qp q).state ≠ .rtr → exec (.cmRtu q) s = s.ends s.dev)

/-! ### NVMe -/

/-- NVME_FLUSH with Mirror in effect, or with no dirty slot of the namespace, completes at once with success and counts (R54, R146);
to a namespace that the head does not serve it answers the status that says why, and counts nothing. -/
def Obligations.FlushCompletes : Prop :=
  ∀ (s : State) (h : NvHdr), s.dev.up = true → s.dev.fetches h = true →
    ((h.nsid = 0xFFFFFFFF ∨ s.dev.plainStatus h.nsid = nvOk) → (s.dev.mode 1 = true ∨ s.dev.slotsOf h.nsid = []) →
      exec (.nvmeFlush h) s = s.ends ((s.dev.bump F.NVQ_flushes).nvAnswer h 0x00 false nvOk)) ∧
    (h.nsid ≠ 0xFFFFFFFF → s.dev.plainStatus h.nsid ≠ nvOk →
      exec (.nvmeFlush h) s = s.ends (s.dev.nvAnswer h 0x00 false (s.dev.plainStatus h.nsid)))

/-- READ_EPOCH_DIGEST (R163) of a Cairn that a namespace of this head alone keeps no record of answers that it is not available; of a namespace the image
does not hold, that the namespace is invalid. -/
def Obligations.DigestNotKept : Prop :=
  ∀ (s : State) (h : NvHdr) (cairn : Nat) (buf : NvBuf), s.dev.up = true → s.dev.fetches h = true →
    ((s.dev.img.ns? h.nsid).isNone = true →
      exec (.readEpochDigest h cairn false buf) s = s.ends (s.dev.nvAnswer h 0xC2 true nvBadNs)) ∧
    ((s.dev.img.ns? h.nsid).isSome = true → (s.dev.ns h.nsid).foreign = false → Tab.find? cairn (s.dev.ns h.nsid).cairns = none →
      exec (.readEpochDigest h cairn false buf) s = s.ends (s.dev.nvAnswer h 0xC2 true nvNoCairn))

/-! ### Ciphers and keys -/

/-- The stream modes of the cipher service (CTR, CFB-128, OFB, GCM) undo themselves (R211): from one context, decrypting what
encrypting gave answers the data, octet for octet, and leaves the context that encrypting left. -/
def Obligations.StreamModesInvert : Prop :=
  ∀ (c : CipherCtx) (data : Bytes), c.mode ≠ 1 →
    cipherRun false c (cipherRun true c data).1 = (data, (cipherRun true c data).2)

/-- CIP_ZEROIZE (R215, R216): root key, share, master, cached keys and every host cipher context are gone, zeroized reads 1 and
keys_loaded 0, the cause is the pulse's; a load under way ends with result 8; no stored data, namespace, image, pin or queue pair
changes. -/
def Obligations.ZeroizePulse : Prop :=
  ∀ s : State, s.dev.takes 10 = true → ∃ x : Dev, exec .cipZeroize s = s.ends x ∧ x.keysGone ∧ x.cip.loading = false ∧
    x.get F.CIP_STAT_last_alarm = 8 ∧ (s.dev.cip.loading = true → x.get F.CIP_SHARE_RES_result = 8) ∧
    (s.dev.cip.loading = false → x.get F.CIP_SHARE_RES_result = s.dev.get F.CIP_SHARE_RES_result) ∧
    s.dev.dataKept x ∧ x.sim = s.dev.sim ∧ x.pins = s.dev.pins ∧ x.net = s.dev.net ∧ x.nv = s.dev.nv ∧
    x.cip.recordedKcv = s.dev.cip.recordedKcv ∧ Tab.has 8 x.int.set = true

/-- SHARE_LOAD (R202): CIP_SHARE_RES reads 6, busy, from the pulse; a pulse while a load is under way is ignored, counted and
recorded, and the load under way goes on. -/
def Obligations.ShareLoadBusy : Prop :=
  ∀ s : State, s.dev.takes 10 = true →
    (s.dev.cip.loading = false → ∃ x : Dev, exec .shareLoad s = s.ends x ∧ x.cip = { s.dev.cip with loading := true } ∧
      x.get F.CIP_SHARE_RES_result = 6 ∧ s.dev.regsKept x [F.CIP_SHARE_RES_result]) ∧
    (s.dev.cip.loading = true → ∃ x : Dev, exec .shareLoad s = s.ends x ∧ x.cip = s.dev.cip ∧
      x.get F.CIP_share_refusals = (s.dev.get F.CIP_share_refusals + 1) % 2 ^ 64 ∧
      s.dev.regsKept x (F.CIP_share_refusals :: eventRegs))

/-! ### Staging, stripes, pools -/

/-- The dirty budget (R222): it is reached when less than 64 MiB of it is left, stays reached until 128 MiB are left, and
budget_reached says so; above it, over_budget reads 1 (R226). (That nothing is held over from before a start's first judgement is the
model's reading.) -/
def Obligations.BudgetHysteresis : Prop :=
  ∀ d : Dev,
    (d.budget < d.dirty + 64 * 2 ^ 20 → d.settleReached.stg.budgetReached = true) ∧
    (d.dirty + 128 * 2 ^ 20 ≤ d.budget → d.settleReached.stg.budgetReached = false) ∧
    (d.dirty + 64 * 2 ^ 20 ≤ d.budget → d.budget < d.dirty + 128 * 2 ^ 20 → d.stg.judged = true →
      d.settleReached.stg.budgetReached = d.stg.budgetReached) ∧
    d.settleReached.get F.STG_STAT_budget_reached = b2n d.settleReached.stg.budgetReached ∧
    d.settleReached.get F.STG_STAT_over_budget = b2n (decide (d.budget < d.dirty)) ∧
    d.settleReached.stg.slots = d.stg.slots

/-- P repairs a stripe (R273): with members of one length, the octet-wise sum of P and all members but one is that one. -/
def Obligations.ParityRepairs : Prop :=
  ∀ (before after : List Bytes) (m : Bytes), (∀ x ∈ before ++ after, x.length = m.length) → m ≠ [] →
    (before ++ after).foldl xorBytes (parityBytes 0 (before ++ [m] ++ after)) = m

/-- Overlaps at a close (R300): of the versions of one block in an epoch the survivor has the highest write identity, and every
block written has one. The order is stream, then sequence, then block (R176), a strict total order. -/
def Obligations.SurvivorIsHighest : Prop :=
  ∀ l : List EpochBlock, Tab.wf (survivors l) = true ∧
    (∀ k x, Tab.find? k (survivors l) = some x → x ∈ l ∧ x.lba = k) ∧
    (∀ b ∈ l, ∃ x, Tab.find? b.lba (survivors l) = some x ∧ x.lba = b.lba ∧ identityLt x.wid b.wid = false) ∧
    (∀ a b : WriteId, identityLt a b = true ↔ a.stream < b.stream ∨ (a.stream = b.stream ∧ (a.seq < b.seq ∨ (a.seq = b.seq ∧ a.block < b.block)))) ∧
    (∀ a b : WriteId, identityLt a b = false → identityLt b a = false → a = b)

/-- SNP_RETAIN and SNP_RELEASE answer in result (R307, R308): 1 retained or released, 2 a limit is met, 3 not the latest closed
Cairn of a namespace of this head, or not retained, 4 a Caravan holds it; a result other than 1 changes nothing else. -/
def Obligations.RetainResults : Prop :=
  ∀ s : State, s.dev.takes 15 = true →
    (∃ x : Dev, exec .snpRetain s = s.ends x ∧
      let n := s.dev.get F.SNP_NS_SEL_nsid
      let k := s.dev.get F.SNP_RET_CAIRN_cairn
      let held := (s.dev.ns n).retained.contains k && !(s.dev.ns n).releasing.contains k
      (held = true → x = s.dev.set F.SNP_RET_CTL_result 1) ∧
      (held = false → (k = 0 ∨ k ≠ (s.dev.ns n).closed ∨ s.dev.owns (s.dev.poolOf n) = false) →
        x = s.dev.set F.SNP_RET_CTL_result 3) ∧
      (held = false → k ≠ 0 → k = (s.dev.ns n).closed → s.dev.owns (s.dev.poolOf n) = true → s.dev.retainFull n = true →
        x = s.dev.set F.SNP_RET_CTL_result 2) ∧
      (held = false → k ≠ 0 → k = (s.dev.ns n).closed → s.dev.owns (s.dev.poolOf n) = true → s.dev.retainFull n = false →
        x.get F.SNP_RET_CTL_result = 1)) ∧
    (∃ x : Dev, exec .snpRelease s = s.ends x ∧
      let n := s.dev.get F.SNP_NS_SEL_nsid
      let k := s.dev.get F.SNP_RET_CAIRN_cairn
      ((s.dev.ns n).retained.contains k = false → x = s.dev.set F.SNP_RET_CTL_result 3) ∧
      ((s.dev.ns n).retained.contains k = true → s.dev.heldByCaravan n k = true → x = s.dev.set F.SNP_RET_CTL_result 4) ∧
      ((s.dev.ns n).retained.contains k = true → s.dev.heldByCaravan n k = false →
        x.get F.SNP_RET_CTL_result = 1 ∧ x.ns n = (s.dev.ns n).letGo k ∧ (∀ m, m ≠ n → x.ns m = s.dev.ns m) ∧
        s.dev.regsKept x [F.SNP_RET_CTL_result] ∧ x.stg = s.dev.stg ∧ x.fl = s.dev.fl))

/-- The wear placement loop in auto (R374): V halves where the spread has just passed three quarters of WL_SPREAD, doubles where it
has just fallen below a quarter, within the loop's bounds, and otherwise stays. -/
def Obligations.WearLoopSteps : Prop :=
  ∀ (d : Dev) (p : PoolRec), d.loopPinned 3 = false → 0 ≤ d.loopLower 3 → d.loopLower 3 ≤ d.loopUpper 3 →
    let q := d.pool p.poolId
    let spread := q.peMax - q.peMin (d.poolGood p)
    let limit := d.get F.FTL_CFG_wl_spread
    let v := ((d.wearLoop p).pool p.poolId).wlV
    (limit * 3 < spread * 4 → q.wlZone ≠ 2 →
      (v : Int) = min (d.loopUpper 3) (max (d.loopLower 3) (Int.ofNat (q.wlV / 2)))) ∧
    (spread * 4 < limit → q.wlZone ≠ 0 → (v : Int) = min (d.loopUpper 3) (max (d.loopLower 3) (Int.ofNat (q.wlV * 2)))) ∧
    (limit ≤ spread * 4 → spread * 4 ≤ limit * 3 → v = q.wlV) ∧
    (d.loopLower 3 ≤ (q.wlV : Int) → (q.wlV : Int) ≤ d.loopUpper 3 → d.loopLower 3 ≤ (v : Int) ∧ (v : Int) ≤ d.loopUpper 3) ∧
    (∀ r, r ≠ p.poolId → (d.wearLoop p).pool r = d.pool r) ∧ (d.wearLoop p).regs = d.regs

/-! ### Flash -/

/-- VRELEN_FRAME on an active lane that fails its CRC or is out of order is discarded (R322): one nak names the sequence number
expected, once per gap, and nothing else changes. -/
def Obligations.FrameOutOfOrder : Prop :=
  ∀ (s : State) (f : FrameFlit), s.dev.up = true → (s.dev.lane f.lane.val).active = true →
    (f.crcOk = false ∨ f.fseq ≠ (s.dev.lane f.lane.val).rxFseq) →
    ((s.dev.lane f.lane.val).naked = true → exec (.vrelenFrame f) s = s.ends s.dev) ∧
    ((s.dev.lane f.lane.val).naked = false → exec (.vrelenFrame f) s = s.ends
      ((s.dev.onLane f.lane.val (fun x => { x with naked := true })).emit (.laneAck f.lane.val (s.dev.lane f.lane.val).rxFseq true)))

/-- A descriptor goes out only while a command credit is held, program data only while data credits for it rounded up to 1 KiB are
held (R324): otherwise nothing is sent and the command waits behind those before it. -/
def Obligations.CreditsGateCommands : Prop :=
  ∀ (d : Dev) (lane : Nat) (c : BCmd) (data : Bytes),
    ((d.lane lane).cmdCredits = 0 ∨ (c.op = .program ∧ 1024 * (d.lane lane).dataCredits < data.length) ∨ (d.lane lane).held ≠ []) →
    (d.bridgeSend lane c data).out = d.out ∧
    ((d.bridgeSend lane c data).lane lane).held = (d.lane lane).held ++ [{ c with data := data }] ∧
    ((d.bridgeSend lane c data).lane lane).cmds = (d.lane lane).cmds

/-- The read-retry ladder (R341): a read that did not decode is made once more, then climbs one entry at a time to 16 and the soft
read at 17, and then gives up; and the entry remembered for the soft read is one that left no more unsatisfied checks than the read
just answered. -/
def Obligations.LadderClimbs : Prop :=
  ∀ (c : BCmd) (unsat : Nat),
    (c.depth = 0 → c.again = false → ∃ n, nextRung c unsat = some n ∧ n.depth = 0 ∧ n.again = true) ∧
    (c.depth = 0 → c.again = true → ∃ n, nextRung c unsat = some n ∧ n.depth = 1) ∧
    (1 ≤ c.depth → c.depth ≤ 16 → ∃ n, nextRung c unsat = some n ∧ n.depth = c.depth + 1 ∧
      (∃ u, n.bestUnsat = some u ∧ u ≤ unsat ∧ (∀ b, c.bestUnsat = some b → u ≤ b)) ∧
      (n.bestDepth = c.depth ∨ n.bestDepth = c.bestDepth)) ∧
    (17 ≤ c.depth → nextRung c unsat = none) ∧
    (∀ n, nextRung c unsat = some n → n.op = c.op ∧ n.die = c.die ∧ n.block = c.block ∧ n.page = c.page ∧ n.use = c.use)

/-- Temperature bands (R352): at 85 °C and above hot, at 70 at least warm, at 25 at least nominal, at 0 at least cool; a die leaves a
band downward only at 3 °C below the band's lower threshold, and upward only when it reaches the next one's. -/
def Obligations.BandHysteresis : Prop :=
  ∀ (was : Nat) (t : Int), was ≤ 4 →
    let thr : Nat → Int := fun b => if b = 0 then -300 else if b = 1 then 0 else if b = 2 then 25 else if b = 3 then 70 else 85
    bandOf was t ≤ 4 ∧
    (∀ b, b ≤ 4 → was < b → thr b ≤ t → b ≤ bandOf was t) ∧
    (was < bandOf was t → thr (bandOf was t) ≤ t) ∧
    (bandOf was t < was → t ≤ thr (bandOf was t + 1) - 3) ∧
    (1 ≤ was → thr was - 3 < t → was ≤ bandOf was t)

/-- Program duty in auto (R396): the upper bound up to 80 °C, the lower bound from 90 °C, between the bounds and never rising with
the temperature. -/
def Obligations.DutyCurve : Prop :=
  ∀ (lower upper t u : Int), lower ≤ upper →
    (t ≤ 80 → dutyAt lower upper t = upper) ∧ (90 ≤ t → dutyAt lower upper t = lower) ∧
    lower ≤ dutyAt lower upper t ∧ dutyAt lower upper t ≤ upper ∧
    (t ≤ u → dutyAt lower upper u ≤ dutyAt lower upper t)

/-! ### Two heads -/

/-- ARB_RELEASE and ARB_HANDBACK (R262): refused with an event while Mirror is not in effect, a takeover, transfer or drain is under
way, or the head is fenced; else TRANSFER_REQ goes to the arbiter with the next sequence number. -/
def Obligations.TransferRequested : Prop :=
  ∀ s : State, s.dev.takes 13 = true →
    ((s.dev.mode 1 = false ∨ s.dev.head.phase ≠ .none ∨ s.dev.pow.drainGate = true ∨ s.dev.fenced = true) →
      exec .arbRelease s = s.ends (s.dev.event 13 .transferRefused [0]) ∧
      exec .arbHandback s = s.ends (s.dev.event 13 .transferRefused [1])) ∧
    (s.dev.mode 1 = true → s.dev.head.phase = .none → s.dev.pow.drainGate = false → s.dev.fenced = false →
      s.dev.on F.HHL_STAT_peer_in_service = true → ∀ back : Bool,
      ∃ x : Dev, exec (if back then .arbHandback else .arbRelease) s = s.ends x ∧ x.head.arbSeq = (s.dev.head.arbSeq + 1) % 2 ^ 32 ∧
        x.head.term = s.dev.head.term ∧ x.regs = s.dev.regs ∧ s.dev.dataKept x ∧ x.pow = s.dev.pow ∧
        ∃ m : ArbMsg, x.out = s.dev.out ++ [.arb m (arbOctets m)] ∧ m.typ = 4 ∧ m.handback = back ∧ m.seq = x.head.arbSeq ∧
          m.term = s.dev.head.term ∧ m.head = s.dev.headNo ∧ m.pools = s.dev.ownedMask)

/-- HEARTBEAT_TIMER (R245, R248): over a link that is up a head, fenced too, sends its term, image generation, owned pools,
Mirror request and Seal; with the link down nothing is sent and nothing changes. -/
def Obligations.HeartbeatSays : Prop :=
  ∀ s : State, s.dev.up = true →
    (s.dev.on F.HHL_STAT_link_up = false → exec .heartbeatTimer s = s.ends s.dev) ∧
    (s.dev.on F.HHL_STAT_link_up = true → ∃ x : Dev, exec .heartbeatTimer s = s.ends x ∧
      x.head.txLseq = (s.dev.head.txLseq + 1) % 2 ^ 32 ∧
      ∃ (c : Nat) (h : Heartbeat) (o : Option Bytes), x.out = s.dev.out ++ [.peer x.head.txLseq c (.heartbeat h) o] ∧ h.term = s.dev.head.term ∧
        h.generation = s.dev.img.generation ∧ h.pools = s.dev.ownedMask ∧ h.mirrorReq = s.dev.mirrorReq ∧ h.sealOn = s.dev.mode 3)

/-- R466: where both heads present the same head number in training, the link stays down, and an event is recorded. -/
def Obligations.SameHeadNumber : Prop :=
  ∀ (s : State) (lane : Fin 24), s.dev.up = true →
    ∃ x : Dev, exec (.pengenkoLaneRetrain lane true true) s = s.ends (x.event 12 .headNumberClash) ∧ x.head.lanes = [] ∧
      (x.event 12 .headNumberClash).get F.HHL_STAT_link_up = 0 ∧ (x.event 12 .headNumberClash).get F.HHL_STAT_lanes_up = 0 ∧
      s.dev.dataKept x

/-! ### Power, firmware, pins -/

/-- PWR_FAIL_N low for less than 200 ns is ignored and counted (R407); from 200 ns on a head in service parks with its drain done, and
one that is in ROM recovery or latched parks without. -/
def Obligations.PowerFailPulse : Prop :=
  ∀ (s : State) (lowNs : Nat) (fate : DrainFate),
    (lowNs < 200 → exec (.pwrFailNFall lowNs fate) s = s.ends (s.dev.bump F.RST_pwr_fail_glitches)) ∧
    (200 ≤ lowNs → ∃ x : Dev, exec (.pwrFailNFall lowNs fate) s = s.ends x ∧
      (s.dev.pow.run = .up → x.pow.run = .parked ∧ x.pow.drain.isSome = true ∧ x.get F.RST_STAT_drain_state = 4) ∧
      (s.dev.pow.run = .rom ∨ s.dev.pow.run = .latched → x.pow.run = .parked ∧ x.pow.drain = s.dev.pow.drain ∧ s.dev.dataKept x ∧
        s.dev.regsKept x [F.RST_pwr_fail_events]) ∧
      (s.dev.pow.run = .off ∨ s.dev.pow.run = .parked → x.pow = s.dev.pow ∧ s.dev.dataKept x ∧
        s.dev.regsKept x [F.RST_pwr_fail_events]))

/-- L3_REQ (R406): refused, with the reason in RST_L3_RES and an event, while ownership moves, a pool is owned, a Caravan or job is
in progress or the conditions of PS3 do not hold; else the entry begins and result reads 1. -/
def Obligations.L3Request : Prop :=
  ∀ s : State, s.dev.takes 1 = true →
    (s.dev.l3Refusal ≠ 0 → ∃ x : Dev, exec .l3Req s = s.ends x ∧ x.get F.RST_L3_RES_result = s.dev.l3Refusal ∧ x.nv = s.dev.nv ∧
      s.dev.regsKept x (F.RST_L3_RES_result :: eventRegs)) ∧
    (s.dev.l3Refusal = 0 → ∃ x : Dev, exec .l3Req s = s.ends x ∧ x.get F.RST_L3_RES_result = 1 ∧ x.nv.entering = some 4 ∧
      s.dev.regsKept x [F.NVQ_PS_entering, F.RST_L3_RES_result] ∧ s.dev.dataKept x ∧ x.pow = s.dev.pow ∧ x.out = s.dev.out) ∧
    (s.dev.ownedMask ≠ 0 → s.dev.l3Refusal ≠ 0) ∧ (s.dev.ownershipBusy = true → s.dev.l3Refusal ≠ 0)

/-- FWU_FUSE (R449): in recovery a blank owner hash takes the first 48 octets of the source and a blank K_fuse the first 32; a field
that is not blank keeps its value and refuses with 0x0C; outside recovery no fuse changes. -/
def Obligations.FuseBurnedOnce : Prop :=
  ∀ (s : State) (area : Bytes), s.dev.takes 21 = true → s.dev.on F.FWU_SRC_source = false →
    (s.dev.pow.run = .rom → s.fuses.ownerHash = none →
      exec (.programOwner area) s = s.endsF { s.fuses with ownerHash := some (sliceZ area 0 48) } s.dev) ∧
    (s.dev.pow.run = .rom → s.fuses.kFuse = none →
      exec (.programKfuse area) s = s.endsF { s.fuses with kFuse := some (sliceZ area 0 32) } s.dev) ∧
    (s.dev.pow.run = .rom → s.fuses.ownerHash ≠ none →
      exec (.programOwner area) s = s.endsF s.fuses (s.dev.set F.FWU_STAT_result 0x0C)) ∧
    (s.dev.pow.run = .rom → s.fuses.kFuse ≠ none →
      exec (.programKfuse area) s = s.endsF s.fuses (s.dev.set F.FWU_STAT_result 0x0C)) ∧
    (s.dev.pow.run ≠ .rom → exec (.programOwner area) s = s.endsF s.fuses s.dev ∧ exec (.programKfuse area) s = s.endsF s.fuses s.dev)

/-- TRIAL_PASSED (R442, R445): in a trial the fused minimum becomes the larger of what it was and the running firmware's, result 0x11
stands, and the running slot is active; outside a trial nothing changes. -/
def Obligations.TrialRaisesMinimum : Prop :=
  ∀ s : State,
    (s.dev.get F.FWU_STAT_state = 6 → ∃ x : Dev, exec .trialPassed s = s.endsF
        { s.fuses with minSecurity := max s.fuses.minSecurity (fwSecurityOf (s.dev.boot.slot s.dev.runSlot).bytes) } x ∧
      x.get F.FWU_STAT_result = 0x11 ∧ x.get F.FWU_STAT_state = 0 ∧ (x.boot.slot s.dev.runSlot).state = .active ∧
      (x.boot.slot (1 - s.dev.runSlot)).state = .valid ∧ s.dev.dataKept x ∧
      s.dev.regsKept x (F.FWU_STAT_result :: F.FWU_STAT_state :: F.HHL_tx_packets :: eventRegs)) ∧
    (s.dev.get F.FWU_STAT_state ≠ 6 → exec .trialPassed s = s.endsF s.fuses s.dev)

/-- R462: port Pn uses network serdes 8n to 8n + 7; under split s, sub-port Pn.m uses serdes 8n + m × 2^(3−s) through
8n + (m + 1) × 2^(3−s) − 1, and a 400GbE sub-port P2.1 serdes 20 to 23. -/
def Obligations.SubPortSerdes : Prop :=
  (∀ port split m x : Nat, split ≤ 3 → (x ∈ subPortSerdes port split m ↔
    8 * port + m * 2 ^ (3 - split) ≤ x ∧ x ≤ 8 * port + (m + 1) * 2 ^ (3 - split) - 1)) ∧
  (∀ port split x : Nat, split ≤ 3 → ((∃ m, m < 2 ^ split ∧ x ∈ subPortSerdes port split m) ↔ 8 * port ≤ x ∧ x ≤ 8 * port + 7)) ∧
  subPortSerdes 2 1 1 = [20, 21, 22, 23]

/-! ### Every command completes -/

/-- Every register access of BAR0, and every action of the SYS, SIM, IPT, TMB, RDM, CIP, STG and ARB blocks, answers the next state that
its operation on the registers gives. Where the head does not serve the command now, it changes nothing. -/
def Obligations.RegisterCommandsComplete : Prop :=
  ∀ s : State,
    (∀ (a : RegAccess), exec (.regWrite a) s = s.endsF (barFuses s.fuses s.dev a) (s.dev.barWrite s.fuses a)) ∧
    (∀ (write : Bool) (off len : Nat), exec (.malformedAccess write off len) s = s.ends (s.dev.malformedAccess write off len)) ∧
    (∀ (off val : Nat), exec (.regWrite64Half off val) s =
      s.endsF (barFuses s.fuses s.dev { off := off, len := 4, val := val }) (s.dev.barWrite s.fuses { off := off, len := 4, val := val })) ∧
    (∀ (off val : Nat), exec (.bitAliasWrite off val) s =
      s.endsF (barFuses s.fuses s.dev { off := off, len := 4, val := val }) (s.dev.barWrite s.fuses { off := off, len := 4, val := val })) ∧
    (∀ (off val : Nat), exec (.scWriteBack off val) s =
      s.endsF (barFuses s.fuses s.dev { off := off, len := 4, val := val }) (s.dev.barWrite s.fuses { off := off, len := 4, val := val })) ∧
    (∀ (val : Nat), exec (.sysModeReqWrite val) s =
      s.ends (if s.dev.takes 0 = true then s.dev.writeReg s.fuses 0 F.SYS_MODE_REQ_capture.off (val % 2 ^ 32) else s.dev)) ∧
    (exec .reshapeCancel s = s.ends (if s.dev.takes 0 = true then s.dev.reshapeCancel else s.dev)) ∧
    (∀ (region : Bytes), exec (.simSubmit region) s = s.ends (if s.dev.takes 22 = true then s.dev.simSubmit region else s.dev)) ∧
    (exec .imageValidationDone s = s.ends (if s.dev.up = true then s.dev.validationDone s.fuses else s.dev)) ∧
    (∀ (ok : Bool), exec (.stagedCopyWritten ok) s = s.ends (if s.dev.up = true then s.dev.stagedWritten ok else s.dev)) ∧
    (∀ (stateWordOk : Bool), exec (.simActivate stateWordOk) s =
      s.ends (if s.dev.takes 22 = true then s.dev.simActivate stateWordOk else s.dev)) ∧
    (exec .activationWaitEvent s = s.ends (if s.dev.up = true then s.dev.activationWait else s.dev)) ∧
    (exec .simDiscard s = s.ends (if s.dev.takes 22 = true then s.dev.simDiscard else s.dev)) ∧
    (∀ (ch : Fin 8) (amount : Nat), exec (.slotAdjApply ch amount) s =
      s.ends (if s.dev.takes 4 = true then s.dev.slotAdj ch.val amount else s.dev)) ∧
    (∀ (ch : Fin 8), exec (.histClear ch) s = s.ends (if s.dev.takes 4 = true then s.dev.histClear ch.val else s.dev)) ∧
    (exec .secSetApply s = s.ends (if s.dev.takes 5 = true then s.dev.secSetApply else s.dev)) ∧
    (exec .qpToError s = s.ends (if s.dev.takes 7 = true then s.dev.qpToError else s.dev)) ∧
    (exec .winRevoke s = s.ends (if s.dev.takes 7 = true then s.dev.winRevoke else s.dev)) ∧
    (exec .winReopen s = s.ends (if s.dev.takes 7 = true then s.dev.winReopen else s.dev)) ∧
    (exec .cipZeroize s = s.ends (if s.dev.takes 10 = true then s.dev.zeroize 8 else s.dev)) ∧
    (exec .shareLoad s = s.ends (if s.dev.takes 10 = true then s.dev.shareBegin else s.dev)) ∧
    (∀ (data : Bytes) (fault : Bool), exec (.shareLoadDone data fault) s =
      s.ends (if s.dev.up = true then s.dev.shareDone s.fuses data fault else s.dev)) ∧
    (∀ (enable : Bool), exec (.scEnableWrite enable) s = s.ends (if s.dev.takes 11 = true then s.dev.scEnable enable else s.dev)) ∧
    (exec .scInvalidate s = s.ends (if s.dev.takes 11 = true then s.dev.scInvalidate else s.dev)) ∧
    (exec .scWriteback s = s.ends (if s.dev.takes 11 = true then s.dev.scWriteback else s.dev)) ∧
    (exec .scWritebackComplete s = s.ends (if s.dev.up = true then s.dev.scWritebackDone else s.dev)) ∧
    (exec .arbRelease s = s.ends (if s.dev.takes 13 = true then s.dev.transferReq false else s.dev)) ∧
    (exec .arbHandback s = s.ends (if s.dev.takes 13 = true then s.dev.transferReq true else s.dev)) ∧
    (∀ (lane : Fin 64), exec (.laneRetrain lane) s = s.ends (if s.dev.takes 16 = true then s.dev.trainLane lane.val else s.dev))

/-- Every action of the FLX, SNP, RST, SYS configuration, FWU, EVR, CNT, TRC, RED and CIP ring registers answers the next state that its
operation gives. Where the head does not serve the command now, it changes nothing. -/
def Obligations.ControlCommandsComplete : Prop :=
  ∀ s : State,
    (exec .snpRetain s = s.ends (if s.dev.takes 15 = true then s.dev.snpRetain else s.dev)) ∧
    (exec .snpRelease s = s.ends (if s.dev.takes 15 = true then s.dev.snpRelease else s.dev)) ∧
    (exec .skipLost s = s.ends (if s.dev.takes 15 = true then s.dev.skipLost else s.dev)) ∧
    (exec .caravanRestart s = s.ends (if s.dev.takes 15 = true then s.dev.carRestart else s.dev)) ∧
    (exec .caravanMakeFull s = s.ends (if s.dev.takes 15 = true then s.dev.carFull else s.dev)) ∧
    (exec .warmResetPulse s = s.ends (if s.dev.takes 1 = true then s.dev.warmPulse else s.dev)) ∧
    (exec .l3Req s = s.ends (if s.dev.takes 1 = true then s.dev.l3Request else s.dev)) ∧
    (exec .cfgCommit s = s.ends (if s.dev.takes 0 = true then s.dev.cfgCommit else s.dev)) ∧
    (exec .cfgAcceptAll s = s.ends (if s.dev.takes 0 = true then s.dev.cfgAcceptAll else s.dev)) ∧
    (exec .cfgReapply s = s.ends (if s.dev.takes 0 = true then s.dev.cfgReapply else s.dev)) ∧
    (∀ (data : Bytes), exec (.fwuChunk data) s = s.ends (if s.dev.takes 21 = true then s.dev.fwuChunk s.fuses data else s.dev)) ∧
    (∀ (ok : Bool), exec (.fwuWriteDone ok) s = s.ends (s.dev.fwuWritten s.fuses ok)) ∧
    (exec .fwuCommit s = s.ends (if s.dev.takes 21 = true then s.dev.fwuCommit s.fuses else s.dev)) ∧
    (exec .fwuAbort s = s.ends (if s.dev.takes 21 = true then s.dev.fwuAbort s.fuses else s.dev)) ∧
    (∀ (source : Bytes), exec (.programOwner source) s =
      s.endsF (if s.dev.takes 21 then fusePulses s.fuses s.dev 1 source else s.fuses) (if s.dev.takes 21 then s.dev.fusePulsed s.fuses 1 source else s.dev)) ∧
    (∀ (source : Bytes), exec (.programKfuse source) s =
      s.endsF (if s.dev.takes 21 then fusePulses s.fuses s.dev 2 source else s.fuses) (if s.dev.takes 21 then s.dev.fusePulsed s.fuses 2 source else s.dev)) ∧
    (exec .evrFlush s = s.ends (if s.dev.takes 18 = true then s.dev.evrFlush else s.dev)) ∧
    (∀ (key : Nat), exec (.evrClear key) s = s.ends (if s.dev.takes 18 = true then s.dev.evrClear key else s.dev)) ∧
    (exec .evrClearDone s = s.ends (s.dev.evrClearDone)) ∧
    (∀ (index : Nat), exec (.evrRdIdxWrite index) s = s.ends (if s.dev.takes 18 = true then s.dev.evrIndex index else s.dev)) ∧
    (exec .evrRecordFetched s = s.ends (s.dev.evrFetched)) ∧
    (∀ (counter : Fin 256) (val : Nat), exec (.cntSelWrite counter val) s =
      s.ends (if s.dev.takes 19 = true then s.dev.cntSelect counter.val val else s.dev)) ∧
    (exec .cntClearAll s = s.ends (if s.dev.takes 19 = true then s.dev.cntClear else s.dev)) ∧
    (exec .trcClear s = s.ends (if s.dev.takes 20 = true then s.dev.trcClear else s.dev)) ∧
    (∀ (ring : Fin 4) (tail : Nat) (fetched : List Bool), exec (.redSqTailWrite ring tail fetched) s =
      s.ends (if s.dev.takes 9 = true then s.dev.sqTail false ring.val tail fetched else s.dev)) ∧
    (∀ (ring : Fin 4) (head : Nat) (fetched : List Bool), exec (.redCqHeadWrite ring head fetched) s =
      s.ends (if s.dev.takes 9 = true then s.dev.cqHead false ring.val head fetched else s.dev)) ∧
    (∀ (ring : Fin 4) (val : Nat), exec (.redRingEnableWrite ring val) s =
      s.ends (if s.dev.takes 9 = true then s.dev.writeReg s.fuses 9 (F.RED_RING_CFG_enable.at ring.val).off (val % 2 ^ 32) else s.dev)) ∧
    (∀ (ring : Fin 2) (tail : Nat) (fetched : List Bool), exec (.cipSqTailWrite ring tail fetched) s =
      s.ends (if s.dev.takes 10 = true then s.dev.sqTail true ring.val tail fetched else s.dev)) ∧
    (∀ (ring : Fin 2) (head : Nat) (fetched : List Bool), exec (.cipCqHeadWrite ring head fetched) s =
      s.ends (if s.dev.takes 10 = true then s.dev.cqHead true ring.val head fetched else s.dev)) ∧
    (∀ (ring : Fin 2) (val : Nat), exec (.cipRingEnableWrite ring val) s =
      s.ends (if s.dev.takes 10 = true then s.dev.writeReg s.fuses 10 (F.CIP_RING_CFG_enable.at ring.val).off (val % 2 ^ 32) else s.dev))

/-- Every strobe, trigger, reference and TIME command answers the next state that its operation gives. Where the head does not serve the
command now, it changes nothing. -/
def Obligations.InstrumentCommandsComplete : Prop :=
  ∀ s : State,
    (∀ (ch : Fin 8) (stamp width : Nat), exec (.strobe ch stamp width) s =
      s.ends (if s.dev.up = true then s.dev.strobe ch.val stamp width else s.dev)) ∧
    (∀ (ch : Fin 8) (num : Nat), exec (.strobeLateLimit ch num) s =
      s.ends (if s.dev.up = true then s.dev.strobeLate ch.val num else s.dev)) ∧
    (∀ (ch : Fin 8) (num : Nat), exec (.completionLateLimit ch num) s =
      s.ends (if s.dev.up = true then s.dev.completionLate ch.val num else s.dev)) ∧
    (∀ (khz : Nat), exec (.ipclkMeasurement khz) s = s.ends (if s.dev.up = true then s.dev.ipclkMeasured khz else s.dev)) ∧
    (exec .ipclkStopped s = s.ends (if s.dev.up = true then s.dev.ipclkStopped else s.dev)) ∧
    (exec .ipclkInTolerance s = s.ends (if s.dev.up = true then s.dev.set F.IPT_STAT_ipclk_ok 1 else s.dev)) ∧
    (∀ (trig : Fin 4), exec (.trigPulse trig) s = s.ends (if s.dev.up = true then s.dev.trigPulse trig.val else s.dev)) ∧
    (∀ (offset : Int), exec (.ppsInEdge offset) s = s.ends (if s.dev.up = true then s.dev.ppsEdge offset else s.dev)) ∧
    (∀ (m : PtpSync), exec (.ptpSync m) s = s.ends (if s.dev.up = true then s.dev.ptpSync m else s.dev)) ∧
    (exec .ptpSyncTimeout s = s.ends (if s.dev.up = true then s.dev.referenceLost 1 else s.dev)) ∧
    (exec .ppsInTimeout s = s.ends (if s.dev.up = true then s.dev.referenceLost 0 else s.dev)) ∧
    (exec .ref10mLost s = s.ends (if s.dev.up = true then s.dev.referenceLost 0 else s.dev)) ∧
    (exec .holdoverExpiry s = s.ends (if s.dev.up = true then s.dev.holdoverExpiry else s.dev)) ∧
    (∀ (master : PtpMaster) (intervalNs : Nat), exec (.ptpAnnounce master intervalNs) s =
      s.ends (if s.dev.up = true then s.dev.ptpAnnounce master intervalNs else s.dev)) ∧
    (exec .timeSecond s = s.ends (if s.dev.up = true then s.dev.timeSecond else s.dev))

/-- Every packet, connection, link and network timer command answers the next state that its operation gives. Where the head does not
serve the command now, it changes nothing. -/
def Obligations.NetworkCommandsComplete : Prop :=
  ∀ s : State,
    (∀ (p : Pkt) (pos : MsgPos) (imm : Option Nat) (payload : Bytes), exec (.send p pos imm payload) s =
      s.ends (if s.dev.up = true then s.dev.receive (.send p pos imm payload) else s.dev)) ∧
    (∀ (p : Pkt) (pos : MsgPos) (reth : Option Reth) (payload : Bytes), exec (.rdmaWrite p pos reth payload) s =
      s.ends (if s.dev.up = true then s.dev.receive (.rdmaWrite p pos reth payload) else s.dev)) ∧
    (∀ (p : Pkt) (pos : MsgPos) (reth : Option Reth) (imm : Nat) (payload : Bytes), exec (.rdmaWriteWithImmediate p pos reth imm payload) s =
      s.ends (if s.dev.up = true then s.dev.receive (.rdmaWriteWithImmediate p pos reth imm payload) else s.dev)) ∧
    (∀ (p : Pkt) (reth : Reth), exec (.rdmaReadRequest p reth) s =
      s.ends (if s.dev.up = true then s.dev.receive (.rdmaReadRequest p reth) else s.dev)) ∧
    (∀ (p : Pkt) (payload : Bytes) (last error : Bool), exec (.rdmaReadResponse p payload last error) s =
      s.ends (if s.dev.up = true then s.dev.receive (.rdmaReadResponse p payload last error) else s.dev)) ∧
    (∀ (p : Pkt) (syndrome msn : Nat), exec (.acknowledge p syndrome msn) s =
      s.ends (if s.dev.up = true then s.dev.receive (.acknowledge p syndrome msn) else s.dev)) ∧
    (∀ (p : Pkt), exec (.cnp p) s = s.ends (if s.dev.up = true then s.dev.receive (.cnp p) else s.dev)) ∧
    (∀ (p : Pkt) (h : SprayHdr) (payload : Bytes), exec (.sprayWriteNotLast p h payload) s =
      s.ends (if s.dev.up = true then s.dev.receive (.sprayWriteNotLast p h payload) else s.dev)) ∧
    (∀ (p : Pkt) (h : SprayHdr) (payload : Bytes), exec (.sprayWriteLast p h payload) s =
      s.ends (if s.dev.up = true then s.dev.receive (.sprayWriteLast p h payload) else s.dev)) ∧
    (∀ (p : Pkt) (h : SprayHdr) (imm : Nat) (payload : Bytes), exec (.sprayWriteLastImmediate p h imm payload) s =
      s.ends (if s.dev.up = true then s.dev.receive (.sprayWriteLastImmediate p h imm payload) else s.dev)) ∧
    (∀ (p : Pkt) (transport : Transport) (opcode : Nat), exec (.unsupportedOpcode p transport opcode) s =
      s.ends (if s.dev.up = true then s.dev.unsupported p transport (.unsupportedOpcode p transport opcode) else s.dev)) ∧
    (∀ (port : SubPort) (prio : Fin 8) (pause : Bool), exec (.pfcFrame port prio pause) s =
      s.ends (if s.dev.up = true then s.dev.pfcFrame port prio.val pause else s.dev)) ∧
    (∀ (port : SubPort) (opens toData : Bool), exec (.tcpSegment port opens toData) s =
      s.ends (if s.dev.up = true then s.dev.tcpSegment port opens toData else s.dev)) ∧
    (∀ (r : CmReq), exec (.cmReq r) s = s.ends (if s.dev.up = true then s.dev.cmReq r else s.dev)) ∧
    (∀ (qpn peerQpn psn : Nat) (priv : Bytes), exec (.cmRep qpn peerQpn psn priv) s =
      s.ends (if s.dev.up = true then s.dev.cmRep qpn peerQpn psn priv else s.dev)) ∧
    (∀ (qpn : Nat), exec (.cmRtu qpn) s = s.ends (if s.dev.up = true then s.dev.cmRtu qpn else s.dev)) ∧
    (∀ (qpn : Nat), exec (.cmDreq qpn) s = s.ends (if s.dev.up = true then s.dev.cmDreq qpn else s.dev)) ∧
    (∀ (qpn code : Nat), exec (.cmRej qpn code) s = s.ends (if s.dev.up = true then s.dev.cmRej qpn code else s.dev)) ∧
    (∀ (port : SubPort), exec (.netLinkDown port) s = s.ends (if s.dev.up = true then s.dev.linkDown port else s.dev)) ∧
    (∀ (port : SubPort), exec (.netLinkUp port) s = s.ends (if s.dev.up = true then s.dev.linkUp port else s.dev)) ∧
    (∀ (qpn : Nat) (fault : Bool), exec (.contextFetchDone qpn fault) s =
      s.ends (if s.dev.up = true then s.dev.contextFetched qpn fault else s.dev)) ∧
    (∀ (qpn : Nat), exec (.qpResetTimeout qpn) s = s.ends (if s.dev.up = true then s.dev.qpReset qpn else s.dev)) ∧
    (∀ (qpn : Nat), exec (.ucMessageTimeout qpn) s = s.ends (if s.dev.up = true then s.dev.ucTimeout qpn else s.dev)) ∧
    (∀ (qpn : Nat), exec (.sackGapTimer qpn) s = s.ends (if s.dev.up = true then s.dev.sackGap qpn else s.dev)) ∧
    (exec .creditRefresh s = s.ends (if s.dev.up = true then s.dev.creditRefresh else s.dev)) ∧
    (∀ (qpn : Nat), exec (.requesterRetriesExhausted qpn) s = s.ends (if s.dev.up = true then s.dev.retriesOut qpn else s.dev)) ∧
    (∀ (qpn : Nat), exec (.paceRise qpn) s = s.ends (if s.dev.up = true then s.dev.paceRise qpn else s.dev)) ∧
    (∀ (qpn : Nat), exec (.retransmissionTimeout qpn) s = s.ends (if s.dev.up = true then s.dev.retransmit qpn else s.dev))

/-- Every NVMe command, connection and controller row answers the next state that its operation gives. Where the head does not serve the
command now, it changes nothing. A command of the local controller for whose completion no room can be reserved, or behind one that waits,
is not fetched: it wakes the head and waits in its queue (R383), as a Write shows. -/
def Obligations.NvmeCommandsComplete : Prop :=
  ∀ s : State,
    (∀ (h : NvHdr) (slba nlb : Nat) (fua : Bool) (data : NvData), s.dev.up = true → s.dev.fetches h = false →
      exec (.nvmeWrite h slba nlb fua data) s =
        s.ends (s.dev.wake.onNv (fun n => { n with unfetched := n.unfetched ++ [(h, .nvmeWrite h slba nlb fua data)] }))) ∧
    (∀ (h : NvHdr), s.dev.fetches h = true → exec (.nvmeFlush h) s = s.ends (if s.dev.up = true then s.dev.nvFlush h else s.dev)) ∧
    (∀ (h : NvHdr) (slba nlb : Nat) (fua : Bool) (data : NvData), s.dev.fetches h = true → exec (.nvmeWrite h slba nlb fua data) s =
      s.ends (if s.dev.up = true then s.dev.nvWrite h slba nlb fua data else s.dev)) ∧
    (∀ (h : NvHdr) (slba nlb : Nat) (_fua : Bool) (buf : NvBuf), s.dev.fetches h = true → exec (.nvmeRead h slba nlb _fua buf) s =
      s.ends (if s.dev.up = true then s.dev.nvRead h slba nlb buf else s.dev)) ∧
    (∀ (h : NvHdr) (slba nlb : Nat) (data : NvData), s.dev.fetches h = true → exec (.nvmeCompare h slba nlb data) s =
      s.ends (if s.dev.up = true then s.dev.nvCompare h slba nlb data else s.dev)) ∧
    (∀ (h : NvHdr) (slba nlb : Nat) (deac fua : Bool), s.dev.fetches h = true → exec (.nvmeWriteZeroes h slba nlb deac fua) s =
      s.ends (if s.dev.up = true then s.dev.nvWriteZeroes h slba nlb deac fua else s.dev)) ∧
    (∀ (h : NvHdr) (nr : Nat) (ad : Bool) (ranges : List DsmRange) (fault : Option DmaFault), s.dev.fetches h = true → exec (.nvmeDatasetManagement h nr ad ranges fault) s =
      s.ends (if s.dev.up = true then s.dev.nvDsm h nr ad ranges fault else s.dev)) ∧
    (∀ (h : NvHdr) (slba nlb : Nat), s.dev.fetches h = true → exec (.nvmeVerify h slba nlb) s =
      s.ends (if s.dev.up = true then s.dev.nvVerify h slba nlb else s.dev)) ∧
    (∀ (h : NvHdr) (retain waitClose : Bool), s.dev.fetches h = true → exec (.placeCairn h retain waitClose) s =
      s.ends (if s.dev.up = true then s.dev.placeCairn h retain waitClose else s.dev)) ∧
    (∀ (h : NvHdr) (qid : Nat), s.dev.fetches h = true → exec (.deleteIoSubmissionQueue h qid) s =
      s.ends (if s.dev.up = true then s.dev.deleteSq h qid else s.dev)) ∧
    (∀ (h : NvHdr) (qid : Nat), s.dev.fetches h = true → exec (.deleteIoCompletionQueue h qid) s =
      s.ends (if s.dev.up = true then s.dev.deleteCq h qid else s.dev)) ∧
    (∀ (h : NvHdr) (qid size : Nat) (contig : Bool) (cqid base : Nat), s.dev.fetches h = true → exec (.createIoSubmissionQueue h qid size contig cqid base) s =
      s.ends (if s.dev.up = true then s.dev.createSq h qid size contig cqid base else s.dev)) ∧
    (∀ (h : NvHdr) (qid size : Nat) (contig ien : Bool) (vector base : Nat), s.dev.fetches h = true → exec (.createIoCompletionQueue h qid size contig ien vector base) s =
      s.ends (if s.dev.up = true then s.dev.createCq h qid size contig ien vector base else s.dev)) ∧
    (∀ (h : NvHdr) (lid : Nat) (rae : Bool) (numd offset : Nat) (buf : NvBuf), s.dev.fetches h = true → exec (.getLogPage h lid rae numd offset buf) s =
      s.ends (if s.dev.up = true then s.dev.getLog h lid rae numd offset buf else s.dev)) ∧
    (∀ (h : NvHdr) (cns : Nat) (buf : NvBuf), s.dev.fetches h = true → exec (.identify h cns buf) s =
      s.ends (if s.dev.up = true then s.dev.identify h cns buf else s.dev)) ∧
    (∀ (h : NvHdr) (sqid target : Nat), s.dev.fetches h = true → exec (.abort h sqid target) s =
      s.ends (if s.dev.up = true then s.dev.abortCmd h sqid target else s.dev)) ∧
    (∀ (h : NvHdr) (fid : Nat) (save : Bool) (dw11 dw12 : Nat) (data : NvData), s.dev.fetches h = true → exec (.setFeatures h fid save dw11 dw12 data) s =
      s.ends (if s.dev.up = true then s.dev.setFeatures h fid save dw11 dw12 data else s.dev)) ∧
    (∀ (h : NvHdr) (fid sel dw11 : Nat) (buf : NvBuf), s.dev.fetches h = true → exec (.getFeatures h fid sel dw11 buf) s =
      s.ends (if s.dev.up = true then s.dev.getFeatures h fid sel dw11 buf else s.dev)) ∧
    (∀ (h : NvHdr), s.dev.fetches h = true → exec (.asynchronousEventRequest h) s = s.ends (if s.dev.up = true then s.dev.aer h else s.dev)) ∧
    (∀ (h : NvHdr), s.dev.fetches h = true → exec (.keepAlive h) s = s.ends (if s.dev.up = true then s.dev.keepAlive h else s.dev)) ∧
    (∀ (ctrl : Nat), exec (.keepAliveTimeout ctrl) s = s.ends (if s.dev.up = true then s.dev.katoExpired ctrl else s.dev)) ∧
    (∀ (h : NvHdr) (cairn : Nat) (latest : Bool) (buf : NvBuf), s.dev.fetches h = true → exec (.readEpochDigest h cairn latest buf) s =
      s.ends (if s.dev.up = true then s.dev.readDigest h cairn latest buf else s.dev)) ∧
    (∀ (h : NvHdr) (channel : Fin 8) (byTime : Bool) (kindMask startSeq startNs count : Nat) (buf : NvBuf), s.dev.fetches h = true → exec (.frameIndexQuery h channel byTime kindMask startSeq startNs count buf) s =
      s.ends (if s.dev.up = true then s.dev.frameQuery h channel.val byTime kindMask startSeq startNs count buf else s.dev)) ∧
    (∀ (c : ConnectArgs), exec (.fabricsConnect c) s = s.ends (if s.dev.up = true then s.dev.connect c else s.dev)) ∧
    (∀ (h : NvHdr) (off : Nat) (eight : Bool), s.dev.fetches h = true → exec (.propertyGet h off eight) s =
      s.ends (if s.dev.up = true then s.dev.propertyGet h off eight else s.dev)) ∧
    (∀ (h : NvHdr) (off : Nat) (eight : Bool) (val : Nat), s.dev.fetches h = true → exec (.propertySet h off eight val) s =
      s.ends (if s.dev.up = true then s.dev.propertySet h off eight val else s.dev)) ∧
    (∀ (h : NvHdr) (admin : Bool) (opcode : Nat), s.dev.fetches h = true → exec (.invalidCommandOpcode h admin opcode) s =
      s.ends (if s.dev.up = true then s.dev.badOpcode h admin opcode else s.dev)) ∧
    (exec .controllerReset s = s.ends (if s.dev.up = true then s.dev.controllerReset else s.dev))

/-- Every job of the reduction and cipher services that its ring has fetched, every datagram of the management port, and every stripe,
Cairn and Caravan row answers the next state that its operation gives; a job that its ring has not fetched yet waits behind those of the
ring. Where the head does not serve the command now, it changes nothing. -/
def Obligations.JobAndCairnCommandsComplete : Prop :=
  ∀ s : State,
    (∀ (j : JobArgs), s.dev.up = true → s.dev.pow.pcieUp = true → s.dev.jobRuns false j.ring.val = false →
      exec (.jobCompress j) s = s.ends (s.dev.onRed (fun x => { x with jobsHeld := x.jobsHeld ++ [.jobCompress j] }))) ∧
    (∀ (j : CipherArgs), s.dev.up = true → s.dev.pow.pcieUp = true → s.dev.jobRuns true j.ring.val = false →
      exec (.cipEncrypt j) s = s.ends (s.dev.onRed (fun x => { x with jobsHeld := x.jobsHeld ++ [.cipEncrypt j] }))) ∧
    (∀ (j : JobArgs), s.dev.up = true → s.dev.pow.pcieUp = true → s.dev.jobRuns false j.ring.val = true →
      exec (.jobCompress j) s = s.ends (s.dev.wake.jobCompress j)) ∧
    (∀ (j : JobArgs), s.dev.up = true → s.dev.pow.pcieUp = true → s.dev.jobRuns false j.ring.val = true →
      exec (.jobDecompress j) s = s.ends (s.dev.wake.jobDecompress j)) ∧
    (∀ (j : JobArgs), s.dev.up = true → s.dev.pow.pcieUp = true → s.dev.jobRuns false j.ring.val = true →
      exec (.jobFlush j) s = s.ends (s.dev.wake.jobFlush j)) ∧
    (∀ (j : JobArgs), s.dev.up = true → s.dev.pow.pcieUp = true → s.dev.jobRuns false j.ring.val = true →
      exec (.jobSaveContext j) s = s.ends (s.dev.wake.jobSave j)) ∧
    (∀ (j : JobArgs), s.dev.up = true → s.dev.pow.pcieUp = true → s.dev.jobRuns false j.ring.val = true →
      exec (.jobRestoreContext j) s = s.ends (s.dev.wake.jobRestore j)) ∧
    (∀ (j : CipherArgs), s.dev.up = true → s.dev.pow.pcieUp = true → s.dev.jobRuns true j.ring.val = true →
      exec (.cipEncrypt j) s = s.ends (s.dev.wake.cipherJob j (fun d => d.cipherData j true))) ∧
    (∀ (j : CipherArgs), s.dev.up = true → s.dev.pow.pcieUp = true → s.dev.jobRuns true j.ring.val = true →
      exec (.cipDecrypt j) s = s.ends (s.dev.wake.cipherJob j (fun d => d.cipherData j false))) ∧
    (∀ (j : CipherArgs), s.dev.up = true → s.dev.pow.pcieUp = true → s.dev.jobRuns true j.ring.val = true →
      exec (.cipLoadKey j) s = s.ends (s.dev.wake.cipherJob j (fun d => d.cipherLoad j))) ∧
    (∀ (j : CipherArgs), s.dev.up = true → s.dev.pow.pcieUp = true → s.dev.jobRuns true j.ring.val = true →
      exec (.cipSaveContext j) s = s.ends (s.dev.wake.cipherJob j (fun d => d.cipherSave j))) ∧
    (∀ (j : CipherArgs), s.dev.up = true → s.dev.pow.pcieUp = true → s.dev.jobRuns true j.ring.val = true →
      exec (.cipRestoreContext j) s = s.ends (s.dev.wake.cipherJob j (fun d => d.cipherRestore j))) ∧
    (∀ (h : MgmtHdr), exec (.mgmtHello h) s = s.ends (s.dev.mgmtHello s.fuses h)) ∧
    (∀ (h : MgmtHdr), exec (.mgmtRegRead h) s = s.ends (s.dev.mgmtRegRead s.fuses h)) ∧
    (∀ (h : MgmtHdr) (payload : Bytes), exec (.mgmtRegWrite h payload) s =
      s.endsF (mgmtWriteFuses s.fuses s.dev h payload) (s.dev.mgmtRegWrite s.fuses h payload)) ∧
    (∀ (h : MgmtHdr) (payload : Bytes), exec (.mgmtBufWrite h payload) s = s.ends (s.dev.mgmtBufWrite s.fuses h payload)) ∧
    (∀ (pool seq : Nat), exec (.stripeFillTimeout pool seq) s =
      s.ends (if s.dev.up = true then s.dev.stripeFillTimeout pool seq else s.dev)) ∧
    (∀ (pool seq : Nat), exec (.parityComplete pool seq) s = s.ends (if s.dev.up = true then s.dev.parityDone pool seq else s.dev)) ∧
    (∀ (pool : Nat), exec (.journalPageTimer pool) s =
      s.ends (if s.dev.up = true then if s.dev.owns pool then s.dev.journalPage pool else s.dev else s.dev)) ∧
    (∀ (stream : Nat), exec (.timerCairn stream) s = s.ends (if s.dev.up = true then s.dev.timerCairn stream else s.dev)) ∧
    (∀ (nsid : Nat) (stateWordOk : Bool), exec (.cairnClose nsid stateWordOk) s =
      s.ends (if s.dev.up = true then s.dev.cairnClose nsid stateWordOk else s.dev)) ∧
    (∀ (target : Nat), exec (.caravanOpens target) s = s.ends (if s.dev.up = true then s.dev.caravanOpens target else s.dev)) ∧
    (∀ (qpn : Nat) (r : CarOpen), exec (.caravanOpenRecord qpn r) s =
      s.ends (if s.dev.up = true then s.dev.openRecord qpn r else s.dev)) ∧
    (∀ (qpn : Nat) (r : CarEpoch), exec (.epochRecord qpn r) s = s.ends (if s.dev.up = true then s.dev.epochRecord qpn r else s.dev)) ∧
    (∀ (qpn : Nat) (r : CarBlock), exec (.blockRecord qpn r) s = s.ends (if s.dev.up = true then s.dev.blockRecord qpn r else s.dev)) ∧
    (∀ (qpn : Nat) (index : CarEnd) (digest : Bytes), exec (.epochEndRecord qpn index digest) s =
      s.ends (if s.dev.up = true then s.dev.epochEnd qpn index digest else s.dev)) ∧
    (∀ (qpn : Nat) (index : CarEnd) (imageDigest chainDigest : Bytes), exec (.imageEndRecord qpn index imageDigest chainDigest) s =
      s.ends (if s.dev.up = true then s.dev.imageEnd qpn index imageDigest chainDigest else s.dev)) ∧
    (∀ (qpn : Nat) (index : CarClose), exec (.closeRecord qpn index) s = s.ends (if s.dev.up = true then s.dev.closeRecord qpn index else s.dev)) ∧
    (∀ (target index : Nat) (refused : Option Nat), exec (.caravanConfirmation target index refused) s =
      s.ends (if s.dev.up = true then s.dev.carConfirmed target index refused else s.dev)) ∧
    (∀ (target : Nat), exec (.caravanReconnectTimer target) s = s.ends (if s.dev.up = true then s.dev.carReconnect target else s.dev))

/-- Every row of the peer link, the arbiter, takeover, alarms and HBM answers the next state that its operation gives. Where the head does
not serve the command now, it changes nothing. -/
def Obligations.PeerCommandsComplete : Prop :=
  ∀ s : State,
    (∀ (lookup : Nat), exec (.lookupDefer lookup) s = s.ends (if s.dev.up = true then s.dev.lookupDefer lookup else s.dev)) ∧
    (∀ (lookup : Nat) (level : Fin 3), exec (.fingerprintLookupDone lookup level) s =
      s.ends (if s.dev.up = true then s.dev.lookupDone lookup level.val else s.dev)) ∧
    (∀ (input : Fin 4), exec (.tamperAlarm input) s = s.ends (s.dev.tamperAlarm input.val)) ∧
    (∀ (core : Bool), exec (.railAlarm core) s = s.ends (s.dev.railAlarm core)) ∧
    (exec .crystalStop s = s.ends (s.dev.crystalStop)) ∧
    (∀ (w : ScrubWord), exec (.patrolScrub w) s = s.ends (if s.dev.up = true then s.dev.patrolScrub w else s.dev)) ∧
    (∀ (h : PeerHdr) (b : Heartbeat), exec (.heartbeat h b) s =
      s.ends (if s.dev.up = true then s.dev.peerRx (.heartbeat h b) else s.dev)) ∧
    (∀ (h : PeerHdr) (lseq : Nat), exec (.pengenkoNak h lseq) s =
      s.ends (if s.dev.up = true then s.dev.peerRx (.pengenkoNak h lseq) else s.dev)) ∧
    (∀ (h : PeerHdr) (upTo : Nat), exec (.mirrorConfirmation h upTo) s =
      s.ends (if s.dev.up = true then s.dev.peerRx (.mirrorConfirmation h upTo) else s.dev)) ∧
    (∀ (h : PeerHdr) (generation : Nat) (digest : Bytes) (ok : PeerImage), exec (.imageDigest h generation digest ok) s =
      s.ends (if s.dev.up = true then (s.dev.peerRx (.imageDigest h generation digest ok)).takeOffered s.fuses else s.dev)) ∧
    (∀ (h : PeerHdr) (payload : Bytes), exec (.selfTestEcho h payload) s =
      s.ends (if s.dev.up = true then s.dev.peerRx (.selfTestEcho h payload) else s.dev)) ∧
    (∀ (h : PeerHdr) (sl : MirrorSlot), exec (.mirrorSlot h sl) s =
      s.ends (if s.dev.up = true then s.dev.peerRx (.mirrorSlot h sl) else s.dev)) ∧
    (∀ (h : PeerHdr) (r : OpenRec), exec (.journalOpen h r) s =
      s.ends (if s.dev.up = true then s.dev.peerRx (.journalOpen h r) else s.dev)) ∧
    (∀ (h : PeerHdr) (pool seq : Nat), exec (.journalClose h pool seq) s =
      s.ends (if s.dev.up = true then s.dev.peerRx (.journalClose h pool seq) else s.dev)) ∧
    (∀ (h : PeerHdr) (dl : MapDelta), exec (.mapDelta h dl) s =
      s.ends (if s.dev.up = true then s.dev.peerRx (.mapDelta h dl) else s.dev)) ∧
    (∀ (h : PeerHdr) (q : QpMirror), exec (.qpContextState h q) s =
      s.ends (if s.dev.up = true then s.dev.peerRx (.qpContextState h q) else s.dev)) ∧
    (∀ (h : PeerHdr) (w : WinMirror), exec (.windowState h w) s =
      s.ends (if s.dev.up = true then s.dev.peerRx (.windowState h w) else s.dev)) ∧
    (∀ (h : PeerHdr) (c : CairnMirror), exec (.cairnState h c) s =
      s.ends (if s.dev.up = true then s.dev.peerRx (.cairnState h c) else s.dev)) ∧
    (∀ (h : PeerHdr) (l : List HolderMirror), exec (.pendingHolders h l) s =
      s.ends (if s.dev.up = true then s.dev.peerRx (.pendingHolders h l) else s.dev)) ∧
    (∀ (h : PeerHdr) (l : List (Nat × Nat)), exec (.retainedCairnList h l) s =
      s.ends (if s.dev.up = true then s.dev.peerRx (.retainedCairnList h l) else s.dev)) ∧
    (∀ (h : PeerHdr) (c : CaravanMirror), exec (.caravanProgress h c) s =
      s.ends (if s.dev.up = true then s.dev.peerRx (.caravanProgress h c) else s.dev)) ∧
    (∀ (h : PeerHdr) (pool : Nat) (position : ReshapeMark), exec (.reshapePosition h pool position) s =
      s.ends (if s.dev.up = true then s.dev.peerRx (.reshapePosition h pool position) else s.dev)) ∧
    (∀ (h : PeerHdr) (ch : Fin 8) (num strobeNs : Nat), exec (.channelLastMatched h ch num strobeNs) s =
      s.ends (if s.dev.up = true then s.dev.peerRx (.channelLastMatched h ch num strobeNs) else s.dev)) ∧
    (∀ (h : PeerHdr) (f : FwuPeer), exec (.fwuState h f) s = s.ends (if s.dev.up = true then s.dev.peerRx (.fwuState h f) else s.dev)) ∧
    (exec .peerSilent s = s.ends (if s.dev.up = true then s.dev.peerSilent else s.dev)) ∧
    (exec .heartbeatTimer s = s.ends (if s.dev.up = true then s.dev.heartbeatOut else s.dev)) ∧
    (∀ (lane : Fin 24) (ok sameHead : Bool), exec (.pengenkoLaneRetrain lane ok sameHead) s =
      s.ends (if s.dev.up = true then s.dev.linkLaneRetrain lane.val ok sameHead else s.dev)) ∧
    (exec .arbFenceFall s = s.ends (s.dev.fenceFall)) ∧
    (exec .arbFenceRise s = s.ends (s.dev.fenceRise s.fuses)) ∧
    (∀ (m : ArbMsg), exec (.verdict m) s = s.ends (if s.dev.up = true then s.dev.verdict m else s.dev)) ∧
    (exec .claimTimeout s = s.ends (if s.dev.up = true then s.dev.claimTimeout else s.dev)) ∧
    (exec .addressAnnounce s = s.ends (if s.dev.up = true then s.dev.announceAddresses else s.dev)) ∧
    (∀ (m : ArbMsg), exec (.transferGrant m) s = s.ends (if s.dev.up = true then s.dev.transferGrant m else s.dev)) ∧
    (exec .transferCommandsDrained s = s.ends (if s.dev.up = true then s.dev.transferDrained else s.dev)) ∧
    (exec .arbStatusTimer s = s.ends (if s.dev.up = true then s.dev.arbStatus else s.dev)) ∧
    (exec .verdictReqTimer s = s.ends (if s.dev.up = true then s.dev.verdictReqTimer else s.dev)) ∧
    (exec .verdictWaitExpiry s = s.ends (if s.dev.up = true then s.dev.verdictWaitOver else s.dev)) ∧
    (∀ (failed : List Nat), exec (.selfTestPathCheck failed) s = s.ends (if s.dev.up = true then s.dev.pathCheck failed else s.dev)) ∧
    (∀ (lane die : Fin 64) (idle : Bool), exec (.selfTestDieCheck lane die idle) s =
      s.ends (if s.dev.up = true then s.dev.dieCheck lane.val die.val idle else s.dev)) ∧
    (exec .arbiterDatagramBad s = s.ends (if s.dev.up = true then s.dev.arbBad else s.dev))

/-- Every row of the lanes, bridges and dies answers the next state that its operation gives. Where the head does not serve the command
now, it changes nothing. -/
def Obligations.FlashCommandsComplete : Prop :=
  ∀ s : State,
    (∀ (f : FrameFlit), exec (.vrelenFrame f) s = s.ends (if s.dev.up = true then s.dev.vrelenFrame f else s.dev)) ∧
    (∀ (lane : Fin 64), exec (.fillerFrame lane) s = s.ends (if s.dev.up = true then s.dev.fillerFrame lane.val else s.dev)) ∧
    (∀ (lane : Fin 64), exec (.fillerFrameDue lane) s = s.ends (if s.dev.up = true then s.dev.fillerDue lane.val else s.dev)) ∧
    (∀ (lane : Fin 64), exec (.retrainRequest lane) s = s.ends (if s.dev.up = true then s.dev.trainLane lane.val else s.dev)) ∧
    (∀ (lane : Fin 64), exec (.frameAckTimeout lane) s = s.ends (if s.dev.up = true then s.dev.frameAckTimeout lane.val else s.dev)) ∧
    (∀ (lane : Fin 64) (onePair : Bool), exec (.laneTrainingLimit lane onePair) s =
      s.ends (if s.dev.up = true then s.dev.trainingLimit lane.val onePair else s.dev)) ∧
    (∀ (c : ConfigFlit), exec (.configFlit c) s = s.ends (if s.dev.up = true then s.dev.configFlit c else s.dev)) ∧
    (∀ (lane : Fin 64), exec (.laneDownRetry lane) s = s.ends (if s.dev.up = true then s.dev.laneRetry lane.val else s.dev)) ∧
    (∀ (r : Resp) (dec : Decode), exec (.readResponse r dec) s = s.ends (if s.dev.up = true then s.dev.readResponse r dec else s.dev)) ∧
    (∀ (r : Resp), exec (.programResponse r) s = s.ends (if s.dev.up = true then s.dev.programResponse r else s.dev)) ∧
    (∀ (r : Resp), exec (.eraseResponse r) s = s.ends (if s.dev.up = true then s.dev.eraseResponse r else s.dev)) ∧
    (∀ (r : Resp), exec (.suspendResponse r) s = s.ends (if s.dev.up = true then s.dev.suspendResponse r else s.dev)) ∧
    (∀ (r : Resp), exec (.resumeResponse r) s = s.ends (if s.dev.up = true then s.dev.resumeResponse r else s.dev)) ∧
    (∀ (r : Resp), exec (.statusResponse r) s = s.ends (if s.dev.up = true then s.dev.statusResponse r else s.dev)) ∧
    (∀ (r : Resp), exec (.resetDieResponse r) s = s.ends (if s.dev.up = true then s.dev.resetDieResponse r else s.dev)) ∧
    (∀ (r : Resp), exec (.setThreshResponse r) s = s.ends (if s.dev.up = true then s.dev.plainResponse r .setThresh else s.dev)) ∧
    (∀ (r : Resp), exec (.setTrimResponse r) s = s.ends (if s.dev.up = true then s.dev.plainResponse r .setTrim else s.dev)) ∧
    (∀ (r : Resp), exec (.claimResponse r) s = s.ends (if s.dev.up = true then s.dev.claimResponse r else s.dev)) ∧
    (∀ (r : Resp) (b : BridgeStatus), exec (.bridgeStatusResponse r b) s =
      s.ends (if s.dev.up = true then s.dev.bridgeStatusResponse r b else s.dev)) ∧
    (∀ (r : Resp) (same : Bool), exec (.loopbackResponse r same) s =
      s.ends (if s.dev.up = true then s.dev.loopbackResponse r same else s.dev)) ∧
    (∀ (lane : Fin 64) (tag : Nat), exec (.bridgeCommandTimeout lane tag) s =
      s.ends (if s.dev.up = true then s.dev.commandTimeout lane.val tag else s.dev)) ∧
    (exec .bridgeStatusPoll s = s.ends (if s.dev.up = true then s.dev.bridgePoll else s.dev)) ∧
    (∀ (lane die : Fin 64), exec (.starvedErase lane die) s =
      s.ends (if s.dev.up = true then s.dev.starvedErase lane.val die.val else s.dev)) ∧
    (∀ (lane die : Fin 64) (group level : Nat) (reads : ThrSample), exec (.thresholdSample lane die group level reads) s =
      s.ends (if s.dev.up = true then s.dev.thresholdSample lane.val die.val group level reads else s.dev))

/-- Every row of power, resets, heat, clocks, watchdogs and firmware trials answers the next state that its operation gives. Where the
head does not serve the command now, it changes nothing. -/
def Obligations.PowerCommandsComplete : Prop :=
  ∀ s : State,
    (∀ (mode : Fin 8) (seconds : Nat), exec (.stallEvent mode seconds) s =
      s.ends (if s.dev.up = true then s.dev.stalled mode.val seconds else s.dev)) ∧
    (exec .watchdogStage1 s = s.ends (if s.dev.up = true then s.dev.watchdogOne else s.dev)) ∧
    (exec .watchdogStage2 s = s.ends (s.dev.watchdogTwo s.fuses)) ∧
    (∀ (e : EngineId), exec (.engineHang e) s = s.ends (if s.dev.up = true then s.dev.engineHang e else s.dev)) ∧
    (∀ (upset : Option RegUpset), exec (.cfgSweep upset) s = s.ends (if s.dev.up = true then s.dev.cfgSweep upset else s.dev)) ∧
    (∀ (b : BootEnv), exec (.powerOnReset b) s = s.ends (s.dev.powerOn s.fuses b)) ∧
    (∀ (b : BootEnv), exec (.pinReset b) s = s.ends (s.dev.pinReset s.fuses b)) ∧
    (∀ (b : BootEnv), exec (.warmReset b) s = s.ends (s.dev.warmReset s.fuses b)) ∧
    (exec .functionLevelReset s = s.ends (if s.dev.answers then s.dev.functionReset else s.dev)) ∧
    (∀ (lowNs : Nat) (intact : DrainFate), exec (.pwrFailNFall lowNs intact) s = s.ends (s.dev.pwrFailFall lowNs intact)) ∧
    (exec .pwrFailNRise s = s.ends (s.dev.pwrFailRise)) ∧
    (exec .parkRelease s = s.ends (s.dev.parkRelease s.fuses)) ∧
    (exec .holdupOkFall s = s.ends (s.dev.holdupFall)) ∧
    (exec .holdupOkRise s = s.ends (s.dev.holdupRise)) ∧
    (∀ (p : PsQuiet), exec (.powerStateEntry p) s = s.ends (if s.dev.up = true then s.dev.psEntry p else s.dev)) ∧
    (exec .l3Exit s = s.ends (s.dev.l3Exit s.fuses)) ∧
    (∀ (t : List Int) (hotUs : Nat), exec (.dieTempSample t hotUs) s = s.ends (s.dev.dieTemps t hotUs)) ∧
    (∀ (t : List (Option Int)), exec (.remoteTempSample t) s = s.ends (if s.dev.up = true then s.dev.remoteTemps t else s.dev)) ∧
    (exec .thermalDrainEnd s = s.ends (s.dev.thermalDrainEnd)) ∧
    (∀ (b : BootEnv), exec (.mainRailLoss b) s = s.ends (s.dev.railLoss s.fuses rkWarm b)) ∧
    (∀ (c : RefClk), exec (.refclkLoss c) s = s.ends (s.dev.clockLost c)) ∧
    (∀ (c : RefClk), exec (.refclkReturn c) s = s.ends (s.dev.clockBack c)) ∧
    (exec .pcieLinkDown s = s.ends (s.dev.pcieDown)) ∧
    (exec .trialPassed s = s.endsF (trialFuses s.fuses s.dev) (s.dev.trialPassed)) ∧
    (exec .trialFailed s = s.ends (s.dev.trialFail s.fuses)) ∧
    (exec .eventFlushTimer s = s.ends (s.dev.evrTimer)) ∧
    (∀ (input : Fin 4) (level : Bool), exec (.tamperInputChange input level) s = s.ends (s.dev.tamperChange input.val level)) ∧
    (exec .pcieLinkTrained s = s.ends (s.dev.pcieTrained)) ∧
    (∀ (ok : Bool), exec (.lifeFigureWrite ok) s = s.ends (if s.dev.up = true then s.dev.lifeFigureWrite ok else s.dev)) ∧
    (∀ (code : Nat), exec (.basicManagementCommand code) s = s.ends (s.dev.basicManagement code)) ∧
    (exec .powerStateEntered s = s.ends (s.dev.psEntered)) ∧
    (exec .controlSummarySnapshot s = s.ends (s.dev.summarize s.fuses))
end

