-- ==== Sys2Proof/Laws/State.lean ====
section
/-! SUPPORT. What each update of the state leaves alone, one statement an update: every other part of the device, and with the register
store every register field. -/
namespace Sys2Proof.Laws
open Sys2Proof.Machine

@[simp] theorem set_frame (d : Dev) (f : Field) (v : Nat) :
    (d.set f v).heldLow = d.heldLow ∧ (d.set f v).msix = d.msix ∧ (d.set f v).int = d.int ∧ (d.set f v).evr = d.evr ∧ (d.set f v).cnt = d.cnt ∧
    (d.set f v).trc = d.trc ∧ (d.set f v).txHeld = d.txHeld ∧ (d.set f v).summary = d.summary ∧ (d.set f v).snapSeq = d.snapSeq ∧
    (d.set f v).boot = d.boot ∧
    (d.set f v).sim = d.sim ∧ (d.set f v).fwu = d.fwu ∧ (d.set f v).cfg = d.cfg ∧ (d.set f v).mgmt = d.mgmt ∧
    (d.set f v).modes = d.modes ∧ (d.set f v).pow = d.pow ∧ (d.set f v).pins = d.pins ∧ (d.set f v).ipt = d.ipt ∧
    (d.set f v).net = d.net ∧ (d.set f v).nv = d.nv ∧ (d.set f v).red = d.red ∧ (d.set f v).cip = d.cip ∧ (d.set f v).stg = d.stg ∧
    (d.set f v).head = d.head ∧ (d.set f v).snp = d.snp ∧ (d.set f v).fl = d.fl ∧ (d.set f v).free = d.free ∧ (d.set f v).out = d.out :=
  ⟨rfl, rfl, rfl, rfl, rfl, rfl, rfl, rfl, rfl, rfl, rfl, rfl, rfl, rfl, rfl, rfl, rfl, rfl, rfl, rfl, rfl, rfl, rfl, rfl, rfl, rfl, rfl, rfl⟩

@[simp] theorem setB_frame (d : Dev) (f : Field) (b : Bool) :
    (d.setB f b).heldLow = d.heldLow ∧ (d.setB f b).msix = d.msix ∧ (d.setB f b).int = d.int ∧ (d.setB f b).evr = d.evr ∧
    (d.setB f b).cnt = d.cnt ∧
    (d.setB f b).trc = d.trc ∧ (d.setB f b).txHeld = d.txHeld ∧ (d.setB f b).summary = d.summary ∧ (d.setB f b).snapSeq = d.snapSeq ∧
    (d.setB f b).boot = d.boot ∧
    (d.setB f b).sim = d.sim ∧ (d.setB f b).fwu = d.fwu ∧ (d.setB f b).cfg = d.cfg ∧ (d.setB f b).mgmt = d.mgmt ∧
    (d.setB f b).modes = d.modes ∧ (d.setB f b).pow = d.pow ∧ (d.setB f b).pins = d.pins ∧ (d.setB f b).ipt = d.ipt ∧
    (d.setB f b).net = d.net ∧ (d.setB f b).nv = d.nv ∧ (d.setB f b).red = d.red ∧ (d.setB f b).cip = d.cip ∧ (d.setB f b).stg = d.stg ∧
    (d.setB f b).head = d.head ∧ (d.setB f b).snp = d.snp ∧ (d.setB f b).fl = d.fl ∧ (d.setB f b).free = d.free ∧
    (d.setB f b).out = d.out :=
  ⟨rfl, rfl, rfl, rfl, rfl, rfl, rfl, rfl, rfl, rfl, rfl, rfl, rfl, rfl, rfl, rfl, rfl, rfl, rfl, rfl, rfl, rfl, rfl, rfl, rfl, rfl, rfl, rfl⟩

@[simp] theorem setI_frame (d : Dev) (f : Field) (i : Int) :
    (d.setI f i).heldLow = d.heldLow ∧ (d.setI f i).msix = d.msix ∧ (d.setI f i).int = d.int ∧ (d.setI f i).evr = d.evr ∧
    (d.setI f i).cnt = d.cnt ∧
    (d.setI f i).trc = d.trc ∧ (d.setI f i).txHeld = d.txHeld ∧ (d.setI f i).summary = d.summary ∧ (d.setI f i).snapSeq = d.snapSeq ∧
    (d.setI f i).boot = d.boot ∧
    (d.setI f i).sim = d.sim ∧ (d.setI f i).fwu = d.fwu ∧ (d.setI f i).cfg = d.cfg ∧ (d.setI f i).mgmt = d.mgmt ∧
    (d.setI f i).modes = d.modes ∧ (d.setI f i).pow = d.pow ∧ (d.setI f i).pins = d.pins ∧ (d.setI f i).ipt = d.ipt ∧
    (d.setI f i).net = d.net ∧ (d.setI f i).nv = d.nv ∧ (d.setI f i).red = d.red ∧ (d.setI f i).cip = d.cip ∧ (d.setI f i).stg = d.stg ∧
    (d.setI f i).head = d.head ∧ (d.setI f i).snp = d.snp ∧ (d.setI f i).fl = d.fl ∧ (d.setI f i).free = d.free ∧
    (d.setI f i).out = d.out :=
  ⟨rfl, rfl, rfl, rfl, rfl, rfl, rfl, rfl, rfl, rfl, rfl, rfl, rfl, rfl, rfl, rfl, rfl, rfl, rfl, rfl, rfl, rfl, rfl, rfl, rfl, rfl, rfl, rfl⟩

@[simp] theorem bump_frame (d : Dev) (f : Field) (n : Nat) :
    (d.bump f n).heldLow = d.heldLow ∧ (d.bump f n).msix = d.msix ∧ (d.bump f n).int = d.int ∧ (d.bump f n).evr = d.evr ∧
    (d.bump f n).trc = d.trc ∧ (d.bump f n).txHeld = d.txHeld ∧
    (d.bump f n).summary = d.summary ∧ (d.bump f n).snapSeq = d.snapSeq ∧ (d.bump f n).boot = d.boot ∧ (d.bump f n).sim = d.sim ∧
    (d.bump f n).fwu = d.fwu ∧ (d.bump f n).cfg = d.cfg ∧ (d.bump f n).mgmt = d.mgmt ∧ (d.bump f n).modes = d.modes ∧
    (d.bump f n).pow = d.pow ∧ (d.bump f n).pins = d.pins ∧ (d.bump f n).ipt = d.ipt ∧ (d.bump f n).net = d.net ∧
    (d.bump f n).nv = d.nv ∧ (d.bump f n).red = d.red ∧ (d.bump f n).cip = d.cip ∧ (d.bump f n).stg = d.stg ∧
    (d.bump f n).head = d.head ∧ (d.bump f n).snp = d.snp ∧ (d.bump f n).fl = d.fl ∧ (d.bump f n).free = d.free ∧
    (d.bump f n).out = d.out :=
  ⟨rfl, rfl, rfl, rfl, rfl, rfl, rfl, rfl, rfl, rfl, rfl, rfl, rfl, rfl, rfl, rfl, rfl, rfl, rfl, rfl, rfl, rfl, rfl, rfl, rfl, rfl, rfl⟩

@[simp] theorem emit_frame (d : Dev) (o : Output) :
    (d.emit o).regs = d.regs ∧ (d.emit o).heldLow = d.heldLow ∧ (d.emit o).msix = d.msix ∧ (d.emit o).int = d.int ∧ (d.emit o).evr = d.evr ∧
    (d.emit o).cnt = d.cnt ∧ (d.emit o).trc = d.trc ∧ (d.emit o).txHeld = d.txHeld ∧ (d.emit o).summary = d.summary ∧
    (d.emit o).snapSeq = d.snapSeq ∧
    (d.emit o).boot = d.boot ∧ (d.emit o).sim = d.sim ∧ (d.emit o).fwu = d.fwu ∧ (d.emit o).cfg = d.cfg ∧ (d.emit o).mgmt = d.mgmt ∧
    (d.emit o).modes = d.modes ∧ (d.emit o).pow = d.pow ∧ (d.emit o).pins = d.pins ∧ (d.emit o).ipt = d.ipt ∧ (d.emit o).net = d.net ∧
    (d.emit o).nv = d.nv ∧ (d.emit o).red = d.red ∧ (d.emit o).cip = d.cip ∧ (d.emit o).stg = d.stg ∧ (d.emit o).head = d.head ∧
    (d.emit o).snp = d.snp ∧ (d.emit o).fl = d.fl ∧ (d.emit o).free = d.free :=
  ⟨rfl, rfl, rfl, rfl, rfl, rfl, rfl, rfl, rfl, rfl, rfl, rfl, rfl, rfl, rfl, rfl, rfl, rfl, rfl, rfl, rfl, rfl, rfl, rfl, rfl, rfl, rfl, rfl⟩

@[simp] theorem emit_get (d : Dev) (o : Output) (f : Field) :
    (d.emit o).get f = d.get f ∧ (d.emit o).on f = d.on f ∧ (d.emit o).getI f = d.getI f := ⟨rfl, rfl, rfl⟩

@[simp] theorem raise_frame (d : Dev) (b : Nat) :
    (d.raise b).regs = d.regs ∧ (d.raise b).heldLow = d.heldLow ∧ (d.raise b).evr = d.evr ∧ (d.raise b).cnt = d.cnt ∧
    (d.raise b).trc = d.trc ∧ (d.raise b).txHeld = d.txHeld ∧ (d.raise b).summary = d.summary ∧ (d.raise b).snapSeq = d.snapSeq ∧
    (d.raise b).boot = d.boot ∧
    (d.raise b).sim = d.sim ∧ (d.raise b).fwu = d.fwu ∧ (d.raise b).cfg = d.cfg ∧ (d.raise b).mgmt = d.mgmt ∧
    (d.raise b).modes = d.modes ∧ (d.raise b).pow = d.pow ∧ (d.raise b).pins = d.pins ∧ (d.raise b).ipt = d.ipt ∧
    (d.raise b).net = d.net ∧ (d.raise b).nv = d.nv ∧ (d.raise b).red = d.red ∧ (d.raise b).cip = d.cip ∧ (d.raise b).stg = d.stg ∧
    (d.raise b).head = d.head ∧ (d.raise b).snp = d.snp ∧ (d.raise b).fl = d.fl ∧ (d.raise b).free = d.free :=
  ⟨rfl, rfl, rfl, rfl, rfl, rfl, rfl, rfl, rfl, rfl, rfl, rfl, rfl, rfl, rfl, rfl, rfl, rfl, rfl, rfl, rfl, rfl, rfl, rfl, rfl, rfl⟩

@[simp] theorem raise_get (d : Dev) (b : Nat) (f : Field) :
    (d.raise b).get f = d.get f ∧ (d.raise b).on f = d.on f ∧ (d.raise b).getI f = d.getI f := ⟨rfl, rfl, rfl⟩

@[simp] theorem trace_frame (d : Dev) (kind block inst : Nat) (info : List Nat) :
    (d.trace kind block inst info).regs = d.regs ∧ (d.trace kind block inst info).heldLow = d.heldLow ∧
    (d.trace kind block inst info).msix = d.msix ∧
    (d.trace kind block inst info).int = d.int ∧ (d.trace kind block inst info).evr = d.evr ∧
    (d.trace kind block inst info).cnt = d.cnt ∧ (d.trace kind block inst info).txHeld = d.txHeld ∧
    (d.trace kind block inst info).summary = d.summary ∧
    (d.trace kind block inst info).snapSeq = d.snapSeq ∧ (d.trace kind block inst info).boot = d.boot ∧
    (d.trace kind block inst info).sim = d.sim ∧ (d.trace kind block inst info).fwu = d.fwu ∧
    (d.trace kind block inst info).cfg = d.cfg ∧ (d.trace kind block inst info).mgmt = d.mgmt ∧
    (d.trace kind block inst info).modes = d.modes ∧ (d.trace kind block inst info).pow = d.pow ∧
    (d.trace kind block inst info).pins = d.pins ∧ (d.trace kind block inst info).ipt = d.ipt ∧
    (d.trace kind block inst info).net = d.net ∧ (d.trace kind block inst info).nv = d.nv ∧ (d.trace kind block inst info).red = d.red ∧
    (d.trace kind block inst info).cip = d.cip ∧ (d.trace kind block inst info).stg = d.stg ∧
    (d.trace kind block inst info).head = d.head ∧ (d.trace kind block inst info).snp = d.snp ∧
    (d.trace kind block inst info).fl = d.fl ∧ (d.trace kind block inst info).free = d.free :=
  ⟨rfl, rfl, rfl, rfl, rfl, rfl, rfl, rfl, rfl, rfl, rfl, rfl, rfl, rfl, rfl, rfl, rfl, rfl, rfl, rfl, rfl, rfl, rfl, rfl, rfl, rfl, rfl⟩

@[simp] theorem trace_get (d : Dev) (kind block inst : Nat) (info : List Nat) (f : Field) :
    (d.trace kind block inst info).get f = d.get f ∧ (d.trace kind block inst info).on f = d.on f ∧
    (d.trace kind block inst info).getI f = d.getI f := ⟨rfl, rfl, rfl⟩

@[simp] theorem unheld_frame (d : Dev) (b : Nat) :
    (d.unheld b).regs = d.regs ∧ (d.unheld b).int = d.int ∧ (d.unheld b).evr = d.evr ∧ (d.unheld b).cnt = d.cnt ∧
    (d.unheld b).trc = d.trc ∧ (d.unheld b).msix = d.msix ∧ (d.unheld b).txHeld = d.txHeld ∧ (d.unheld b).summary = d.summary ∧
    (d.unheld b).snapSeq = d.snapSeq ∧ (d.unheld b).boot = d.boot ∧
    (d.unheld b).sim = d.sim ∧ (d.unheld b).fwu = d.fwu ∧ (d.unheld b).cfg = d.cfg ∧ (d.unheld b).mgmt = d.mgmt ∧
    (d.unheld b).modes = d.modes ∧ (d.unheld b).pow = d.pow ∧ (d.unheld b).pins = d.pins ∧ (d.unheld b).ipt = d.ipt ∧
    (d.unheld b).net = d.net ∧ (d.unheld b).nv = d.nv ∧ (d.unheld b).red = d.red ∧ (d.unheld b).cip = d.cip ∧ (d.unheld b).stg = d.stg ∧
    (d.unheld b).head = d.head ∧ (d.unheld b).snp = d.snp ∧ (d.unheld b).fl = d.fl ∧ (d.unheld b).free = d.free ∧
    (d.unheld b).out = d.out :=
  ⟨rfl, rfl, rfl, rfl, rfl, rfl, rfl, rfl, rfl, rfl, rfl, rfl, rfl, rfl, rfl, rfl, rfl, rfl, rfl, rfl, rfl, rfl, rfl, rfl, rfl, rfl, rfl, rfl⟩

@[simp] theorem unheld_get (d : Dev) (b : Nat) (f : Field) :
    (d.unheld b).get f = d.get f ∧ (d.unheld b).on f = d.on f ∧ (d.unheld b).getI f = d.getI f := ⟨rfl, rfl, rfl⟩

@[simp] theorem snapshot_frame (d : Dev) (l : List Nat) :
    (d.snapshot l).regs = d.regs ∧ (d.snapshot l).heldLow = d.heldLow ∧ (d.snapshot l).msix = d.msix ∧ (d.snapshot l).int = d.int ∧
    (d.snapshot l).evr = d.evr ∧
    (d.snapshot l).cnt = d.cnt ∧ (d.snapshot l).trc = d.trc ∧ (d.snapshot l).txHeld = d.txHeld ∧ (d.snapshot l).boot = d.boot ∧
    (d.snapshot l).sim = d.sim ∧
    (d.snapshot l).fwu = d.fwu ∧ (d.snapshot l).cfg = d.cfg ∧ (d.snapshot l).mgmt = d.mgmt ∧ (d.snapshot l).modes = d.modes ∧
    (d.snapshot l).pow = d.pow ∧ (d.snapshot l).pins = d.pins ∧ (d.snapshot l).ipt = d.ipt ∧ (d.snapshot l).net = d.net ∧
    (d.snapshot l).nv = d.nv ∧ (d.snapshot l).red = d.red ∧ (d.snapshot l).cip = d.cip ∧ (d.snapshot l).stg = d.stg ∧
    (d.snapshot l).head = d.head ∧ (d.snapshot l).snp = d.snp ∧ (d.snapshot l).fl = d.fl ∧ (d.snapshot l).free = d.free ∧
    (d.snapshot l).out = d.out :=
  ⟨rfl, rfl, rfl, rfl, rfl, rfl, rfl, rfl, rfl, rfl, rfl, rfl, rfl, rfl, rfl, rfl, rfl, rfl, rfl, rfl, rfl, rfl, rfl, rfl, rfl, rfl, rfl⟩

@[simp] theorem snapshot_get (d : Dev) (l : List Nat) (f : Field) :
    (d.snapshot l).get f = d.get f ∧ (d.snapshot l).on f = d.on f ∧ (d.snapshot l).getI f = d.getI f := ⟨rfl, rfl, rfl⟩

@[simp] theorem onEvr_frame (d : Dev) (g : EvrState → EvrState) :
    (d.onEvr g).regs = d.regs ∧ (d.onEvr g).heldLow = d.heldLow ∧ (d.onEvr g).msix = d.msix ∧ (d.onEvr g).int = d.int ∧ (d.onEvr g).cnt = d.cnt ∧
    (d.onEvr g).trc = d.trc ∧ (d.onEvr g).txHeld = d.txHeld ∧ (d.onEvr g).summary = d.summary ∧ (d.onEvr g).snapSeq = d.snapSeq ∧
    (d.onEvr g).boot = d.boot ∧
    (d.onEvr g).sim = d.sim ∧ (d.onEvr g).fwu = d.fwu ∧ (d.onEvr g).cfg = d.cfg ∧ (d.onEvr g).mgmt = d.mgmt ∧
    (d.onEvr g).modes = d.modes ∧ (d.onEvr g).pow = d.pow ∧ (d.onEvr g).pins = d.pins ∧ (d.onEvr g).ipt = d.ipt ∧
    (d.onEvr g).net = d.net ∧ (d.onEvr g).nv = d.nv ∧ (d.onEvr g).red = d.red ∧ (d.onEvr g).cip = d.cip ∧ (d.onEvr g).stg = d.stg ∧
    (d.onEvr g).head = d.head ∧ (d.onEvr g).snp = d.snp ∧ (d.onEvr g).fl = d.fl ∧ (d.onEvr g).free = d.free ∧ (d.onEvr g).out = d.out :=
  ⟨rfl, rfl, rfl, rfl, rfl, rfl, rfl, rfl, rfl, rfl, rfl, rfl, rfl, rfl, rfl, rfl, rfl, rfl, rfl, rfl, rfl, rfl, rfl, rfl, rfl, rfl, rfl, rfl⟩

@[simp] theorem onEvr_get (d : Dev) (g : EvrState → EvrState) (f : Field) :
    (d.onEvr g).get f = d.get f ∧ (d.onEvr g).on f = d.on f ∧ (d.onEvr g).getI f = d.getI f := ⟨rfl, rfl, rfl⟩

@[simp] theorem onPow_frame (d : Dev) (g : PowState → PowState) :
    (d.onPow g).regs = d.regs ∧ (d.onPow g).heldLow = d.heldLow ∧ (d.onPow g).msix = d.msix ∧ (d.onPow g).int = d.int ∧ (d.onPow g).evr = d.evr ∧
    (d.onPow g).cnt = d.cnt ∧ (d.onPow g).trc = d.trc ∧ (d.onPow g).txHeld = d.txHeld ∧ (d.onPow g).summary = d.summary ∧
    (d.onPow g).snapSeq = d.snapSeq ∧
    (d.onPow g).boot = d.boot ∧ (d.onPow g).sim = d.sim ∧ (d.onPow g).fwu = d.fwu ∧ (d.onPow g).cfg = d.cfg ∧ (d.onPow g).mgmt = d.mgmt ∧
    (d.onPow g).modes = d.modes ∧ (d.onPow g).pins = d.pins ∧ (d.onPow g).ipt = d.ipt ∧ (d.onPow g).net = d.net ∧ (d.onPow g).nv = d.nv ∧
    (d.onPow g).red = d.red ∧ (d.onPow g).cip = d.cip ∧ (d.onPow g).stg = d.stg ∧ (d.onPow g).head = d.head ∧ (d.onPow g).snp = d.snp ∧
    (d.onPow g).fl = d.fl ∧ (d.onPow g).free = d.free ∧ (d.onPow g).out = d.out :=
  ⟨rfl, rfl, rfl, rfl, rfl, rfl, rfl, rfl, rfl, rfl, rfl, rfl, rfl, rfl, rfl, rfl, rfl, rfl, rfl, rfl, rfl, rfl, rfl, rfl, rfl, rfl, rfl, rfl⟩

@[simp] theorem onPow_get (d : Dev) (g : PowState → PowState) (f : Field) :
    (d.onPow g).get f = d.get f ∧ (d.onPow g).on f = d.on f ∧ (d.onPow g).getI f = d.getI f := ⟨rfl, rfl, rfl⟩

@[simp] theorem onPins_frame (d : Dev) (g : Pins → Pins) :
    (d.onPins g).regs = d.regs ∧ (d.onPins g).heldLow = d.heldLow ∧ (d.onPins g).msix = d.msix ∧ (d.onPins g).int = d.int ∧
    (d.onPins g).evr = d.evr ∧
    (d.onPins g).cnt = d.cnt ∧ (d.onPins g).trc = d.trc ∧ (d.onPins g).txHeld = d.txHeld ∧ (d.onPins g).summary = d.summary ∧
    (d.onPins g).snapSeq = d.snapSeq ∧
    (d.onPins g).boot = d.boot ∧ (d.onPins g).sim = d.sim ∧ (d.onPins g).fwu = d.fwu ∧ (d.onPins g).cfg = d.cfg ∧
    (d.onPins g).mgmt = d.mgmt ∧ (d.onPins g).modes = d.modes ∧ (d.onPins g).pow = d.pow ∧ (d.onPins g).ipt = d.ipt ∧
    (d.onPins g).net = d.net ∧ (d.onPins g).nv = d.nv ∧ (d.onPins g).red = d.red ∧ (d.onPins g).cip = d.cip ∧ (d.onPins g).stg = d.stg ∧
    (d.onPins g).head = d.head ∧ (d.onPins g).snp = d.snp ∧ (d.onPins g).fl = d.fl ∧ (d.onPins g).free = d.free ∧
    (d.onPins g).out = d.out :=
  ⟨rfl, rfl, rfl, rfl, rfl, rfl, rfl, rfl, rfl, rfl, rfl, rfl, rfl, rfl, rfl, rfl, rfl, rfl, rfl, rfl, rfl, rfl, rfl, rfl, rfl, rfl, rfl, rfl⟩

@[simp] theorem onPins_get (d : Dev) (g : Pins → Pins) (f : Field) :
    (d.onPins g).get f = d.get f ∧ (d.onPins g).on f = d.on f ∧ (d.onPins g).getI f = d.getI f := ⟨rfl, rfl, rfl⟩

@[simp] theorem onSim_frame (d : Dev) (g : SimState → SimState) :
    (d.onSim g).regs = d.regs ∧ (d.onSim g).heldLow = d.heldLow ∧ (d.onSim g).msix = d.msix ∧ (d.onSim g).int = d.int ∧ (d.onSim g).evr = d.evr ∧
    (d.onSim g).cnt = d.cnt ∧ (d.onSim g).trc = d.trc ∧ (d.onSim g).txHeld = d.txHeld ∧ (d.onSim g).summary = d.summary ∧
    (d.onSim g).snapSeq = d.snapSeq ∧
    (d.onSim g).boot = d.boot ∧ (d.onSim g).fwu = d.fwu ∧ (d.onSim g).cfg = d.cfg ∧ (d.onSim g).mgmt = d.mgmt ∧
    (d.onSim g).modes = d.modes ∧ (d.onSim g).pow = d.pow ∧ (d.onSim g).pins = d.pins ∧ (d.onSim g).ipt = d.ipt ∧
    (d.onSim g).net = d.net ∧ (d.onSim g).nv = d.nv ∧ (d.onSim g).red = d.red ∧ (d.onSim g).cip = d.cip ∧ (d.onSim g).stg = d.stg ∧
    (d.onSim g).head = d.head ∧ (d.onSim g).snp = d.snp ∧ (d.onSim g).fl = d.fl ∧ (d.onSim g).free = d.free ∧ (d.onSim g).out = d.out :=
  ⟨rfl, rfl, rfl, rfl, rfl, rfl, rfl, rfl, rfl, rfl, rfl, rfl, rfl, rfl, rfl, rfl, rfl, rfl, rfl, rfl, rfl, rfl, rfl, rfl, rfl, rfl, rfl, rfl⟩

@[simp] theorem onSim_get (d : Dev) (g : SimState → SimState) (f : Field) :
    (d.onSim g).get f = d.get f ∧ (d.onSim g).on f = d.on f ∧ (d.onSim g).getI f = d.getI f := ⟨rfl, rfl, rfl⟩

@[simp] theorem onFwu_frame (d : Dev) (g : FwuState → FwuState) :
    (d.onFwu g).regs = d.regs ∧ (d.onFwu g).heldLow = d.heldLow ∧ (d.onFwu g).msix = d.msix ∧ (d.onFwu g).int = d.int ∧ (d.onFwu g).evr = d.evr ∧
    (d.onFwu g).cnt = d.cnt ∧ (d.onFwu g).trc = d.trc ∧ (d.onFwu g).txHeld = d.txHeld ∧ (d.onFwu g).summary = d.summary ∧
    (d.onFwu g).snapSeq = d.snapSeq ∧
    (d.onFwu g).boot = d.boot ∧ (d.onFwu g).sim = d.sim ∧ (d.onFwu g).cfg = d.cfg ∧ (d.onFwu g).mgmt = d.mgmt ∧
    (d.onFwu g).modes = d.modes ∧ (d.onFwu g).pow = d.pow ∧ (d.onFwu g).pins = d.pins ∧ (d.onFwu g).ipt = d.ipt ∧
    (d.onFwu g).net = d.net ∧ (d.onFwu g).nv = d.nv ∧ (d.onFwu g).red = d.red ∧ (d.onFwu g).cip = d.cip ∧ (d.onFwu g).stg = d.stg ∧
    (d.onFwu g).head = d.head ∧ (d.onFwu g).snp = d.snp ∧ (d.onFwu g).fl = d.fl ∧ (d.onFwu g).free = d.free ∧ (d.onFwu g).out = d.out :=
  ⟨rfl, rfl, rfl, rfl, rfl, rfl, rfl, rfl, rfl, rfl, rfl, rfl, rfl, rfl, rfl, rfl, rfl, rfl, rfl, rfl, rfl, rfl, rfl, rfl, rfl, rfl, rfl, rfl⟩

@[simp] theorem onFwu_get (d : Dev) (g : FwuState → FwuState) (f : Field) :
    (d.onFwu g).get f = d.get f ∧ (d.onFwu g).on f = d.on f ∧ (d.onFwu g).getI f = d.getI f := ⟨rfl, rfl, rfl⟩

@[simp] theorem onCfg_frame (d : Dev) (g : CfgState → CfgState) :
    (d.onCfg g).regs = d.regs ∧ (d.onCfg g).heldLow = d.heldLow ∧ (d.onCfg g).msix = d.msix ∧ (d.onCfg g).int = d.int ∧ (d.onCfg g).evr = d.evr ∧
    (d.onCfg g).cnt = d.cnt ∧ (d.onCfg g).trc = d.trc ∧ (d.onCfg g).txHeld = d.txHeld ∧ (d.onCfg g).summary = d.summary ∧
    (d.onCfg g).snapSeq = d.snapSeq ∧
    (d.onCfg g).boot = d.boot ∧ (d.onCfg g).sim = d.sim ∧ (d.onCfg g).fwu = d.fwu ∧ (d.onCfg g).mgmt = d.mgmt ∧
    (d.onCfg g).modes = d.modes ∧ (d.onCfg g).pow = d.pow ∧ (d.onCfg g).pins = d.pins ∧ (d.onCfg g).ipt = d.ipt ∧
    (d.onCfg g).net = d.net ∧ (d.onCfg g).nv = d.nv ∧ (d.onCfg g).red = d.red ∧ (d.onCfg g).cip = d.cip ∧ (d.onCfg g).stg = d.stg ∧
    (d.onCfg g).head = d.head ∧ (d.onCfg g).snp = d.snp ∧ (d.onCfg g).fl = d.fl ∧ (d.onCfg g).free = d.free ∧ (d.onCfg g).out = d.out :=
  ⟨rfl, rfl, rfl, rfl, rfl, rfl, rfl, rfl, rfl, rfl, rfl, rfl, rfl, rfl, rfl, rfl, rfl, rfl, rfl, rfl, rfl, rfl, rfl, rfl, rfl, rfl, rfl, rfl⟩

@[simp] theorem onCfg_get (d : Dev) (g : CfgState → CfgState) (f : Field) :
    (d.onCfg g).get f = d.get f ∧ (d.onCfg g).on f = d.on f ∧ (d.onCfg g).getI f = d.getI f := ⟨rfl, rfl, rfl⟩

@[simp] theorem onTime_frame (d : Dev) (g : TimeDom → TimeDom) :
    (d.onTime g).regs = d.regs ∧ (d.onTime g).heldLow = d.heldLow ∧ (d.onTime g).msix = d.msix ∧ (d.onTime g).int = d.int ∧
    (d.onTime g).evr = d.evr ∧
    (d.onTime g).cnt = d.cnt ∧ (d.onTime g).trc = d.trc ∧ (d.onTime g).txHeld = d.txHeld ∧ (d.onTime g).summary = d.summary ∧
    (d.onTime g).snapSeq = d.snapSeq ∧
    (d.onTime g).boot = d.boot ∧ (d.onTime g).sim = d.sim ∧ (d.onTime g).fwu = d.fwu ∧ (d.onTime g).cfg = d.cfg ∧
    (d.onTime g).mgmt = d.mgmt ∧ (d.onTime g).modes = d.modes ∧ (d.onTime g).pow = d.pow ∧ (d.onTime g).pins = d.pins ∧
    (d.onTime g).net = d.net ∧ (d.onTime g).nv = d.nv ∧ (d.onTime g).red = d.red ∧ (d.onTime g).cip = d.cip ∧ (d.onTime g).stg = d.stg ∧
    (d.onTime g).head = d.head ∧ (d.onTime g).snp = d.snp ∧ (d.onTime g).fl = d.fl ∧ (d.onTime g).free = d.free ∧
    (d.onTime g).out = d.out :=
  ⟨rfl, rfl, rfl, rfl, rfl, rfl, rfl, rfl, rfl, rfl, rfl, rfl, rfl, rfl, rfl, rfl, rfl, rfl, rfl, rfl, rfl, rfl, rfl, rfl, rfl, rfl, rfl, rfl⟩

@[simp] theorem onTime_get (d : Dev) (g : TimeDom → TimeDom) (f : Field) :
    (d.onTime g).get f = d.get f ∧ (d.onTime g).on f = d.on f ∧ (d.onTime g).getI f = d.getI f := ⟨rfl, rfl, rfl⟩

@[simp] theorem onNet_frame (d : Dev) (g : NetState → NetState) :
    (d.onNet g).regs = d.regs ∧ (d.onNet g).heldLow = d.heldLow ∧ (d.onNet g).msix = d.msix ∧ (d.onNet g).int = d.int ∧ (d.onNet g).evr = d.evr ∧
    (d.onNet g).cnt = d.cnt ∧ (d.onNet g).trc = d.trc ∧ (d.onNet g).txHeld = d.txHeld ∧ (d.onNet g).summary = d.summary ∧
    (d.onNet g).snapSeq = d.snapSeq ∧
    (d.onNet g).boot = d.boot ∧ (d.onNet g).sim = d.sim ∧ (d.onNet g).fwu = d.fwu ∧ (d.onNet g).cfg = d.cfg ∧ (d.onNet g).mgmt = d.mgmt ∧
    (d.onNet g).modes = d.modes ∧ (d.onNet g).pow = d.pow ∧ (d.onNet g).pins = d.pins ∧ (d.onNet g).ipt = d.ipt ∧ (d.onNet g).nv = d.nv ∧
    (d.onNet g).red = d.red ∧ (d.onNet g).cip = d.cip ∧ (d.onNet g).stg = d.stg ∧ (d.onNet g).head = d.head ∧ (d.onNet g).snp = d.snp ∧
    (d.onNet g).fl = d.fl ∧ (d.onNet g).free = d.free ∧ (d.onNet g).out = d.out :=
  ⟨rfl, rfl, rfl, rfl, rfl, rfl, rfl, rfl, rfl, rfl, rfl, rfl, rfl, rfl, rfl, rfl, rfl, rfl, rfl, rfl, rfl, rfl, rfl, rfl, rfl, rfl, rfl, rfl⟩

@[simp] theorem onNet_get (d : Dev) (g : NetState → NetState) (f : Field) :
    (d.onNet g).get f = d.get f ∧ (d.onNet g).on f = d.on f ∧ (d.onNet g).getI f = d.getI f := ⟨rfl, rfl, rfl⟩

@[simp] theorem onNv_frame (d : Dev) (g : NvState → NvState) :
    (d.onNv g).regs = d.regs ∧ (d.onNv g).heldLow = d.heldLow ∧ (d.onNv g).msix = d.msix ∧ (d.onNv g).int = d.int ∧ (d.onNv g).evr = d.evr ∧
    (d.onNv g).cnt = d.cnt ∧ (d.onNv g).trc = d.trc ∧ (d.onNv g).txHeld = d.txHeld ∧ (d.onNv g).summary = d.summary ∧
    (d.onNv g).snapSeq = d.snapSeq ∧
    (d.onNv g).boot = d.boot ∧ (d.onNv g).sim = d.sim ∧ (d.onNv g).fwu = d.fwu ∧ (d.onNv g).cfg = d.cfg ∧ (d.onNv g).mgmt = d.mgmt ∧
    (d.onNv g).modes = d.modes ∧ (d.onNv g).pow = d.pow ∧ (d.onNv g).pins = d.pins ∧ (d.onNv g).ipt = d.ipt ∧ (d.onNv g).net = d.net ∧
    (d.onNv g).red = d.red ∧ (d.onNv g).cip = d.cip ∧ (d.onNv g).stg = d.stg ∧ (d.onNv g).head = d.head ∧ (d.onNv g).snp = d.snp ∧
    (d.onNv g).fl = d.fl ∧ (d.onNv g).free = d.free ∧ (d.onNv g).out = d.out :=
  ⟨rfl, rfl, rfl, rfl, rfl, rfl, rfl, rfl, rfl, rfl, rfl, rfl, rfl, rfl, rfl, rfl, rfl, rfl, rfl, rfl, rfl, rfl, rfl, rfl, rfl, rfl, rfl, rfl⟩

@[simp] theorem onNv_get (d : Dev) (g : NvState → NvState) (f : Field) :
    (d.onNv g).get f = d.get f ∧ (d.onNv g).on f = d.on f ∧ (d.onNv g).getI f = d.getI f := ⟨rfl, rfl, rfl⟩

@[simp] theorem onRed_frame (d : Dev) (g : RedState → RedState) :
    (d.onRed g).regs = d.regs ∧ (d.onRed g).heldLow = d.heldLow ∧ (d.onRed g).msix = d.msix ∧ (d.onRed g).int = d.int ∧ (d.onRed g).evr = d.evr ∧
    (d.onRed g).cnt = d.cnt ∧ (d.onRed g).trc = d.trc ∧ (d.onRed g).txHeld = d.txHeld ∧ (d.onRed g).summary = d.summary ∧
    (d.onRed g).snapSeq = d.snapSeq ∧
    (d.onRed g).boot = d.boot ∧ (d.onRed g).sim = d.sim ∧ (d.onRed g).fwu = d.fwu ∧ (d.onRed g).cfg = d.cfg ∧ (d.onRed g).mgmt = d.mgmt ∧
    (d.onRed g).modes = d.modes ∧ (d.onRed g).pow = d.pow ∧ (d.onRed g).pins = d.pins ∧ (d.onRed g).ipt = d.ipt ∧
    (d.onRed g).net = d.net ∧ (d.onRed g).nv = d.nv ∧ (d.onRed g).cip = d.cip ∧ (d.onRed g).stg = d.stg ∧ (d.onRed g).head = d.head ∧
    (d.onRed g).snp = d.snp ∧ (d.onRed g).fl = d.fl ∧ (d.onRed g).free = d.free ∧ (d.onRed g).out = d.out :=
  ⟨rfl, rfl, rfl, rfl, rfl, rfl, rfl, rfl, rfl, rfl, rfl, rfl, rfl, rfl, rfl, rfl, rfl, rfl, rfl, rfl, rfl, rfl, rfl, rfl, rfl, rfl, rfl, rfl⟩

@[simp] theorem onRed_get (d : Dev) (g : RedState → RedState) (f : Field) :
    (d.onRed g).get f = d.get f ∧ (d.onRed g).on f = d.on f ∧ (d.onRed g).getI f = d.getI f := ⟨rfl, rfl, rfl⟩

@[simp] theorem onCip_frame (d : Dev) (g : CipState → CipState) :
    (d.onCip g).regs = d.regs ∧ (d.onCip g).heldLow = d.heldLow ∧ (d.onCip g).msix = d.msix ∧ (d.onCip g).int = d.int ∧ (d.onCip g).evr = d.evr ∧
    (d.onCip g).cnt = d.cnt ∧ (d.onCip g).trc = d.trc ∧ (d.onCip g).txHeld = d.txHeld ∧ (d.onCip g).summary = d.summary ∧
    (d.onCip g).snapSeq = d.snapSeq ∧
    (d.onCip g).boot = d.boot ∧ (d.onCip g).sim = d.sim ∧ (d.onCip g).fwu = d.fwu ∧ (d.onCip g).cfg = d.cfg ∧ (d.onCip g).mgmt = d.mgmt ∧
    (d.onCip g).modes = d.modes ∧ (d.onCip g).pow = d.pow ∧ (d.onCip g).pins = d.pins ∧ (d.onCip g).ipt = d.ipt ∧
    (d.onCip g).net = d.net ∧ (d.onCip g).nv = d.nv ∧ (d.onCip g).red = d.red ∧ (d.onCip g).stg = d.stg ∧ (d.onCip g).head = d.head ∧
    (d.onCip g).snp = d.snp ∧ (d.onCip g).fl = d.fl ∧ (d.onCip g).free = d.free ∧ (d.onCip g).out = d.out :=
  ⟨rfl, rfl, rfl, rfl, rfl, rfl, rfl, rfl, rfl, rfl, rfl, rfl, rfl, rfl, rfl, rfl, rfl, rfl, rfl, rfl, rfl, rfl, rfl, rfl, rfl, rfl, rfl, rfl⟩

@[simp] theorem onCip_get (d : Dev) (g : CipState → CipState) (f : Field) :
    (d.onCip g).get f = d.get f ∧ (d.onCip g).on f = d.on f ∧ (d.onCip g).getI f = d.getI f := ⟨rfl, rfl, rfl⟩

@[simp] theorem onStg_frame (d : Dev) (g : StgState → StgState) :
    (d.onStg g).regs = d.regs ∧ (d.onStg g).heldLow = d.heldLow ∧ (d.onStg g).msix = d.msix ∧ (d.onStg g).int = d.int ∧ (d.onStg g).evr = d.evr ∧
    (d.onStg g).cnt = d.cnt ∧ (d.onStg g).trc = d.trc ∧ (d.onStg g).txHeld = d.txHeld ∧ (d.onStg g).summary = d.summary ∧
    (d.onStg g).snapSeq = d.snapSeq ∧
    (d.onStg g).boot = d.boot ∧ (d.onStg g).sim = d.sim ∧ (d.onStg g).fwu = d.fwu ∧ (d.onStg g).cfg = d.cfg ∧ (d.onStg g).mgmt = d.mgmt ∧
    (d.onStg g).modes = d.modes ∧ (d.onStg g).pow = d.pow ∧ (d.onStg g).pins = d.pins ∧ (d.onStg g).ipt = d.ipt ∧
    (d.onStg g).net = d.net ∧ (d.onStg g).nv = d.nv ∧ (d.onStg g).red = d.red ∧ (d.onStg g).cip = d.cip ∧ (d.onStg g).head = d.head ∧
    (d.onStg g).snp = d.snp ∧ (d.onStg g).fl = d.fl ∧ (d.onStg g).free = d.free ∧ (d.onStg g).out = d.out :=
  ⟨rfl, rfl, rfl, rfl, rfl, rfl, rfl, rfl, rfl, rfl, rfl, rfl, rfl, rfl, rfl, rfl, rfl, rfl, rfl, rfl, rfl, rfl, rfl, rfl, rfl, rfl, rfl, rfl⟩

@[simp] theorem onStg_get (d : Dev) (g : StgState → StgState) (f : Field) :
    (d.onStg g).get f = d.get f ∧ (d.onStg g).on f = d.on f ∧ (d.onStg g).getI f = d.getI f := ⟨rfl, rfl, rfl⟩

@[simp] theorem onHead_frame (d : Dev) (g : HeadState → HeadState) :
    (d.onHead g).regs = d.regs ∧ (d.onHead g).heldLow = d.heldLow ∧ (d.onHead g).msix = d.msix ∧ (d.onHead g).int = d.int ∧
    (d.onHead g).evr = d.evr ∧
    (d.onHead g).cnt = d.cnt ∧ (d.onHead g).trc = d.trc ∧ (d.onHead g).txHeld = d.txHeld ∧ (d.onHead g).summary = d.summary ∧
    (d.onHead g).snapSeq = d.snapSeq ∧
    (d.onHead g).boot = d.boot ∧ (d.onHead g).sim = d.sim ∧ (d.onHead g).fwu = d.fwu ∧ (d.onHead g).cfg = d.cfg ∧
    (d.onHead g).mgmt = d.mgmt ∧ (d.onHead g).modes = d.modes ∧ (d.onHead g).pow = d.pow ∧ (d.onHead g).pins = d.pins ∧
    (d.onHead g).ipt = d.ipt ∧ (d.onHead g).net = d.net ∧ (d.onHead g).nv = d.nv ∧ (d.onHead g).red = d.red ∧ (d.onHead g).cip = d.cip ∧
    (d.onHead g).stg = d.stg ∧ (d.onHead g).snp = d.snp ∧ (d.onHead g).fl = d.fl ∧ (d.onHead g).free = d.free ∧
    (d.onHead g).out = d.out :=
  ⟨rfl, rfl, rfl, rfl, rfl, rfl, rfl, rfl, rfl, rfl, rfl, rfl, rfl, rfl, rfl, rfl, rfl, rfl, rfl, rfl, rfl, rfl, rfl, rfl, rfl, rfl, rfl, rfl⟩

@[simp] theorem onHead_get (d : Dev) (g : HeadState → HeadState) (f : Field) :
    (d.onHead g).get f = d.get f ∧ (d.onHead g).on f = d.on f ∧ (d.onHead g).getI f = d.getI f := ⟨rfl, rfl, rfl⟩

@[simp] theorem onPool_frame (d : Dev) (k : Nat) (g : Pool → Pool) :
    (d.onPool k g).regs = d.regs ∧ (d.onPool k g).heldLow = d.heldLow ∧ (d.onPool k g).msix = d.msix ∧ (d.onPool k g).int = d.int ∧
    (d.onPool k g).evr = d.evr ∧
    (d.onPool k g).cnt = d.cnt ∧ (d.onPool k g).trc = d.trc ∧ (d.onPool k g).txHeld = d.txHeld ∧ (d.onPool k g).summary = d.summary ∧
    (d.onPool k g).snapSeq = d.snapSeq ∧
    (d.onPool k g).boot = d.boot ∧ (d.onPool k g).sim = d.sim ∧ (d.onPool k g).fwu = d.fwu ∧ (d.onPool k g).cfg = d.cfg ∧
    (d.onPool k g).mgmt = d.mgmt ∧ (d.onPool k g).modes = d.modes ∧ (d.onPool k g).pow = d.pow ∧ (d.onPool k g).pins = d.pins ∧
    (d.onPool k g).ipt = d.ipt ∧ (d.onPool k g).net = d.net ∧ (d.onPool k g).nv = d.nv ∧ (d.onPool k g).red = d.red ∧
    (d.onPool k g).cip = d.cip ∧ (d.onPool k g).stg = d.stg ∧ (d.onPool k g).head = d.head ∧ (d.onPool k g).snp = d.snp ∧
    (d.onPool k g).free = d.free ∧ (d.onPool k g).out = d.out :=
  ⟨rfl, rfl, rfl, rfl, rfl, rfl, rfl, rfl, rfl, rfl, rfl, rfl, rfl, rfl, rfl, rfl, rfl, rfl, rfl, rfl, rfl, rfl, rfl, rfl, rfl, rfl, rfl, rfl⟩

@[simp] theorem onPool_get (d : Dev) (k : Nat) (g : Pool → Pool) (f : Field) :
    (d.onPool k g).get f = d.get f ∧ (d.onPool k g).on f = d.on f ∧ (d.onPool k g).getI f = d.getI f := ⟨rfl, rfl, rfl⟩

@[simp] theorem onLane_frame (d : Dev) (k : Nat) (g : Lane → Lane) :
    (d.onLane k g).regs = d.regs ∧ (d.onLane k g).heldLow = d.heldLow ∧ (d.onLane k g).msix = d.msix ∧ (d.onLane k g).int = d.int ∧
    (d.onLane k g).evr = d.evr ∧
    (d.onLane k g).cnt = d.cnt ∧ (d.onLane k g).trc = d.trc ∧ (d.onLane k g).txHeld = d.txHeld ∧ (d.onLane k g).summary = d.summary ∧
    (d.onLane k g).snapSeq = d.snapSeq ∧
    (d.onLane k g).boot = d.boot ∧ (d.onLane k g).sim = d.sim ∧ (d.onLane k g).fwu = d.fwu ∧ (d.onLane k g).cfg = d.cfg ∧
    (d.onLane k g).mgmt = d.mgmt ∧ (d.onLane k g).modes = d.modes ∧ (d.onLane k g).pow = d.pow ∧ (d.onLane k g).pins = d.pins ∧
    (d.onLane k g).ipt = d.ipt ∧ (d.onLane k g).net = d.net ∧ (d.onLane k g).nv = d.nv ∧ (d.onLane k g).red = d.red ∧
    (d.onLane k g).cip = d.cip ∧ (d.onLane k g).stg = d.stg ∧ (d.onLane k g).head = d.head ∧ (d.onLane k g).snp = d.snp ∧
    (d.onLane k g).free = d.free ∧ (d.onLane k g).out = d.out :=
  ⟨rfl, rfl, rfl, rfl, rfl, rfl, rfl, rfl, rfl, rfl, rfl, rfl, rfl, rfl, rfl, rfl, rfl, rfl, rfl, rfl, rfl, rfl, rfl, rfl, rfl, rfl, rfl, rfl⟩

@[simp] theorem onLane_get (d : Dev) (k : Nat) (g : Lane → Lane) (f : Field) :
    (d.onLane k g).get f = d.get f ∧ (d.onLane k g).on f = d.on f ∧ (d.onLane k g).getI f = d.getI f := ⟨rfl, rfl, rfl⟩

@[simp] theorem onFetch_frame (d : Dev) (k : Nat) (g : Fetch → Fetch) :
    (d.onFetch k g).regs = d.regs ∧ (d.onFetch k g).heldLow = d.heldLow ∧ (d.onFetch k g).msix = d.msix ∧ (d.onFetch k g).int = d.int ∧
    (d.onFetch k g).evr = d.evr ∧
    (d.onFetch k g).cnt = d.cnt ∧ (d.onFetch k g).trc = d.trc ∧ (d.onFetch k g).txHeld = d.txHeld ∧ (d.onFetch k g).summary = d.summary ∧
    (d.onFetch k g).snapSeq = d.snapSeq ∧ (d.onFetch k g).boot = d.boot ∧ (d.onFetch k g).sim = d.sim ∧ (d.onFetch k g).fwu = d.fwu ∧
    (d.onFetch k g).cfg = d.cfg ∧ (d.onFetch k g).mgmt = d.mgmt ∧ (d.onFetch k g).modes = d.modes ∧ (d.onFetch k g).pow = d.pow ∧
    (d.onFetch k g).pins = d.pins ∧ (d.onFetch k g).ipt = d.ipt ∧ (d.onFetch k g).net = d.net ∧ (d.onFetch k g).nv = d.nv ∧
    (d.onFetch k g).red = d.red ∧ (d.onFetch k g).cip = d.cip ∧ (d.onFetch k g).stg = d.stg ∧ (d.onFetch k g).head = d.head ∧
    (d.onFetch k g).snp = d.snp ∧ (d.onFetch k g).free = d.free ∧ (d.onFetch k g).out = d.out :=
  ⟨rfl, rfl, rfl, rfl, rfl, rfl, rfl, rfl, rfl, rfl, rfl, rfl, rfl, rfl, rfl, rfl, rfl, rfl, rfl, rfl, rfl, rfl, rfl, rfl, rfl, rfl, rfl, rfl⟩

@[simp] theorem onFetch_get (d : Dev) (k : Nat) (g : Fetch → Fetch) (f : Field) :
    (d.onFetch k g).get f = d.get f ∧ (d.onFetch k g).on f = d.on f ∧ (d.onFetch k g).getI f = d.getI f := ⟨rfl, rfl, rfl⟩

@[simp] theorem onNs_frame (d : Dev) (k : Nat) (g : Ns → Ns) :
    (d.onNs k g).regs = d.regs ∧ (d.onNs k g).heldLow = d.heldLow ∧ (d.onNs k g).msix = d.msix ∧ (d.onNs k g).int = d.int ∧
    (d.onNs k g).evr = d.evr ∧
    (d.onNs k g).cnt = d.cnt ∧ (d.onNs k g).trc = d.trc ∧ (d.onNs k g).txHeld = d.txHeld ∧ (d.onNs k g).summary = d.summary ∧
    (d.onNs k g).snapSeq = d.snapSeq ∧
    (d.onNs k g).boot = d.boot ∧ (d.onNs k g).sim = d.sim ∧ (d.onNs k g).fwu = d.fwu ∧ (d.onNs k g).cfg = d.cfg ∧
    (d.onNs k g).mgmt = d.mgmt ∧ (d.onNs k g).modes = d.modes ∧ (d.onNs k g).pow = d.pow ∧ (d.onNs k g).pins = d.pins ∧
    (d.onNs k g).ipt = d.ipt ∧ (d.onNs k g).net = d.net ∧ (d.onNs k g).nv = d.nv ∧ (d.onNs k g).red = d.red ∧ (d.onNs k g).cip = d.cip ∧
    (d.onNs k g).stg = d.stg ∧ (d.onNs k g).head = d.head ∧ (d.onNs k g).fl = d.fl ∧ (d.onNs k g).free = d.free ∧
    (d.onNs k g).out = d.out :=
  ⟨rfl, rfl, rfl, rfl, rfl, rfl, rfl, rfl, rfl, rfl, rfl, rfl, rfl, rfl, rfl, rfl, rfl, rfl, rfl, rfl, rfl, rfl, rfl, rfl, rfl, rfl, rfl, rfl⟩

@[simp] theorem onNs_get (d : Dev) (k : Nat) (g : Ns → Ns) (f : Field) :
    (d.onNs k g).get f = d.get f ∧ (d.onNs k g).on f = d.on f ∧ (d.onNs k g).getI f = d.getI f := ⟨rfl, rfl, rfl⟩

@[simp] theorem onCar_frame (d : Dev) (k : Nat) (g : Caravan → Caravan) :
    (d.onCar k g).regs = d.regs ∧ (d.onCar k g).heldLow = d.heldLow ∧ (d.onCar k g).msix = d.msix ∧ (d.onCar k g).int = d.int ∧
    (d.onCar k g).evr = d.evr ∧
    (d.onCar k g).cnt = d.cnt ∧ (d.onCar k g).trc = d.trc ∧ (d.onCar k g).txHeld = d.txHeld ∧ (d.onCar k g).summary = d.summary ∧
    (d.onCar k g).snapSeq = d.snapSeq ∧
    (d.onCar k g).boot = d.boot ∧ (d.onCar k g).sim = d.sim ∧ (d.onCar k g).fwu = d.fwu ∧ (d.onCar k g).cfg = d.cfg ∧
    (d.onCar k g).mgmt = d.mgmt ∧ (d.onCar k g).modes = d.modes ∧ (d.onCar k g).pow = d.pow ∧ (d.onCar k g).pins = d.pins ∧
    (d.onCar k g).ipt = d.ipt ∧ (d.onCar k g).net = d.net ∧ (d.onCar k g).nv = d.nv ∧ (d.onCar k g).red = d.red ∧
    (d.onCar k g).cip = d.cip ∧ (d.onCar k g).stg = d.stg ∧ (d.onCar k g).head = d.head ∧ (d.onCar k g).fl = d.fl ∧
    (d.onCar k g).free = d.free ∧ (d.onCar k g).out = d.out :=
  ⟨rfl, rfl, rfl, rfl, rfl, rfl, rfl, rfl, rfl, rfl, rfl, rfl, rfl, rfl, rfl, rfl, rfl, rfl, rfl, rfl, rfl, rfl, rfl, rfl, rfl, rfl, rfl, rfl⟩

@[simp] theorem onCar_get (d : Dev) (k : Nat) (g : Caravan → Caravan) (f : Field) :
    (d.onCar k g).get f = d.get f ∧ (d.onCar k g).on f = d.on f ∧ (d.onCar k g).getI f = d.getI f := ⟨rfl, rfl, rfl⟩

@[simp] theorem onChan_frame (d : Dev) (k : Nat) (g : Chan → Chan) :
    (d.onChan k g).regs = d.regs ∧ (d.onChan k g).heldLow = d.heldLow ∧ (d.onChan k g).msix = d.msix ∧ (d.onChan k g).int = d.int ∧
    (d.onChan k g).evr = d.evr ∧
    (d.onChan k g).cnt = d.cnt ∧ (d.onChan k g).trc = d.trc ∧ (d.onChan k g).txHeld = d.txHeld ∧ (d.onChan k g).summary = d.summary ∧
    (d.onChan k g).snapSeq = d.snapSeq ∧
    (d.onChan k g).boot = d.boot ∧ (d.onChan k g).sim = d.sim ∧ (d.onChan k g).fwu = d.fwu ∧ (d.onChan k g).cfg = d.cfg ∧
    (d.onChan k g).mgmt = d.mgmt ∧ (d.onChan k g).modes = d.modes ∧ (d.onChan k g).pow = d.pow ∧ (d.onChan k g).pins = d.pins ∧
    (d.onChan k g).net = d.net ∧ (d.onChan k g).nv = d.nv ∧ (d.onChan k g).red = d.red ∧ (d.onChan k g).cip = d.cip ∧
    (d.onChan k g).stg = d.stg ∧ (d.onChan k g).head = d.head ∧ (d.onChan k g).snp = d.snp ∧ (d.onChan k g).fl = d.fl ∧
    (d.onChan k g).free = d.free ∧ (d.onChan k g).out = d.out :=
  ⟨rfl, rfl, rfl, rfl, rfl, rfl, rfl, rfl, rfl, rfl, rfl, rfl, rfl, rfl, rfl, rfl, rfl, rfl, rfl, rfl, rfl, rfl, rfl, rfl, rfl, rfl, rfl, rfl⟩

@[simp] theorem onChan_get (d : Dev) (k : Nat) (g : Chan → Chan) (f : Field) :
    (d.onChan k g).get f = d.get f ∧ (d.onChan k g).on f = d.on f ∧ (d.onChan k g).getI f = d.getI f := ⟨rfl, rfl, rfl⟩

@[simp] theorem onWin_frame (d : Dev) (k : Nat) (g : Win → Win) :
    (d.onWin k g).regs = d.regs ∧ (d.onWin k g).heldLow = d.heldLow ∧ (d.onWin k g).msix = d.msix ∧ (d.onWin k g).int = d.int ∧
    (d.onWin k g).evr = d.evr ∧
    (d.onWin k g).cnt = d.cnt ∧ (d.onWin k g).trc = d.trc ∧ (d.onWin k g).txHeld = d.txHeld ∧ (d.onWin k g).summary = d.summary ∧
    (d.onWin k g).snapSeq = d.snapSeq ∧
    (d.onWin k g).boot = d.boot ∧ (d.onWin k g).sim = d.sim ∧ (d.onWin k g).fwu = d.fwu ∧ (d.onWin k g).cfg = d.cfg ∧
    (d.onWin k g).mgmt = d.mgmt ∧ (d.onWin k g).modes = d.modes ∧ (d.onWin k g).pow = d.pow ∧ (d.onWin k g).pins = d.pins ∧
    (d.onWin k g).ipt = d.ipt ∧ (d.onWin k g).nv = d.nv ∧ (d.onWin k g).red = d.red ∧ (d.onWin k g).cip = d.cip ∧
    (d.onWin k g).stg = d.stg ∧ (d.onWin k g).head = d.head ∧ (d.onWin k g).snp = d.snp ∧ (d.onWin k g).fl = d.fl ∧
    (d.onWin k g).free = d.free ∧ (d.onWin k g).out = d.out :=
  ⟨rfl, rfl, rfl, rfl, rfl, rfl, rfl, rfl, rfl, rfl, rfl, rfl, rfl, rfl, rfl, rfl, rfl, rfl, rfl, rfl, rfl, rfl, rfl, rfl, rfl, rfl, rfl, rfl⟩

@[simp] theorem onWin_get (d : Dev) (k : Nat) (g : Win → Win) (f : Field) :
    (d.onWin k g).get f = d.get f ∧ (d.onWin k g).on f = d.on f ∧ (d.onWin k g).getI f = d.getI f := ⟨rfl, rfl, rfl⟩

@[simp] theorem onQp_frame (d : Dev) (k : Nat) (g : Qp → Qp) :
    (d.onQp k g).regs = d.regs ∧ (d.onQp k g).heldLow = d.heldLow ∧ (d.onQp k g).msix = d.msix ∧ (d.onQp k g).int = d.int ∧
    (d.onQp k g).evr = d.evr ∧
    (d.onQp k g).cnt = d.cnt ∧ (d.onQp k g).trc = d.trc ∧ (d.onQp k g).txHeld = d.txHeld ∧ (d.onQp k g).summary = d.summary ∧
    (d.onQp k g).snapSeq = d.snapSeq ∧
    (d.onQp k g).boot = d.boot ∧ (d.onQp k g).sim = d.sim ∧ (d.onQp k g).fwu = d.fwu ∧ (d.onQp k g).cfg = d.cfg ∧
    (d.onQp k g).mgmt = d.mgmt ∧ (d.onQp k g).modes = d.modes ∧ (d.onQp k g).pow = d.pow ∧ (d.onQp k g).pins = d.pins ∧
    (d.onQp k g).ipt = d.ipt ∧ (d.onQp k g).nv = d.nv ∧ (d.onQp k g).red = d.red ∧ (d.onQp k g).cip = d.cip ∧ (d.onQp k g).stg = d.stg ∧
    (d.onQp k g).head = d.head ∧ (d.onQp k g).snp = d.snp ∧ (d.onQp k g).fl = d.fl ∧ (d.onQp k g).free = d.free ∧
    (d.onQp k g).out = d.out :=
  ⟨rfl, rfl, rfl, rfl, rfl, rfl, rfl, rfl, rfl, rfl, rfl, rfl, rfl, rfl, rfl, rfl, rfl, rfl, rfl, rfl, rfl, rfl, rfl, rfl, rfl, rfl, rfl, rfl⟩

@[simp] theorem onQp_get (d : Dev) (k : Nat) (g : Qp → Qp) (f : Field) :
    (d.onQp k g).get f = d.get f ∧ (d.onQp k g).on f = d.on f ∧ (d.onQp k g).getI f = d.getI f := ⟨rfl, rfl, rfl⟩

@[simp] theorem onCtrl_frame (d : Dev) (k : Nat) (g : Ctrl → Ctrl) :
    (d.onCtrl k g).regs = d.regs ∧ (d.onCtrl k g).heldLow = d.heldLow ∧ (d.onCtrl k g).msix = d.msix ∧ (d.onCtrl k g).int = d.int ∧
    (d.onCtrl k g).evr = d.evr ∧
    (d.onCtrl k g).cnt = d.cnt ∧ (d.onCtrl k g).trc = d.trc ∧ (d.onCtrl k g).txHeld = d.txHeld ∧ (d.onCtrl k g).summary = d.summary ∧
    (d.onCtrl k g).snapSeq = d.snapSeq ∧
    (d.onCtrl k g).boot = d.boot ∧ (d.onCtrl k g).sim = d.sim ∧ (d.onCtrl k g).fwu = d.fwu ∧ (d.onCtrl k g).cfg = d.cfg ∧
    (d.onCtrl k g).mgmt = d.mgmt ∧ (d.onCtrl k g).modes = d.modes ∧ (d.onCtrl k g).pow = d.pow ∧ (d.onCtrl k g).pins = d.pins ∧
    (d.onCtrl k g).ipt = d.ipt ∧ (d.onCtrl k g).net = d.net ∧ (d.onCtrl k g).red = d.red ∧ (d.onCtrl k g).cip = d.cip ∧
    (d.onCtrl k g).stg = d.stg ∧ (d.onCtrl k g).head = d.head ∧ (d.onCtrl k g).snp = d.snp ∧ (d.onCtrl k g).fl = d.fl ∧
    (d.onCtrl k g).free = d.free ∧ (d.onCtrl k g).out = d.out :=
  ⟨rfl, rfl, rfl, rfl, rfl, rfl, rfl, rfl, rfl, rfl, rfl, rfl, rfl, rfl, rfl, rfl, rfl, rfl, rfl, rfl, rfl, rfl, rfl, rfl, rfl, rfl, rfl, rfl⟩

@[simp] theorem onCtrl_get (d : Dev) (k : Nat) (g : Ctrl → Ctrl) (f : Field) :
    (d.onCtrl k g).get f = d.get f ∧ (d.onCtrl k g).on f = d.on f ∧ (d.onCtrl k g).getI f = d.getI f := ⟨rfl, rfl, rfl⟩

@[simp] theorem onDie_frame (d : Dev) (k i : Nat) (g : DieState → DieState) :
    (d.onDie k i g).regs = d.regs ∧ (d.onDie k i g).heldLow = d.heldLow ∧ (d.onDie k i g).msix = d.msix ∧ (d.onDie k i g).int = d.int ∧
    (d.onDie k i g).evr = d.evr ∧
    (d.onDie k i g).cnt = d.cnt ∧ (d.onDie k i g).trc = d.trc ∧ (d.onDie k i g).txHeld = d.txHeld ∧ (d.onDie k i g).summary = d.summary ∧
    (d.onDie k i g).snapSeq = d.snapSeq ∧ (d.onDie k i g).boot = d.boot ∧ (d.onDie k i g).sim = d.sim ∧ (d.onDie k i g).fwu = d.fwu ∧
    (d.onDie k i g).cfg = d.cfg ∧ (d.onDie k i g).mgmt = d.mgmt ∧ (d.onDie k i g).modes = d.modes ∧ (d.onDie k i g).pow = d.pow ∧
    (d.onDie k i g).pins = d.pins ∧ (d.onDie k i g).ipt = d.ipt ∧ (d.onDie k i g).net = d.net ∧ (d.onDie k i g).nv = d.nv ∧
    (d.onDie k i g).red = d.red ∧ (d.onDie k i g).cip = d.cip ∧ (d.onDie k i g).stg = d.stg ∧ (d.onDie k i g).head = d.head ∧
    (d.onDie k i g).snp = d.snp ∧ (d.onDie k i g).free = d.free ∧ (d.onDie k i g).out = d.out :=
  ⟨rfl, rfl, rfl, rfl, rfl, rfl, rfl, rfl, rfl, rfl, rfl, rfl, rfl, rfl, rfl, rfl, rfl, rfl, rfl, rfl, rfl, rfl, rfl, rfl, rfl, rfl, rfl, rfl⟩

@[simp] theorem onDie_get (d : Dev) (k i : Nat) (g : DieState → DieState) (f : Field) :
    (d.onDie k i g).get f = d.get f ∧ (d.onDie k i g).on f = d.on f ∧ (d.onDie k i g).getI f = d.getI f := ⟨rfl, rfl, rfl⟩

@[simp] theorem message_frame (d : Dev) (v : Nat) :
    (d.message v).regs = d.regs ∧ (d.message v).heldLow = d.heldLow ∧ (d.message v).int = d.int ∧ (d.message v).evr = d.evr ∧
    (d.message v).cnt = d.cnt ∧ (d.message v).trc = d.trc ∧ (d.message v).summary = d.summary ∧ (d.message v).snapSeq = d.snapSeq ∧
    (d.message v).boot = d.boot ∧ (d.message v).sim = d.sim ∧ (d.message v).fwu = d.fwu ∧ (d.message v).cfg = d.cfg ∧
    (d.message v).mgmt = d.mgmt ∧ (d.message v).modes = d.modes ∧ (d.message v).pow = d.pow ∧ (d.message v).pins = d.pins ∧
    (d.message v).ipt = d.ipt ∧ (d.message v).net = d.net ∧ (d.message v).txHeld = d.txHeld ∧ (d.message v).nv = d.nv ∧
    (d.message v).red = d.red ∧ (d.message v).cip = d.cip ∧ (d.message v).stg = d.stg ∧ (d.message v).head = d.head ∧
    (d.message v).snp = d.snp ∧ (d.message v).fl = d.fl ∧ (d.message v).free = d.free :=
  ⟨rfl, rfl, rfl, rfl, rfl, rfl, rfl, rfl, rfl, rfl, rfl, rfl, rfl, rfl, rfl, rfl, rfl, rfl, rfl, rfl, rfl, rfl, rfl, rfl, rfl, rfl, rfl⟩

@[simp] theorem message_get (d : Dev) (v : Nat) (f : Field) :
    (d.message v).get f = d.get f ∧ (d.message v).on f = d.on f ∧ (d.message v).getI f = d.getI f := ⟨rfl, rfl, rfl⟩

@[simp] theorem fresh_frame (d : Dev) :
    d.fresh.2.regs = d.regs ∧ d.fresh.2.heldLow = d.heldLow ∧ d.fresh.2.int = d.int ∧ d.fresh.2.msix = d.msix ∧ d.fresh.2.evr = d.evr ∧
    d.fresh.2.cnt = d.cnt ∧ d.fresh.2.trc = d.trc ∧ d.fresh.2.summary = d.summary ∧ d.fresh.2.snapSeq = d.snapSeq ∧
    d.fresh.2.boot = d.boot ∧ d.fresh.2.sim = d.sim ∧ d.fresh.2.fwu = d.fwu ∧ d.fresh.2.cfg = d.cfg ∧ d.fresh.2.mgmt = d.mgmt ∧
    d.fresh.2.modes = d.modes ∧ d.fresh.2.pow = d.pow ∧ d.fresh.2.pins = d.pins ∧ d.fresh.2.ipt = d.ipt ∧ d.fresh.2.net = d.net ∧
    d.fresh.2.txHeld = d.txHeld ∧ d.fresh.2.nv = d.nv ∧ d.fresh.2.red = d.red ∧ d.fresh.2.cip = d.cip ∧ d.fresh.2.stg = d.stg ∧
    d.fresh.2.head = d.head ∧ d.fresh.2.snp = d.snp ∧ d.fresh.2.fl = d.fl ∧ d.fresh.2.out = d.out :=
  ⟨rfl, rfl, rfl, rfl, rfl, rfl, rfl, rfl, rfl, rfl, rfl, rfl, rfl, rfl, rfl, rfl, rfl, rfl, rfl, rfl, rfl, rfl, rfl, rfl, rfl, rfl, rfl, rfl⟩

@[simp] theorem fresh_get (d : Dev) (f : Field) :
    d.fresh.2.get f = d.get f ∧ d.fresh.2.on f = d.on f ∧ d.fresh.2.getI f = d.getI f := ⟨rfl, rfl, rfl⟩

@[simp] theorem qpTo_frame (d : Dev) (q : Nat) (st : QpState) :
    (d.qpTo q st).regs = d.regs ∧ (d.qpTo q st).heldLow = d.heldLow ∧ (d.qpTo q st).int = d.int ∧ (d.qpTo q st).msix = d.msix ∧
    (d.qpTo q st).evr = d.evr ∧ (d.qpTo q st).cnt = d.cnt ∧ (d.qpTo q st).summary = d.summary ∧ (d.qpTo q st).snapSeq = d.snapSeq ∧
    (d.qpTo q st).boot = d.boot ∧ (d.qpTo q st).sim = d.sim ∧ (d.qpTo q st).fwu = d.fwu ∧ (d.qpTo q st).cfg = d.cfg ∧
    (d.qpTo q st).mgmt = d.mgmt ∧ (d.qpTo q st).modes = d.modes ∧ (d.qpTo q st).pow = d.pow ∧ (d.qpTo q st).pins = d.pins ∧
    (d.qpTo q st).ipt = d.ipt ∧ (d.qpTo q st).txHeld = d.txHeld ∧ (d.qpTo q st).nv = d.nv ∧ (d.qpTo q st).red = d.red ∧
    (d.qpTo q st).cip = d.cip ∧ (d.qpTo q st).stg = d.stg ∧ (d.qpTo q st).head = d.head ∧ (d.qpTo q st).snp = d.snp ∧
    (d.qpTo q st).fl = d.fl ∧ (d.qpTo q st).free = d.free :=
  ⟨rfl, rfl, rfl, rfl, rfl, rfl, rfl, rfl, rfl, rfl, rfl, rfl, rfl, rfl, rfl, rfl, rfl, rfl, rfl, rfl, rfl, rfl, rfl, rfl, rfl, rfl⟩

@[simp] theorem qpTo_get (d : Dev) (q : Nat) (st : QpState) (f : Field) :
    (d.qpTo q st).get f = d.get f ∧ (d.qpTo q st).on f = d.on f ∧ (d.qpTo q st).getI f = d.getI f := ⟨rfl, rfl, rfl⟩

@[simp] theorem onStripe_frame (d : Dev) (p i : Nat) (g : Stripe → Stripe) :
    (d.onStripe p i g).regs = d.regs ∧ (d.onStripe p i g).heldLow = d.heldLow ∧ (d.onStripe p i g).int = d.int ∧
    (d.onStripe p i g).msix = d.msix ∧ (d.onStripe p i g).evr = d.evr ∧ (d.onStripe p i g).cnt = d.cnt ∧ (d.onStripe p i g).trc = d.trc ∧
    (d.onStripe p i g).summary = d.summary ∧ (d.onStripe p i g).snapSeq = d.snapSeq ∧ (d.onStripe p i g).boot = d.boot ∧
    (d.onStripe p i g).sim = d.sim ∧ (d.onStripe p i g).fwu = d.fwu ∧ (d.onStripe p i g).cfg = d.cfg ∧ (d.onStripe p i g).mgmt = d.mgmt ∧
    (d.onStripe p i g).modes = d.modes ∧ (d.onStripe p i g).pow = d.pow ∧ (d.onStripe p i g).pins = d.pins ∧
    (d.onStripe p i g).ipt = d.ipt ∧ (d.onStripe p i g).net = d.net ∧ (d.onStripe p i g).txHeld = d.txHeld ∧ (d.onStripe p i g).nv = d.nv ∧
    (d.onStripe p i g).red = d.red ∧ (d.onStripe p i g).cip = d.cip ∧ (d.onStripe p i g).stg = d.stg ∧ (d.onStripe p i g).head = d.head ∧
    (d.onStripe p i g).snp = d.snp ∧ (d.onStripe p i g).free = d.free ∧ (d.onStripe p i g).out = d.out :=
  ⟨rfl, rfl, rfl, rfl, rfl, rfl, rfl, rfl, rfl, rfl, rfl, rfl, rfl, rfl, rfl, rfl, rfl, rfl, rfl, rfl, rfl, rfl, rfl, rfl, rfl, rfl, rfl, rfl⟩

@[simp] theorem onStripe_get (d : Dev) (p i : Nat) (g : Stripe → Stripe) (f : Field) :
    (d.onStripe p i g).get f = d.get f ∧ (d.onStripe p i g).on f = d.on f ∧ (d.onStripe p i g).getI f = d.getI f := ⟨rfl, rfl, rfl⟩

@[simp] theorem onBlock_frame (d : Dev) (p m i b : Nat) (g : BlockInfo → BlockInfo) :
    (d.onBlock p m i b g).regs = d.regs ∧ (d.onBlock p m i b g).heldLow = d.heldLow ∧ (d.onBlock p m i b g).int = d.int ∧
    (d.onBlock p m i b g).msix = d.msix ∧ (d.onBlock p m i b g).evr = d.evr ∧ (d.onBlock p m i b g).cnt = d.cnt ∧
    (d.onBlock p m i b g).trc = d.trc ∧ (d.onBlock p m i b g).summary = d.summary ∧ (d.onBlock p m i b g).snapSeq = d.snapSeq ∧
    (d.onBlock p m i b g).boot = d.boot ∧ (d.onBlock p m i b g).sim = d.sim ∧ (d.onBlock p m i b g).fwu = d.fwu ∧
    (d.onBlock p m i b g).cfg = d.cfg ∧ (d.onBlock p m i b g).mgmt = d.mgmt ∧ (d.onBlock p m i b g).modes = d.modes ∧
    (d.onBlock p m i b g).pow = d.pow ∧ (d.onBlock p m i b g).pins = d.pins ∧ (d.onBlock p m i b g).ipt = d.ipt ∧
    (d.onBlock p m i b g).net = d.net ∧ (d.onBlock p m i b g).txHeld = d.txHeld ∧ (d.onBlock p m i b g).nv = d.nv ∧
    (d.onBlock p m i b g).red = d.red ∧ (d.onBlock p m i b g).cip = d.cip ∧ (d.onBlock p m i b g).stg = d.stg ∧
    (d.onBlock p m i b g).head = d.head ∧ (d.onBlock p m i b g).snp = d.snp ∧ (d.onBlock p m i b g).free = d.free ∧
    (d.onBlock p m i b g).out = d.out :=
  ⟨rfl, rfl, rfl, rfl, rfl, rfl, rfl, rfl, rfl, rfl, rfl, rfl, rfl, rfl, rfl, rfl, rfl, rfl, rfl, rfl, rfl, rfl, rfl, rfl, rfl, rfl, rfl, rfl⟩

@[simp] theorem onBlock_get (d : Dev) (p m i b : Nat) (g : BlockInfo → BlockInfo) (f : Field) :
    (d.onBlock p m i b g).get f = d.get f ∧ (d.onBlock p m i b g).on f = d.on f ∧ (d.onBlock p m i b g).getI f = d.getI f := ⟨rfl, rfl, rfl⟩

@[simp] theorem onEntry_frame (d : Dev) (p k : Nat) (g : IndexEntry → IndexEntry) :
    (d.onEntry p k g).regs = d.regs ∧ (d.onEntry p k g).heldLow = d.heldLow ∧ (d.onEntry p k g).int = d.int ∧
    (d.onEntry p k g).msix = d.msix ∧ (d.onEntry p k g).evr = d.evr ∧ (d.onEntry p k g).cnt = d.cnt ∧ (d.onEntry p k g).trc = d.trc ∧
    (d.onEntry p k g).summary = d.summary ∧ (d.onEntry p k g).snapSeq = d.snapSeq ∧ (d.onEntry p k g).boot = d.boot ∧
    (d.onEntry p k g).sim = d.sim ∧ (d.onEntry p k g).fwu = d.fwu ∧ (d.onEntry p k g).cfg = d.cfg ∧ (d.onEntry p k g).mgmt = d.mgmt ∧
    (d.onEntry p k g).modes = d.modes ∧ (d.onEntry p k g).pow = d.pow ∧ (d.onEntry p k g).pins = d.pins ∧ (d.onEntry p k g).ipt = d.ipt ∧
    (d.onEntry p k g).net = d.net ∧ (d.onEntry p k g).txHeld = d.txHeld ∧ (d.onEntry p k g).nv = d.nv ∧ (d.onEntry p k g).red = d.red ∧
    (d.onEntry p k g).cip = d.cip ∧ (d.onEntry p k g).stg = d.stg ∧ (d.onEntry p k g).head = d.head ∧ (d.onEntry p k g).snp = d.snp ∧
    (d.onEntry p k g).free = d.free ∧ (d.onEntry p k g).out = d.out :=
  ⟨rfl, rfl, rfl, rfl, rfl, rfl, rfl, rfl, rfl, rfl, rfl, rfl, rfl, rfl, rfl, rfl, rfl, rfl, rfl, rfl, rfl, rfl, rfl, rfl, rfl, rfl, rfl, rfl⟩

@[simp] theorem onEntry_get (d : Dev) (p k : Nat) (g : IndexEntry → IndexEntry) (f : Field) :
    (d.onEntry p k g).get f = d.get f ∧ (d.onEntry p k g).on f = d.on f ∧ (d.onEntry p k g).getI f = d.getI f := ⟨rfl, rfl, rfl⟩

@[simp] theorem onEachNs_frame (d : Dev) (g : Nat → Ns → Ns) :
    (d.onEachNs g).regs = d.regs ∧ (d.onEachNs g).heldLow = d.heldLow ∧ (d.onEachNs g).int = d.int ∧ (d.onEachNs g).msix = d.msix ∧
    (d.onEachNs g).evr = d.evr ∧ (d.onEachNs g).cnt = d.cnt ∧ (d.onEachNs g).trc = d.trc ∧ (d.onEachNs g).summary = d.summary ∧
    (d.onEachNs g).snapSeq = d.snapSeq ∧ (d.onEachNs g).boot = d.boot ∧ (d.onEachNs g).sim = d.sim ∧ (d.onEachNs g).fwu = d.fwu ∧
    (d.onEachNs g).cfg = d.cfg ∧ (d.onEachNs g).mgmt = d.mgmt ∧ (d.onEachNs g).modes = d.modes ∧ (d.onEachNs g).pow = d.pow ∧
    (d.onEachNs g).pins = d.pins ∧ (d.onEachNs g).ipt = d.ipt ∧ (d.onEachNs g).net = d.net ∧ (d.onEachNs g).txHeld = d.txHeld ∧
    (d.onEachNs g).nv = d.nv ∧ (d.onEachNs g).red = d.red ∧ (d.onEachNs g).cip = d.cip ∧ (d.onEachNs g).stg = d.stg ∧
    (d.onEachNs g).head = d.head ∧ (d.onEachNs g).fl = d.fl ∧ (d.onEachNs g).free = d.free ∧ (d.onEachNs g).out = d.out :=
  ⟨rfl, rfl, rfl, rfl, rfl, rfl, rfl, rfl, rfl, rfl, rfl, rfl, rfl, rfl, rfl, rfl, rfl, rfl, rfl, rfl, rfl, rfl, rfl, rfl, rfl, rfl, rfl, rfl⟩

@[simp] theorem onEachNs_get (d : Dev) (g : Nat → Ns → Ns) (f : Field) :
    (d.onEachNs g).get f = d.get f ∧ (d.onEachNs g).on f = d.on f ∧ (d.onEachNs g).getI f = d.getI f := ⟨rfl, rfl, rfl⟩

@[simp] theorem onLanding_frame (d : Dev) (n : Nat) (g : Landing → Landing) :
    (d.onLanding n g).regs = d.regs ∧ (d.onLanding n g).heldLow = d.heldLow ∧ (d.onLanding n g).int = d.int ∧
    (d.onLanding n g).msix = d.msix ∧ (d.onLanding n g).evr = d.evr ∧ (d.onLanding n g).cnt = d.cnt ∧ (d.onLanding n g).trc = d.trc ∧
    (d.onLanding n g).summary = d.summary ∧ (d.onLanding n g).snapSeq = d.snapSeq ∧ (d.onLanding n g).boot = d.boot ∧
    (d.onLanding n g).sim = d.sim ∧ (d.onLanding n g).fwu = d.fwu ∧ (d.onLanding n g).cfg = d.cfg ∧ (d.onLanding n g).mgmt = d.mgmt ∧
    (d.onLanding n g).modes = d.modes ∧ (d.onLanding n g).pow = d.pow ∧ (d.onLanding n g).pins = d.pins ∧ (d.onLanding n g).ipt = d.ipt ∧
    (d.onLanding n g).net = d.net ∧ (d.onLanding n g).txHeld = d.txHeld ∧ (d.onLanding n g).nv = d.nv ∧ (d.onLanding n g).red = d.red ∧
    (d.onLanding n g).cip = d.cip ∧ (d.onLanding n g).stg = d.stg ∧ (d.onLanding n g).head = d.head ∧ (d.onLanding n g).fl = d.fl ∧
    (d.onLanding n g).free = d.free ∧ (d.onLanding n g).out = d.out :=
  ⟨rfl, rfl, rfl, rfl, rfl, rfl, rfl, rfl, rfl, rfl, rfl, rfl, rfl, rfl, rfl, rfl, rfl, rfl, rfl, rfl, rfl, rfl, rfl, rfl, rfl, rfl, rfl, rfl⟩

@[simp] theorem onLanding_get (d : Dev) (n : Nat) (g : Landing → Landing) (f : Field) :
    (d.onLanding n g).get f = d.get f ∧ (d.onLanding n g).on f = d.on f ∧ (d.onLanding n g).getI f = d.getI f := ⟨rfl, rfl, rfl⟩

@[simp] theorem onStore_frame (d : Dev) (g : PeerStore → PeerStore) :
    (d.onStore g).regs = d.regs ∧ (d.onStore g).heldLow = d.heldLow ∧ (d.onStore g).int = d.int ∧ (d.onStore g).msix = d.msix ∧
    (d.onStore g).evr = d.evr ∧ (d.onStore g).cnt = d.cnt ∧ (d.onStore g).trc = d.trc ∧ (d.onStore g).summary = d.summary ∧
    (d.onStore g).snapSeq = d.snapSeq ∧ (d.onStore g).boot = d.boot ∧ (d.onStore g).sim = d.sim ∧ (d.onStore g).fwu = d.fwu ∧
    (d.onStore g).cfg = d.cfg ∧ (d.onStore g).mgmt = d.mgmt ∧ (d.onStore g).modes = d.modes ∧ (d.onStore g).pow = d.pow ∧
    (d.onStore g).pins = d.pins ∧ (d.onStore g).ipt = d.ipt ∧ (d.onStore g).net = d.net ∧ (d.onStore g).txHeld = d.txHeld ∧
    (d.onStore g).nv = d.nv ∧ (d.onStore g).red = d.red ∧ (d.onStore g).cip = d.cip ∧ (d.onStore g).stg = d.stg ∧
    (d.onStore g).snp = d.snp ∧ (d.onStore g).fl = d.fl ∧ (d.onStore g).free = d.free ∧ (d.onStore g).out = d.out :=
  ⟨rfl, rfl, rfl, rfl, rfl, rfl, rfl, rfl, rfl, rfl, rfl, rfl, rfl, rfl, rfl, rfl, rfl, rfl, rfl, rfl, rfl, rfl, rfl, rfl, rfl, rfl, rfl, rfl⟩

@[simp] theorem onStore_get (d : Dev) (g : PeerStore → PeerStore) (f : Field) :
    (d.onStore g).get f = d.get f ∧ (d.onStore g).on f = d.on f ∧ (d.onStore g).getI f = d.getI f := ⟨rfl, rfl, rfl⟩

@[simp] theorem setSlot_frame (d : Dev) (i : Nat) (c : FwSlot) :
    (d.setSlot i c).regs = d.regs ∧ (d.setSlot i c).heldLow = d.heldLow ∧ (d.setSlot i c).int = d.int ∧ (d.setSlot i c).msix = d.msix ∧
    (d.setSlot i c).evr = d.evr ∧ (d.setSlot i c).cnt = d.cnt ∧ (d.setSlot i c).trc = d.trc ∧ (d.setSlot i c).summary = d.summary ∧
    (d.setSlot i c).snapSeq = d.snapSeq ∧ (d.setSlot i c).sim = d.sim ∧ (d.setSlot i c).fwu = d.fwu ∧ (d.setSlot i c).cfg = d.cfg ∧
    (d.setSlot i c).mgmt = d.mgmt ∧ (d.setSlot i c).modes = d.modes ∧ (d.setSlot i c).pow = d.pow ∧ (d.setSlot i c).pins = d.pins ∧
    (d.setSlot i c).ipt = d.ipt ∧ (d.setSlot i c).net = d.net ∧ (d.setSlot i c).txHeld = d.txHeld ∧ (d.setSlot i c).nv = d.nv ∧
    (d.setSlot i c).red = d.red ∧ (d.setSlot i c).cip = d.cip ∧ (d.setSlot i c).stg = d.stg ∧ (d.setSlot i c).head = d.head ∧
    (d.setSlot i c).snp = d.snp ∧ (d.setSlot i c).fl = d.fl ∧ (d.setSlot i c).free = d.free ∧ (d.setSlot i c).out = d.out :=
  ⟨rfl, rfl, rfl, rfl, rfl, rfl, rfl, rfl, rfl, rfl, rfl, rfl, rfl, rfl, rfl, rfl, rfl, rfl, rfl, rfl, rfl, rfl, rfl, rfl, rfl, rfl, rfl, rfl⟩

@[simp] theorem setSlot_get (d : Dev) (i : Nat) (c : FwSlot) (f : Field) :
    (d.setSlot i c).get f = d.get f ∧ (d.setSlot i c).on f = d.on f ∧ (d.setSlot i c).getI f = d.getI f := ⟨rfl, rfl, rfl⟩

@[simp] theorem onEvr_evr (d : Dev) (g : EvrState → EvrState) : (d.onEvr g).evr = g d.evr := rfl
@[simp] theorem onPow_pow (d : Dev) (g : PowState → PowState) : (d.onPow g).pow = g d.pow := rfl
@[simp] theorem onPins_pins (d : Dev) (g : Pins → Pins) : (d.onPins g).pins = g d.pins := rfl
@[simp] theorem onSim_sim (d : Dev) (g : SimState → SimState) : (d.onSim g).sim = g d.sim := rfl
@[simp] theorem onFwu_fwu (d : Dev) (g : FwuState → FwuState) : (d.onFwu g).fwu = g d.fwu := rfl
@[simp] theorem onCfg_cfg (d : Dev) (g : CfgState → CfgState) : (d.onCfg g).cfg = g d.cfg := rfl
@[simp] theorem onNet_net (d : Dev) (g : NetState → NetState) : (d.onNet g).net = g d.net := rfl
@[simp] theorem onNv_nv (d : Dev) (g : NvState → NvState) : (d.onNv g).nv = g d.nv := rfl
@[simp] theorem onRed_red (d : Dev) (g : RedState → RedState) : (d.onRed g).red = g d.red := rfl
@[simp] theorem onCip_cip (d : Dev) (g : CipState → CipState) : (d.onCip g).cip = g d.cip := rfl
@[simp] theorem onStg_stg (d : Dev) (g : StgState → StgState) : (d.onStg g).stg = g d.stg := rfl
@[simp] theorem onHead_head (d : Dev) (g : HeadState → HeadState) : (d.onHead g).head = g d.head := rfl
@[simp] theorem onTime_time (d : Dev) (g : TimeDom → TimeDom) : (d.onTime g).ipt.time = g d.ipt.time := rfl
@[simp] theorem emit_out (d : Dev) (o : Output) : (d.emit o).out = d.out ++ [o] := rfl
@[simp] theorem qpTo_net (d : Dev) (q : Nat) (st : QpState) : (d.qpTo q st).net = (d.onQp q (fun x => { x with state := st })).net := rfl
@[simp] theorem fresh_free (d : Dev) : d.fresh.2.free = d.free + 1 := rfl
@[simp] theorem raise_int (d : Dev) (b : Nat) : (d.raise b).int = intRaise d.int b := rfl

end Sys2Proof.Laws
end

