-- ==== Sys2Proof/Laws/Tab.lean ====
section
/-! SUPPORT. Tables: what finding answers after putting, deleting and updating, and that every table operation keeps the canonical
form. -/
namespace Sys2Proof.Laws
open Sys2Proof.Machine

variable {α β : Type}

@[simp] theorem find_nil (k : Nat) : Tab.find? k ([] : Tab α) = none := rfl

theorem find_put_self (k : Nat) (v : α) (t : Tab α) : Tab.find? k (Tab.put k v t) = some v := by
  induction t with
  | nil => simp [Tab.put, Tab.find?]
  | cons e t ih =>
    obtain ⟨j, w⟩ := e
    simp only [Tab.put]
    split
    · simp [Tab.find?]
    · split
      · simp [Tab.find?]
      · rename_i h1 h2
        simp [Tab.find?, ih, Ne.symm h2]

theorem find_put_ne {k j : Nat} (h : j ≠ k) (v : α) (t : Tab α) : Tab.find? j (Tab.put k v t) = Tab.find? j t := by
  induction t with
  | nil => simp [Tab.put, Tab.find?, Ne.symm h]
  | cons e t ih =>
    obtain ⟨i, w⟩ := e
    simp only [Tab.put]
    split
    · simp [Tab.find?, Ne.symm h]
    · split
      · rename_i h2
        subst h2
        simp [Tab.find?, Ne.symm h]
      · simp [Tab.find?, ih]

theorem find_del_self (k : Nat) (t : Tab α) : Tab.find? k (Tab.del k t) = none := by
  induction t with
  | nil => rfl
  | cons e t ih =>
    obtain ⟨i, w⟩ := e
    simp only [Tab.del, List.filter_cons] at ih ⊢
    by_cases h : i = k
    · simp [h, ih]
    · simp [h, Tab.find?, ih]

theorem find_del_ne {k j : Nat} (h : j ≠ k) (t : Tab α) : Tab.find? j (Tab.del k t) = Tab.find? j t := by
  induction t with
  | nil => rfl
  | cons e t ih =>
    obtain ⟨i, w⟩ := e
    simp only [Tab.del, List.filter_cons] at ih ⊢
    by_cases hi : i = k
    · subst hi
      simp [Tab.find?, ih, Ne.symm h]
    · simp [hi, Tab.find?, ih]

theorem find_upd_self (k : Nat) (f : α → α) (t : Tab α) : Tab.find? k (Tab.upd k f t) = (Tab.find? k t).map f := by
  induction t with
  | nil => rfl
  | cons e t ih =>
    obtain ⟨i, w⟩ := e
    simp only [Tab.upd, List.map] at ih ⊢
    by_cases h : i = k
    · simp [h, Tab.find?]
    · simp [h, Tab.find?, ih]

theorem find_upd_ne {k j : Nat} (h : j ≠ k) (f : α → α) (t : Tab α) : Tab.find? j (Tab.upd k f t) = Tab.find? j t := by
  induction t with
  | nil => rfl
  | cons e t ih =>
    obtain ⟨i, w⟩ := e
    simp only [Tab.upd, List.map] at ih ⊢
    by_cases hi : i = k
    · subst hi
      simp [Tab.find?, ih, Ne.symm h]
    · simp [hi, Tab.find?, ih]

theorem getD_updD_self (k : Nat) (x : α) (f : α → α) (t : Tab α) :
    Tab.getD (Tab.updD k x f t) k x = f (Tab.getD t k x) := by
  simp [Tab.getD, Tab.updD, find_put_self]

theorem getD_updD_ne {k j : Nat} (h : j ≠ k) (x y : α) (f : α → α) (t : Tab α) :
    Tab.getD (Tab.updD k x f t) j y = Tab.getD t j y := by
  simp [Tab.getD, Tab.updD, find_put_ne h]

theorem find_mapV (k : Nat) (f : α → β) (t : Tab α) : Tab.find? k (Tab.mapV f t) = (Tab.find? k t).map f := by
  induction t with
  | nil => rfl
  | cons e t ih =>
    obtain ⟨i, w⟩ := e
    simp only [Tab.mapV, List.map] at ih ⊢
    by_cases h : i = k
    · simp [h, Tab.find?]
    · simp [h, Tab.find?, ih]

/-- The canonical form, as the order of the keys. -/
theorem wf_iff (t : Tab α) : Tab.wf t = true ↔ t.Pairwise (fun a b => a.1 < b.1) := by
  induction t with
  | nil => simp [Tab.wf]
  | cons e t ih =>
    obtain ⟨i, w⟩ := e
    cases t with
    | nil => simp [Tab.wf]
    | cons f t =>
      obtain ⟨j, u⟩ := f
      simp only [Tab.wf, Bool.and_eq_true, decide_eq_true_eq, ih, List.pairwise_cons, List.mem_cons, forall_eq_or_imp]
      constructor
      · rintro ⟨h, h1, h2⟩
        exact ⟨⟨h, fun a ha => Nat.lt_trans h (h1 a ha)⟩, h1, h2⟩
      · rintro ⟨⟨h, _⟩, h1, h2⟩
        exact ⟨h, h1, h2⟩

theorem mem_put {k : Nat} {v : α} {t : Tab α} {e : Nat × α} (h : e ∈ Tab.put k v t) : e = (k, v) ∨ e ∈ t := by
  induction t with
  | nil => simpa [Tab.put] using h
  | cons f t ih =>
    obtain ⟨j, u⟩ := f
    simp only [Tab.put] at h
    split at h
    · simpa using h
    · split at h
      · rcases List.mem_cons.1 h with h | h
        · exact .inl h
        · exact .inr (List.mem_cons_of_mem _ h)
      · rcases List.mem_cons.1 h with h | h
        · exact .inr (by simp [h])
        · rcases ih h with h | h
          · exact .inl h
          · exact .inr (List.mem_cons_of_mem _ h)

theorem wf_put (k : Nat) (v : α) (t : Tab α) (h : Tab.wf t = true) : Tab.wf (Tab.put k v t) = true := by
  rw [wf_iff] at h ⊢
  induction t with
  | nil => simp [Tab.put]
  | cons e t ih =>
    obtain ⟨j, u⟩ := e
    have h1 := List.pairwise_cons.1 h
    simp only [Tab.put]
    split
    · rename_i hk
      refine List.pairwise_cons.2 ⟨?_, h⟩
      intro a ha
      rcases List.mem_cons.1 ha with ha | ha
      · simpa [ha] using hk
      · exact Nat.lt_trans hk (h1.1 a ha)
    · split
      · rename_i h2 hk
        subst hk
        exact List.pairwise_cons.2 h1
      · rename_i h2 hk
        refine List.pairwise_cons.2 ⟨?_, ih h1.2⟩
        intro a ha
        rcases mem_put ha with ha | ha
        · subst ha
          show j < k
          omega
        · exact h1.1 a ha

theorem wf_del (k : Nat) (t : Tab α) (h : Tab.wf t = true) : Tab.wf (Tab.del k t) = true := by
  rw [wf_iff] at h ⊢
  exact h.sublist (List.filter_sublist)

theorem wf_upd (k : Nat) (f : α → α) (t : Tab α) (h : Tab.wf t = true) : Tab.wf (Tab.upd k f t) = true := by
  rw [wf_iff] at h ⊢
  rw [Tab.upd, List.pairwise_map]
  refine h.imp ?_
  intro a b hab
  split <;> split <;> simpa using hab

theorem wf_updD (k : Nat) (x : α) (f : α → α) (t : Tab α) (h : Tab.wf t = true) : Tab.wf (Tab.updD k x f t) = true :=
  wf_put _ _ _ h

theorem wf_mapV (f : α → β) (t : Tab α) (h : Tab.wf t = true) : Tab.wf (Tab.mapV f t) = true := by
  rw [wf_iff] at h ⊢
  rw [Tab.mapV, List.pairwise_map]
  exact h.imp (fun h => h)

theorem find_lt {k : Nat} {t : Tab α} (h : ∀ e ∈ t, k < e.1) : Tab.find? k t = none := by
  induction t with
  | nil => rfl
  | cons e t ih =>
    obtain ⟨j, u⟩ := e
    have := h (j, u) (by simp)
    simp only [Tab.find?]
    rw [if_neg (by simp at this; omega)]
    exact ih (fun e he => h e (List.mem_cons_of_mem _ he))

/-- Canonical tables that answer every key alike are equal data. -/
theorem wf_ext {s t : Tab α} (hs : Tab.wf s = true) (ht : Tab.wf t = true) (h : ∀ k, Tab.find? k s = Tab.find? k t) : s = t := by
  rw [wf_iff] at hs ht
  induction s generalizing t with
  | nil =>
    cases t with
    | nil => rfl
    | cons e t => obtain ⟨j, u⟩ := e; have := h j; simp [Tab.find?] at this
  | cons e s ih =>
    obtain ⟨i, w⟩ := e
    cases t with
    | nil => have := h i; simp [Tab.find?] at this
    | cons f t =>
      obtain ⟨j, u⟩ := f
      have hs1 := List.pairwise_cons.1 hs
      have ht1 := List.pairwise_cons.1 ht
      have hi := h i
      have hj := h j
      simp only [Tab.find?, if_true] at hi hj
      have hij : i = j := by
        rcases Nat.lt_trichotomy i j with hlt | heq | hgt
        · rw [if_neg (by omega), find_lt (fun e he => Nat.lt_trans hlt (ht1.1 e he))] at hi
          cases hi
        · exact heq
        · rw [if_neg (by omega), find_lt (fun e he => Nat.lt_trans hgt (hs1.1 e he))] at hj
          cases hj
      subst hij
      simp only [if_true, Option.some.injEq] at hi
      subst hi
      refine congrArg _ (ih hs1.2 ht1.2 ?_)
      intro k
      by_cases hk : i = k
      · subst hk
        rw [find_lt hs1.1, find_lt ht1.1]
      · have := h k
        simpa [Tab.find?, hk] using this

end Sys2Proof.Laws
end

