-- ==== Sys2Proof/Laws/Regs.lean ====
section
/-! SUPPORT. Register fields: what a field reads as after another write, counters and events leave the other fields alone, and the
register store keeps its canonical form. -/
namespace Sys2Proof.Laws
open Sys2Proof.Machine

theorem regGet_regSet_self (rs : List (Nat × Nat)) (f : Field) (v : Nat) : regGet (regSet rs f v) f = v % 2 ^ f.width := by
  unfold regGet regSet
  by_cases h : v % 2 ^ f.width = f.reset
  · simp [h, find_del_self]
  · simp [h, find_put_self]

theorem regGet_regSet_ne (rs : List (Nat × Nat)) {f g : Field} (v : Nat) (h : g.key ≠ f.key) :
    regGet (regSet rs f v) g = regGet rs g := by
  unfold regGet regSet
  by_cases hv : v % 2 ^ f.width = f.reset
  · simp [hv, find_del_ne h]
  · simp [hv, find_put_ne h]

theorem regSet_wf (rs : List (Nat × Nat)) (f : Field) (v : Nat) (h : Tab.wf rs = true) : Tab.wf (regSet rs f v) = true := by
  unfold regSet
  by_cases hv : v % 2 ^ f.width = f.reset
  · simp [hv, wf_del _ _ h]
  · simp [hv, wf_put _ _ _ h]

theorem get_set_self (d : Dev) (f : Field) (v : Nat) : (d.set f v).get f = v % 2 ^ f.width := regGet_regSet_self _ _ _

theorem get_set_ne (d : Dev) {f g : Field} (v : Nat) (h : g.key ≠ f.key) : (d.set f v).get g = d.get g := regGet_regSet_ne _ _ h

theorem get_setB_self (d : Dev) (f : Field) (b : Bool) : (d.setB f b).get f = b2n b % 2 ^ f.width := regGet_regSet_self _ _ _

theorem get_setB_ne (d : Dev) {f g : Field} (b : Bool) (h : g.key ≠ f.key) : (d.setB f b).get g = d.get g := regGet_regSet_ne _ _ h

theorem get_bump_self (d : Dev) (f : Field) (n : Nat) : (d.bump f n).get f = (d.get f + n) % 2 ^ f.width := regGet_regSet_self _ _ _

theorem get_bump_ne (d : Dev) {f g : Field} (n : Nat) (h : g.key ≠ f.key) : (d.bump f n).get g = d.get g := regGet_regSet_ne _ _ h

@[simp] theorem flushEvents_frame (d : Dev) : d.flushEvents.regs = d.regs ∧ d.flushEvents.int = d.int ∧ d.flushEvents.cnt = d.cnt ∧
    d.flushEvents.trc = d.trc ∧ d.flushEvents.sim = d.sim ∧ d.flushEvents.fwu = d.fwu ∧ d.flushEvents.cfg = d.cfg ∧
    d.flushEvents.modes = d.modes ∧ d.flushEvents.pow = d.pow ∧ d.flushEvents.pins = d.pins ∧ d.flushEvents.ipt = d.ipt ∧
    d.flushEvents.net = d.net ∧ d.flushEvents.nv = d.nv ∧ d.flushEvents.red = d.red ∧ d.flushEvents.cip = d.cip ∧
    d.flushEvents.stg = d.stg ∧ d.flushEvents.head = d.head ∧ d.flushEvents.snp = d.snp ∧ d.flushEvents.fl = d.fl ∧
    d.flushEvents.mgmt = d.mgmt ∧ d.flushEvents.heldLow = d.heldLow ∧ d.flushEvents.free = d.free ∧ d.flushEvents.out = d.out := by
  unfold Dev.flushEvents
  split <;> exact ⟨rfl, rfl, rfl, rfl, rfl, rfl, rfl, rfl, rfl, rfl, rfl, rfl, rfl, rfl, rfl, rfl, rfl, rfl, rfl, rfl, rfl, rfl, rfl⟩

/-- Recording an event touches the recorder, its area and counters, trace, the interrupt and what leaves the device; nothing else. -/
@[simp] theorem event_frame (d : Dev) (b : Nat) (k : EvKind) (l : List Nat) : (d.event b k l).sim = d.sim ∧
    (d.event b k l).fwu = d.fwu ∧ (d.event b k l).cfg = d.cfg ∧ (d.event b k l).modes = d.modes ∧ (d.event b k l).pow = d.pow ∧
    (d.event b k l).pins = d.pins ∧ (d.event b k l).ipt = d.ipt ∧ (d.event b k l).net = d.net ∧ (d.event b k l).nv = d.nv ∧
    (d.event b k l).red = d.red ∧ (d.event b k l).cip = d.cip ∧ (d.event b k l).stg = d.stg ∧ (d.event b k l).head = d.head ∧
    (d.event b k l).snp = d.snp ∧ (d.event b k l).fl = d.fl ∧ (d.event b k l).mgmt = d.mgmt ∧ (d.event b k l).free = d.free := by
  simp only [Dev.event]
  split <;> split <;> split <;> simp

/-- The fields that recording an event may change. -/
theorem event_get (d : Dev) (b : Nat) (k : EvKind) (l : List Nat) (f : Field) (h1 : f.key ≠ F.EVR_buffer_drops.key)
    (h2 : f.key ≠ F.EVR_records_taken.key) (h3 : f.key ≠ F.EVR_flushes.key) : (d.event b k l).get f = d.get f := by
  have hf (x : Dev) : x.flushEvents.get f = x.get f := by simp [Dev.get]
  simp only [Dev.event]
  split <;> split <;> split <;> simp [hf, get_bump_ne _ _ h1, get_bump_ne _ _ h2, get_bump_ne _ _ h3] <;> rfl

end Sys2Proof.Laws
end

