-- ==== Sys2Proof/Laws/Step.lean ====
section
/-! SUPPORT. What a step does, command by command or idle; what the fuses keep under every operation that may burn them. -/
namespace Sys2Proof.Laws
open Sys2Proof Sys2Proof.Machine

/-! ### Steps and the queue -/

theorem step_cons {c : Instr} {rest : List Instr} {s : State} (h : s.pending = c :: rest) : step s = exec c { s with pending := rest } := by
  simp [step, h]

theorem step_nil {s : State} (h : s.pending = []) : step s = .next s.idle := by simp [step, h]

theorem run_next (M : Host.Core) (k : Nat) (s u : M.State) (h : M.step s = .next u) : M.run (k + 1) s = M.run k u := by
  rw [Host.Core.run, h]

theorem reaches_succ {k : Nat} {s u t : State} (h : step s = .next u) (ht : State.reaches k u t) : State.reaches (k + 1) s t :=
  (run_next core k s u h).trans ht

/-- A command does the same whatever waits behind it, and leaves that alone. -/
theorem exec_queue (c : Instr) (s : State) (q : List Instr) : exec c { s with pending := q } = match exec c s with
    | .next t => .next { t with pending := q }
    | x => x := by
  cases c <;> rfl

theorem idle_fuses (s : State) : s.idle.fuses = s.fuses := by unfold State.idle; rfl

theorem idle_pending (s : State) : s.idle.pending = s.pending := by unfold State.idle; rfl

theorem idle_dev (s : State) : s.idle.dev = s.dev.tick.after s.fuses := by simp only [State.idle]

theorem ends_inj {s t : State} {d : Dev} (h : s.ends d = .next t) : t.fuses = s.fuses ∧ t.pending = s.pending ∧ t.dev = d.after s.fuses := by
  have h := Host.Outcome.next.inj h
  rw [← h]
  exact ⟨rfl, rfl, rfl⟩

theorem endsF_inj {s t : State} {fu : Fuses} {d : Dev} (h : s.endsF fu d = .next t) : t.fuses = fu ∧ t.pending = s.pending ∧ t.dev = d.after fu := by
  have h := Host.Outcome.next.inj h
  rw [← h]
  exact ⟨rfl, rfl, rfl⟩

theorem run_inj {s t : State} {f : Fuses → Dev → Dev} (h : s.run f = .next t) : t.fuses = s.fuses ∧ t.pending = s.pending ∧
    t.dev = (f s.fuses s.dev).after s.fuses := by
  have h := Host.Outcome.next.inj h
  rw [← h]
  exact ⟨rfl, rfl, rfl⟩

theorem runF_inj {s t : State} {g : Fuses → Dev → Fuses} {f : Fuses → Dev → Dev} (h : s.runF g f = .next t) :
    t.fuses = g s.fuses s.dev ∧ t.pending = s.pending ∧ t.dev = (f s.fuses s.dev).after (g s.fuses s.dev) := by
  have h := Host.Outcome.next.inj h
  rw [← h]
  exact ⟨rfl, rfl, rfl⟩

theorem run_eq_runF (s : State) (f : Fuses → Dev → Dev) : s.run f = s.runF (fun fu _ => fu) f := rfl

/-- A command that only a head in service runs. -/
theorem run_up {s : State} (f : Dev → Dev) (h : s.dev.up = true) : s.run (fun _ d => d.whenUp f) = s.ends (f s.dev) := by
  show Host.Outcome.next _ = _
  simp only [Dev.whenUp, h, State.ends, if_true]

/-- A register's action on a block that takes writes. -/
theorem run_acts {s : State} {b : Nat} (f : Dev → Dev) (h : s.dev.takes b = true) : s.run (fun _ d => d.acts b f) = s.ends (f s.dev) := by
  show Host.Outcome.next _ = _
  simp only [Dev.acts, h, State.ends, if_true]

/-! ### Fuses -/

theorem kept_refl (a : Fuses) : a.kept a := ⟨rfl, rfl, fun _ => rfl, fun _ => rfl, Nat.le_refl _⟩

theorem kept_trans {a b c : Fuses} (h : a.kept b) (k : b.kept c) : a.kept c := by
  obtain ⟨h1, h2, h3, h4, h5⟩ := h
  obtain ⟨k1, k2, k3, k4, k5⟩ := k
  refine ⟨k1.trans h1, k2.trans h2, fun h => ?_, fun h => ?_, Nat.le_trans h5 k5⟩
  · rw [k3 (by rw [h3 h]; exact h), h3 h]
  · rw [k4 (by rw [h4 h]; exact h), h4 h]

theorem burn_kept (fu : Fuses) (d : Dev) (k : Bool) (a : Bytes) : fu.kept (burn fu d k a) := by
  unfold burn
  split
  · exact kept_refl _
  · split
    · split
      · exact kept_refl _
      · rename_i h; exact ⟨rfl, rfl, fun _ => rfl, fun h' => by cases hk : fu.kFuse <;> simp_all, Nat.le_refl _⟩
    · split
      · exact kept_refl _
      · rename_i h; exact ⟨rfl, rfl, fun h' => by cases hk : fu.ownerHash <;> simp_all, fun _ => rfl, Nat.le_refl _⟩

theorem fusePulses_kept (fu : Fuses) (d : Dev) (v : Nat) (a : Bytes) : fu.kept (fusePulses fu d v a) := by
  unfold fusePulses
  split <;> split
  · exact kept_trans (burn_kept _ _ _ _) (burn_kept _ _ _ _)
  · exact burn_kept _ _ _ _
  · exact burn_kept _ _ _ _
  · exact kept_refl _

theorem fuseWrite_kept (fu : Fuses) (d : Dev) (o v : Nat) : fu.kept (fuseWrite fu d o v) := by
  unfold fuseWrite; split
  · exact fusePulses_kept _ _ _ _
  · exact kept_refl _

theorem barFuses_kept (fu : Fuses) (d : Dev) (a : RegAccess) : fu.kept (barFuses fu d a) := by
  unfold barFuses; split
  · exact fuseWrite_kept _ _ _ _
  · exact kept_refl _

theorem mgmtWrites_kept (l : List Nat) (o : Nat) (s : Fuses × Dev) : s.1.kept (mgmtWrites l o s).1 := by
  induction l generalizing o s with
  | nil => exact kept_refl _
  | cons v t ih =>
    obtain ⟨fu, d⟩ := s
    refine kept_trans ?_ (ih _ _)
    dsimp only
    split
    · exact fuseWrite_kept _ _ _ _
    · exact kept_refl _

theorem mgmtFuses_kept (fu : Fuses) (d : Dev) (h : MgmtHdr) (p : Bytes) : fu.kept (mgmtWriteFuses fu d h p) := by
  unfold mgmtWriteFuses; split
  · exact mgmtWrites_kept _ _ (fu, d)
  · exact kept_refl _

theorem trialFuses_kept (fu : Fuses) (d : Dev) : fu.kept (trialFuses fu d) := by
  unfold trialFuses; split
  · exact kept_refl _
  · exact ⟨rfl, rfl, fun _ => rfl, fun _ => rfl, Nat.le_max_left _ _⟩

theorem ite_kept {p : Prop} [Decidable p] {a b c : Fuses} (h1 : a.kept b) (h2 : a.kept c) : a.kept (if p then b else c) := by
  split <;> assumption

/-! ### The clock -/

theorem ite_aon {p : Prop} [Decidable p] {a b : Dev} {n : Nat} (ha : a.pow.aon = n) (hb : b.pow.aon = n) :
    (if p then a else b).pow.aon = n := by split <;> assumption

theorem tickTime_aon (d : Dev) : d.tickTime.pow.aon = d.pow.aon := by
  unfold Dev.tickTime
  extract_lets s due n d1
  exact ite_aon rfl rfl

end Sys2Proof.Laws
end

