-- ==== Sys2Proof/Laws/Frames.lean ====
section
/-! SUPPORT. What the shared operations over several parts leave alone: registers kept but for a list, boot copies, strobe and channel
tables, the status word, zeroization, and what follows a command on a head that is not in service. -/
namespace Sys2Proof.Laws
open Sys2Proof Sys2Proof.Machine

/-! ### Registers but for a list -/

theorem regsKept_of_regs {a b : Dev} (h : b.regs = a.regs) (l : List Field) : a.regsKept b l := fun g _ => by simp [Dev.get, h]

theorem regsKept_trans {a b c : Dev} {l : List Field} (h : a.regsKept b l) (k : b.regsKept c l) : a.regsKept c l :=
  fun g hg => (k g hg).trans (h g hg)

theorem regsKept_mono {a b : Dev} {l m : List Field} (h : a.regsKept b l) (hs : ∀ f ∈ l, f ∈ m) : a.regsKept b m :=
  fun g hg => h g (fun f hf => hg f (hs f hf))

theorem set_regsKept {a b : Dev} {l : List Field} (h : a.regsKept b l) (f : Field) (v : Nat) (hf : f ∈ l) : a.regsKept (b.set f v) l :=
  fun g hg => (get_set_ne _ _ (hg f hf)).trans (h g hg)

theorem setB_regsKept {a b : Dev} {l : List Field} (h : a.regsKept b l) (f : Field) (v : Bool) (hf : f ∈ l) : a.regsKept (b.setB f v) l :=
  fun g hg => (get_setB_ne _ _ (hg f hf)).trans (h g hg)

theorem bump_regsKept {a b : Dev} {l : List Field} (h : a.regsKept b l) (f : Field) (n : Nat) (hf : f ∈ l) : a.regsKept (b.bump f n) l :=
  fun g hg => (get_bump_ne _ _ (hg f hf)).trans (h g hg)

theorem event_regsKept {a b : Dev} {l : List Field} (h : a.regsKept b l) (k : Nat) (e : EvKind) (i : List Nat) (hl : ∀ f ∈ eventRegs, f ∈ l) :
    a.regsKept (b.event k e i) l := fun g hg =>
  (event_get _ _ _ _ _ (hg _ (hl _ (by simp [eventRegs]))) (hg _ (hl _ (by simp [eventRegs]))) (hg _ (hl _ (by simp [eventRegs])))).trans (h g hg)

/-! ### Tables of the device -/

theorem chan_onChan_self (d : Dev) (c : Nat) (f : Chan → Chan) : (d.onChan c f).chan c = f (d.chan c) := by
  simp only [Dev.onChan, Dev.chan]; rw [getD_updD_self]

theorem chan_onChan_ne (d : Dev) {c k : Nat} (f : Chan → Chan) (h : k ≠ c) : (d.onChan c f).chan k = d.chan k := by
  simp only [Dev.onChan, Dev.chan]; rw [getD_updD_ne h]

theorem win_onWin_self (d : Dev) (w : Nat) (f : Win → Win) : (d.onWin w f).win w = f (d.win w) := by
  simp only [Dev.onWin, Dev.win]; rw [getD_updD_self]

theorem win_onWin_ne (d : Dev) {w k : Nat} (f : Win → Win) (h : k ≠ w) : (d.onWin w f).win k = d.win k := by
  simp only [Dev.onWin, Dev.win]; rw [getD_updD_ne h]

theorem qp_onQp_self (d : Dev) (q : Nat) (f : Qp → Qp) : (d.onQp q f).qp q = f (d.qp q) := by
  simp only [Dev.onQp, Dev.qp]; rw [getD_updD_self]

theorem qp_onQp_ne (d : Dev) {q k : Nat} (f : Qp → Qp) (h : k ≠ q) : (d.onQp q f).qp k = d.qp k := by
  simp only [Dev.onQp, Dev.qp]; rw [getD_updD_ne h]

theorem pool_onPool_self (d : Dev) (p : Nat) (f : Pool → Pool) : (d.onPool p f).pool p = f (d.pool p) := by
  simp only [Dev.onPool, Dev.pool]; rw [getD_updD_self]

theorem pool_onPool_ne (d : Dev) {p k : Nat} (f : Pool → Pool) (h : k ≠ p) : (d.onPool p f).pool k = d.pool k := by
  simp only [Dev.onPool, Dev.pool]; rw [getD_updD_ne h]

theorem ns_onNs_self (d : Dev) (n : Nat) (f : Ns → Ns) : (d.onNs n f).ns n = f (d.ns n) := by
  simp only [Dev.onNs, Dev.ns]; rw [getD_updD_self]

theorem ns_onNs_ne (d : Dev) {n k : Nat} (f : Ns → Ns) (h : k ≠ n) : (d.onNs n f).ns k = d.ns k := by
  simp only [Dev.onNs, Dev.ns]; rw [getD_updD_ne h]

theorem lane_onLane_self (d : Dev) (l : Nat) (f : Lane → Lane) : (d.onLane l f).lane l = f (d.lane l) := by
  simp only [Dev.onLane, Dev.lane]; rw [getD_updD_self]

theorem lane_onLane_ne (d : Dev) {l k : Nat} (f : Lane → Lane) (h : k ≠ l) : (d.onLane l f).lane k = d.lane k := by
  simp only [Dev.onLane, Dev.lane]; rw [getD_updD_ne h]

/-! ### Operations -/

theorem setCopy_frame (d : Dev) (i : Nat) (c : ImgCopy) : (d.setCopy i c).sim = d.sim ∧ (d.setCopy i c).regs = d.regs ∧
    (d.setCopy i c).stg = d.stg ∧ (d.setCopy i c).snp = d.snp ∧ (d.setCopy i c).fl = d.fl := by
  unfold Dev.setCopy; exact ⟨rfl, rfl, rfl, rfl, rfl⟩

theorem simState_eq (d : Dev) : d.simState = (if d.sim.sub.isSome || d.sim.own.isSome then 1 else if d.sim.staged.isNone then 0
    else if d.sim.armed then 6 else if d.sim.live then (if d.sim.waiting then 4 else 2) else 3) := rfl

theorem reachTime_frame (d : Dev) (t : Nat) : (d.reachTime t).regs = d.regs ∧ (d.reachTime t).ipt.chans = d.ipt.chans ∧
    (d.reachTime t).out = d.out := by
  unfold Dev.reachTime; split <;> exact ⟨rfl, rfl, rfl⟩

/-- A signed number that fits 32 bits survives the field that holds it. -/
theorem signedOf_fieldOfInt (x : Int) (h1 : -(2 ^ 31 : Int) ≤ x) (h2 : x < 2 ^ 31) : signedOf 32 (fieldOfInt 32 x) = x := by
  unfold signedOf fieldOfInt
  simp only [show ((2 : Int) ^ 31) = 2147483648 from rfl] at h1 h2
  simp only [show (2 : Nat) ^ 32 = 4294967296 from rfl, show 32 - 1 = 31 from rfl,
    show (2 : Nat) ^ 31 = 2147483648 from rfl]
  split <;> omega

/-- What zeroization leaves of the cipher block (R215). -/
theorem zeroize_cip (d : Dev) (a : Nat) : (d.zeroize a).cip =
    { d.cip with kRoot := none, share := [], master := none, cache := [], loading := false, ctxs := [], carKeys := [], landKeys := [],
                 rings := d.cip.rings.map (fun e => (e.1, { e.2 with zeroized := e.2.fetched })) } := by
  simp only [Dev.zeroize]; split <;> simp

/-- Zeroization touches no stored data, image, pin or queue pair (R216). -/
theorem zeroize_frame (d : Dev) (a : Nat) : (d.zeroize a).stg = d.stg ∧ (d.zeroize a).snp = d.snp ∧ (d.zeroize a).fl = d.fl ∧
    (d.zeroize a).sim = d.sim ∧ (d.zeroize a).pins = d.pins ∧ (d.zeroize a).net = d.net ∧ (d.zeroize a).nv = d.nv := by
  simp only [Dev.zeroize]; split <;> simp

/-! ### A head that is not in service -/

theorem settleArb_frame (d : Dev) : (d.settleArb).pow = d.pow ∧ (d.settleArb).pins = d.pins ∧ (d.settleArb).out = d.out ∧
    d.regsKept d.settleArb [F.ARB_STAT_role] :=
  ⟨rfl, rfl, rfl, fun _ hg => get_set_ne _ _ (hg _ List.mem_cons_self)⟩

theorem settleReadyOf_regs (d : Dev) (c : Nat) : d.regsKept (d.settleReadyOf c) [F.IPT_CH_ready_low_events.at c] := by
  intro g hg
  unfold Dev.settleReadyOf
  dsimp only
  split
  · exact get_bump_ne _ _ (hg _ List.mem_cons_self)
  · rfl

/-- What a change of READY leaves alone: everything but the pins, the registers and the event counters. -/
theorem settleReadyOf_frame (d : Dev) (c : Nat) : (d.settleReadyOf c).pow = d.pow ∧ (d.settleReadyOf c).boot = d.boot ∧
    (d.settleReadyOf c).sim = d.sim ∧ (d.settleReadyOf c).fwu = d.fwu ∧ (d.settleReadyOf c).cfg = d.cfg ∧
    (d.settleReadyOf c).mgmt = d.mgmt ∧ (d.settleReadyOf c).ipt = d.ipt ∧ (d.settleReadyOf c).net = d.net ∧
    (d.settleReadyOf c).nv = d.nv ∧ (d.settleReadyOf c).red = d.red ∧ (d.settleReadyOf c).cip = d.cip ∧
    (d.settleReadyOf c).stg = d.stg ∧ (d.settleReadyOf c).head = d.head ∧ (d.settleReadyOf c).snp = d.snp ∧
    (d.settleReadyOf c).fl = d.fl ∧ (d.settleReadyOf c).int = d.int ∧ (d.settleReadyOf c).evr = d.evr ∧
    (d.settleReadyOf c).trc = d.trc ∧ (d.settleReadyOf c).heldLow = d.heldLow ∧ (d.settleReadyOf c).free = d.free ∧
    (d.settleReadyOf c).out = d.out := by
  unfold Dev.settleReadyOf
  dsimp only
  split <;> exact ⟨rfl, rfl, rfl, rfl, rfl, rfl, rfl, rfl, rfl, rfl, rfl, rfl, rfl, rfl, rfl, rfl, rfl, rfl, rfl, rfl, rfl⟩

theorem settleReadyOf_pins (d : Dev) (c : Nat) : (d.settleReadyOf c).pins = { d.pins with ready := d.pins.ready.set c (d.readyLevel c) } := by
  unfold Dev.settleReadyOf
  dsimp only
  split <;> rfl

/-- Without a reset owed, what follows a command on such a head is its arbiter role, READY and ARB_HB. -/
theorem settle_quiet (d : Dev) (h : d.up = false) : d.settle = ((d.settleArb).settleReady).settleHb := by simp [Dev.settle, h]

end Sys2Proof.Laws
end

