-- ==== Sys2Proof/WellFormed.lean ====
section
/-! DEFINITION. Well-formed commands: every operand within the width that the spec gives its field, so that a command is one that the
outside world can send. The meanings are total all the same. -/
namespace Sys2Proof

/-- A number that fits in so many bits. -/
def fits (bits n : Nat) : Bool := decide (n < 2 ^ bits)

/-- A `RegAccess` whose fields fit. -/
def RegAccess.wf (x : RegAccess) : Bool :=
  fits 24 x.off && fits 8 x.len && fits 64 x.val

/-- A `Pkt` whose fields fit. -/
def Pkt.wf (x : Pkt) : Bool :=
  fits 24 x.qpn && fits 24 x.psn && fits 16 x.pkey

/-- A `Reth` whose fields fit. -/
def Reth.wf (x : Reth) : Bool :=
  fits 64 x.va && fits 32 x.rkey && fits 32 x.len

/-- A `SprayHdr` whose fields fit. -/
def SprayHdr.wf (x : SprayHdr) : Bool :=
  fits 64 x.va && fits 32 x.rkey && fits 32 x.msgLen && fits 24 x.msgPsn && fits 32 x.pktOffset

/-- A `CmReq` whose fields fit. -/
def CmReq.wf (x : CmReq) : Bool :=
  fits 24 x.peerQpn && fits 64 x.service && fits 16 x.mtu && fits 24 x.psn

/-- A `NvHdr` whose fields fit; a discovery controller is told from the others by a number from 0x10000 on (R135). -/
def NvHdr.wf (x : NvHdr) : Bool :=
  fits 32 x.ctrl && fits 16 x.sq && fits 16 x.cid && fits 32 x.nsid

/-- A `DmaFault` whose fields fit. -/
def DmaFault.wf (x : DmaFault) : Bool := fits 32 x.bytes && fits 64 x.addr

/-- A `NvBuf` whose fields fit. -/
def NvBuf.wf (x : NvBuf) : Bool :=
  fits 64 x.addr && fits 32 x.rkey && fits 32 x.len

/-- A `DsmRange` whose fields fit. -/
def DsmRange.wf (x : DsmRange) : Bool :=
  fits 64 x.slba && fits 32 x.len

/-- A `ConnectArgs` whose fields fit. -/
def ConnectArgs.wf (x : ConnectArgs) : Bool :=
  fits 24 x.qpn && fits 16 x.cid && fits 16 x.qid && fits 16 x.sqsize_m1 && fits 32 x.kato && fits 16 x.cntlid

/-- A `JobArgs` whose descriptor is whole and names the input it has. -/
def JobArgs.wf (x : JobArgs) : Bool :=
  decide (x.desc.length = 64) && decide (x.input.length = Machine.leAt x.desc 24 4) && x.fault.all (fits 32) && x.outFault.all (fits 32)

/-- A `CipherArgs` whose descriptor is whole and names the input it has. -/
def CipherArgs.wf (x : CipherArgs) : Bool :=
  decide (x.desc.length = 64) && decide (x.input.length = Machine.leAt x.desc 24 4) && x.fault.all (fits 32) && x.outFault.all (fits 32)

/-- A `Desc` whose fields fit. -/
def Desc.wf (x : Desc) : Bool :=
  fits 32 x.crc && fits 8 x.ctl && fits 8 x.codecVer && fits 16 x.keyLabel

/-- A `WriteId` whose fields fit. -/
def WriteId.wf (x : WriteId) : Bool :=
  fits 16 x.stream && fits 64 x.seq && fits 32 x.block

/-- A `Heartbeat` whose fields fit. -/
def Heartbeat.wf (x : Heartbeat) : Bool :=
  fits 64 x.term && fits 64 x.generation && fits 16 x.pools && fits 32 x.kcv

/-- A `MirrorSlot` whose fields fit. -/
def MirrorSlot.wf (x : MirrorSlot) : Bool :=
  fits 64 x.off && fits 32 x.nsid && fits 64 x.lba && x.wid.wf && x.desc.wf && fits 16 x.of_

/-- A `MemberAddr` whose fields fit. -/
def MemberAddr.wf (x : MemberAddr) : Bool :=
  fits 8 x.module && fits 8 x.die && fits 32 x.block && fits 16 x.page && fits 8 x.state && fits 8 x.role && fits 8 x.index

/-- A `StripeSlot` whose fields fit. -/
def StripeSlot.wf (x : StripeSlot) : Bool :=
  fits 8 x.member && fits 8 x.slot && fits 8 x.off && fits 32 x.nsid && fits 64 x.lba && x.wid.wf && x.desc.wf

/-- A `OpenRec` whose fields fit. -/
def OpenRec.wf (x : OpenRec) : Bool :=
  fits 4 x.pool && fits 64 x.seq && fits 8 x.data && fits 8 x.parity && fits 8 x.pageKib && fits 8 x.layout &&
    fits 64 x.generation && x.members.all MemberAddr.wf && x.slots.all StripeSlot.wf

/-- A `MapDelta` whose fields fit. -/
def MapDelta.wf (x : MapDelta) : Bool :=
  fits 4 x.pool && fits 64 x.stripeSeq && fits 32 x.nsid && fits 64 x.lba && x.wid.wf && fits 16 x.of_

/-- A `QpMirror` whose fields fit. -/
def QpMirror.wf (x : QpMirror) : Bool :=
  fits 24 x.qpn && fits 24 x.senderQpn && fits 24 x.epsn && fits 24 x.msn && fits 16 x.mtu && x.windows.all (fits 64)

/-- A `WinMirror` whose fields fit. -/
def WinMirror.wf (x : WinMirror) : Bool :=
  fits 16 x.window && fits 64 x.horizon && fits 64 x.limit && fits 32 x.cseq && fits 32 x.lastImm && fits 24 x.qpn

/-- A `HolderMirror` whose fields fit. -/
def HolderMirror.wf (x : HolderMirror) : Bool :=
  fits 32 x.nsid && fits 64 x.lba && x.wid.wf && x.slotOff.all (fits 64) && x.owner.wf && fits 32 x.refs && fits 8 x.effort && fits 16 x.of_

/-- A `CairnMirror` whose fields fit. -/
def CairnMirror.wf (x : CairnMirror) : Bool :=
  fits 32 x.nsid && fits 64 x.closed

/-- A `CaravanMirror` whose fields fit. -/
def CaravanMirror.wf (x : CaravanMirror) : Bool :=
  fits 16 x.target && fits 64 x.caravan && fits 64 x.base && fits 64 x.end_ && fits 32 x.record && fits 16 x.srcDevice

/-- A `FwuPeer` whose fields fit. -/
def FwuPeer.wf (x : FwuPeer) : Bool :=
  fits 8 x.state && fits 8 x.result && fits 8 x.slot && fits 32 x.version

/-- A `PeerHdr` whose fields fit. -/
def PeerHdr.wf (x : PeerHdr) : Bool :=
  fits 32 x.lseq && fits 32 x.cseq && x.ack.all (fits 32) && fits 16 x.fwMajor && fits 32 x.needMirror && fits 64 x.echo

/-- A `ReshapeMark` whose stripe sequence number fits. -/
def ReshapeMark.wf : ReshapeMark → Bool
  | .copied seq => fits 64 seq
  | _ => true

/-- A `ArbMsg` whose fields fit. -/
def ArbMsg.wf (x : ArbMsg) : Bool :=
  fits 8 x.typ && fits 16 x.head && fits 16 x.reason && fits 64 x.arrayId && fits 64 x.term && fits 32 x.seq &&
    fits 32 x.ackSeq && fits 16 x.pools && fits 64 x.timeNs

/-- A `Resp` whose fields fit. -/
def Resp.wf (x : Resp) : Bool :=
  fits 16 x.tag && fits 8 x.nandStatus && fits 32 x.busyUs && fits 4 x.planeFail && fits 64 x.term

/-- A `Decode` whose fields fit. -/
def Decode.wf (x : Decode) : Bool :=
  fits 16 x.bits && fits 32 x.unsat && x.slot.all (fun b => b.length ≤ 4096)

/-- A `FrameFlit` whose fields fit. -/
def FrameFlit.wf (x : FrameFlit) : Bool :=
  fits 16 x.fseq && fits 16 x.ack && fits 16 x.cmdCredits && fits 32 x.dataCredits

/-- A `ConfigFlit` whose fields fit. -/
def ConfigFlit.wf (x : ConfigFlit) : Bool :=
  fits 8 x.port && fits 8 x.dieCount && fits 8 x.pageKib && fits 16 x.cmdQueue && fits 16 x.dataBufKib && fits 64 x.serial &&
    fits 16 x.lastFseq && x.dies.all (fun d => decide (d.1 < 64))

/-- A `ThrSample` whose counts fit. -/
def ThrSample.wf (x : ThrSample) : Bool := fits 16 x.below && fits 16 x.at_ && fits 16 x.above

/-- A `BridgeStatus` whose fields fit. -/
def BridgeStatus.wf (x : BridgeStatus) : Bool :=
  fits 64 x.maxTerm && fits 64 x.mine && fits 64 x.other && x.chState.all (fits 64) && fits 64 x.present

/-- A `MgmtHdr` whose fields fit. -/
def MgmtHdr.wf (x : MgmtHdr) : Bool :=
  fits 16 x.src && fits 64 x.seq && fits 32 x.arg0 && fits 32 x.arg1

/-- A `ScrubWord` whose fields fit. -/
def ScrubWord.wf (x : ScrubWord) : Bool :=
  fits 16 x.page && fits 32 x.row && (match x.found with
    | .word a b => fits 8 a && fits 8 b
    | .line a b => a.length == 4096 && b.length == 4096
    | .tagParity => true)

/-- A `CarOpen` whose fields fit. -/
def CarOpen.wf (x : CarOpen) : Bool :=
  fits 64 x.index && fits 16 x.srcNsid && fits 64 x.base && fits 64 x.end_ && decide (x.tag.length = 16)

/-- A `CarEpoch` whose fields fit. -/
def CarEpoch.wf (x : CarEpoch) : Bool :=
  fits 64 x.index && fits 64 x.epoch && fits 64 x.count && decide (x.tag.length = 16)

/-- A `CarBlock` whose fields fit. -/
def CarBlock.wf (x : CarBlock) : Bool :=
  fits 64 x.index && fits 64 x.lba && fits 8 x.kind && x.owner.wf && x.desc.wf && decide (x.image.length ≤ 4096) && decide (x.tag.length = 16)

/-- A `CarEnd` whose fields fit. -/
def CarEnd.wf (x : CarEnd) : Bool := fits 64 x.index && fits 64 x.cairn && decide (x.tag.length = 16)

/-- A `CarClose` whose fields fit. -/
def CarClose.wf (x : CarClose) : Bool := fits 64 x.index && fits 64 x.count && fits 64 x.cairn && decide (x.tag.length = 16)

/-- A `RegUpset` whose fields fit. -/
def RegUpset.wf (x : RegUpset) : Bool :=
  fits 24 x.off && fits 64 x.flips

/-- A `PsQuiet` whose fields fit. -/
def PsQuiet.wf (x : PsQuiet) : Bool :=
  fits 64 x.idleUs

/-- A `BootEnv` whose fields fit. -/
def BootEnv.wf (x : BootEnv) : Bool :=
  fits 64 x.bridgeTerm

/-- Host data whose description fits. -/
def NvData.wf : NvData → Bool
  | .capsule b => fits 32 b.length
  | .dma b f => fits 32 b.length && f.all DmaFault.wf
  | .keyed a k n => fits 64 a && fits 32 k && fits 32 n

/-- A domain from 0 to 255, a port from 0 to 5, a subport from 0 to 7. -/
def PtpPort.wf (p : PtpPort) : Bool := fits 8 p.domain && decide (p.port < 6) && decide (p.sub < 8)

/-- A well-formed command. -/
def Instr.wf : Instr → Bool
  | .regWrite a => a.wf
  | .malformedAccess _ off len => fits 24 off && fits 16 len
  | .regWrite64Half off val => fits 24 off && fits 32 val
  | .bitAliasWrite off val => fits 24 off && fits 32 val
  | .scWriteBack off val => fits 24 off && fits 32 val
  | .sysModeReqWrite val => fits 32 val
  | .reshapeCancel => true
  | .simSubmit _ => true
  | .imageValidationDone => true
  | .stagedCopyWritten _ => true
  | .simActivate _ => true
  | .activationWaitEvent => true
  | .simDiscard => true
  | .slotAdjApply _ amount => fits 16 amount
  | .histClear _ => true
  | .secSetApply => true
  | .qpToError => true
  | .winRevoke => true
  | .winReopen => true
  | .cipZeroize => true
  | .shareLoad => true
  | .shareLoadDone _ _ => true
  | .scEnableWrite _ => true
  | .scInvalidate => true
  | .scWriteback => true
  | .scWritebackComplete => true
  | .arbRelease => true
  | .arbHandback => true
  | .laneRetrain _ => true
  | .snpRetain => true
  | .snpRelease => true
  | .skipLost => true
  | .caravanRestart => true
  | .caravanMakeFull => true
  | .warmResetPulse => true
  | .l3Req => true
  | .cfgCommit => true
  | .cfgAcceptAll => true
  | .cfgReapply => true
  | .fwuChunk _ => true
  | .fwuWriteDone _ => true
  | .fwuCommit => true
  | .fwuAbort => true
  | .programOwner _ => true
  | .programKfuse _ => true
  | .evrFlush => true
  | .evrClear key => fits 16 key
  | .evrClearDone => true
  | .evrRdIdxWrite index => fits 32 index
  | .evrRecordFetched => true
  | .cntSelWrite _ val => fits 32 val
  | .cntClearAll => true
  | .trcClear => true
  | .redSqTailWrite _ tail _ => fits 16 tail
  | .redCqHeadWrite _ head _ => fits 16 head
  | .redRingEnableWrite _ val => fits 32 val
  | .cipSqTailWrite _ tail _ => fits 16 tail
  | .cipCqHeadWrite _ head _ => fits 16 head
  | .cipRingEnableWrite _ val => fits 32 val
  | .jobCompress j => j.wf
  | .jobDecompress j => j.wf
  | .jobFlush j => j.wf
  | .jobSaveContext j => j.wf
  | .jobRestoreContext j => j.wf
  | .cipEncrypt j => j.wf
  | .cipDecrypt j => j.wf
  | .cipLoadKey j => j.wf
  | .cipSaveContext j => j.wf
  | .cipRestoreContext j => j.wf
  | .mgmtHello h => h.wf
  | .mgmtRegRead h => h.wf
  | .mgmtRegWrite h _ => h.wf
  | .mgmtBufWrite h _ => h.wf
  | .send p _ imm _ => p.wf && imm.all (fits 32)
  | .rdmaWrite p _ reth _ => p.wf && reth.all Reth.wf
  | .rdmaWriteWithImmediate p _ reth imm _ => p.wf && reth.all Reth.wf && fits 32 imm
  | .rdmaReadRequest p reth => p.wf && reth.wf
  | .rdmaReadResponse p _ _ _ => p.wf
  | .acknowledge p syndrome msn => p.wf && fits 8 syndrome && fits 24 msn
  | .cnp p => p.wf
  | .sprayWriteNotLast p h _ => p.wf && h.wf
  | .sprayWriteLast p h _ => p.wf && h.wf
  | .sprayWriteLastImmediate p h imm _ => p.wf && h.wf && fits 32 imm
  | .unsupportedOpcode p _ opcode => p.wf && fits 8 opcode
  | .pfcFrame _ _ _ => true
  | .tcpSegment _ _ _ => true
  | .cmReq r => r.wf
  | .cmRep qpn peerQpn psn _ => fits 24 qpn && fits 24 peerQpn && fits 24 psn
  | .cmRtu qpn => fits 24 qpn
  | .cmDreq qpn => fits 24 qpn
  | .cmRej qpn code => fits 24 qpn && fits 16 code
  | .netLinkDown _ => true
  | .netLinkUp _ => true
  | .contextFetchDone qpn _ => fits 24 qpn
  | .qpResetTimeout qpn => fits 24 qpn
  | .ucMessageTimeout qpn => fits 24 qpn
  | .sackGapTimer qpn => fits 24 qpn
  | .creditRefresh => true
  | .requesterRetriesExhausted qpn => fits 24 qpn
  | .paceRise qpn => fits 24 qpn
  | .strobe _ stamp width => fits 64 stamp && fits 32 width
  | .strobeLateLimit _ num => fits 32 num
  | .completionLateLimit _ num => fits 32 num
  | .ipclkMeasurement khz => fits 32 khz
  | .ipclkStopped => true
  | .ipclkInTolerance => true
  | .trigPulse _ => true
  | .ppsInEdge _ => true
  | .ptpSync m => m.from_.wf
  | .ptpSyncTimeout => true
  | .ppsInTimeout => true
  | .ref10mLost => true
  | .holdoverExpiry => true
  | .nvmeFlush h => h.wf
  | .nvmeWrite h slba nlb _ data => h.wf && fits 64 slba && fits 16 nlb && data.wf
  | .nvmeRead h slba nlb _ buf => h.wf && fits 64 slba && fits 16 nlb && buf.wf
  | .nvmeCompare h slba nlb data => h.wf && fits 64 slba && fits 16 nlb && data.wf
  | .nvmeWriteZeroes h slba nlb _ _ => h.wf && fits 64 slba && fits 16 nlb
  | .nvmeDatasetManagement h nr _ ranges _ => h.wf && fits 8 nr && ranges.all DsmRange.wf
  | .nvmeVerify h slba nlb => h.wf && fits 64 slba && fits 16 nlb
  | .placeCairn h _ _ => h.wf
  | .deleteIoSubmissionQueue h qid => h.wf && fits 16 qid
  | .deleteIoCompletionQueue h qid => h.wf && fits 16 qid
  | .createIoSubmissionQueue h qid size _ cqid base => h.wf && fits 16 qid && fits 16 size && fits 16 cqid && fits 64 base
  | .createIoCompletionQueue h qid size _ _ vector base => h.wf && fits 16 qid && fits 16 size && fits 16 vector &&
    fits 64 base
  | .getLogPage h lid _ numd offset buf => h.wf && fits 8 lid && fits 32 numd && fits 64 offset && buf.wf
  | .identify h cns buf => h.wf && fits 8 cns && buf.wf
  | .abort h sqid target => h.wf && fits 16 sqid && fits 16 target
  | .setFeatures h fid _ dw11 dw12 x => NvData.wf x && h.wf && fits 8 fid && fits 32 dw11 && fits 32 dw12
  | .getFeatures h fid sel dw11 buf => h.wf && fits 8 fid && fits 3 sel && fits 32 dw11 && buf.wf
  | .asynchronousEventRequest h => h.wf
  | .keepAlive h => h.wf
  | .keepAliveTimeout ctrl => fits 32 ctrl
  | .readEpochDigest h cairn _ buf => h.wf && fits 64 cairn && buf.wf
  | .frameIndexQuery h _ _ kindMask startSeq startNs count buf => h.wf && fits 8 kindMask && fits 32 startSeq &&
    fits 64 startNs && fits 32 count && buf.wf
  | .fabricsConnect c => c.wf
  | .propertyGet h off _ => h.wf && fits 24 off
  | .propertySet h off _ val => h.wf && fits 24 off && fits 64 val
  | .invalidCommandOpcode h _ opcode => h.wf && fits 8 opcode
  | .controllerReset => true
  | .lookupDefer lookup => fits 64 lookup
  | .fingerprintLookupDone lookup _ => fits 64 lookup
  | .tamperAlarm _ => true
  | .railAlarm _ => true
  | .crystalStop => true
  | .patrolScrub w => w.wf
  | .heartbeat h b => h.wf && b.wf
  | .pengenkoNak h lseq => h.wf && fits 32 lseq
  | .mirrorConfirmation h upTo => h.wf && fits 32 upTo
  | .imageDigest h generation _ _ => h.wf && fits 64 generation
  | .selfTestEcho h _ => h.wf
  | .mirrorSlot h s => h.wf && s.wf
  | .journalOpen h r => h.wf && r.wf
  | .journalClose h pool seq => h.wf && fits 4 pool && fits 64 seq
  | .mapDelta h d => h.wf && d.wf
  | .qpContextState h q => h.wf && q.wf
  | .windowState h w => h.wf && w.wf
  | .cairnState h c => h.wf && c.wf
  | .pendingHolders h l => h.wf && l.all HolderMirror.wf
  | .retainedCairnList h _ => h.wf
  | .caravanProgress h c => h.wf && c.wf
  | .reshapePosition h pool position => h.wf && fits 4 pool && position.wf
  | .channelLastMatched h _ num strobeNs => h.wf && fits 32 num && fits 64 strobeNs
  | .fwuState h f => h.wf && f.wf
  | .peerSilent => true
  | .heartbeatTimer => true
  | .pengenkoLaneRetrain _ _ _ => true
  | .arbFenceFall => true
  | .arbFenceRise => true
  | .verdict m => m.wf
  | .claimTimeout => true
  | .addressAnnounce => true
  | .transferGrant m => m.wf
  | .transferCommandsDrained => true
  | .arbStatusTimer => true
  | .verdictReqTimer => true
  | .verdictWaitExpiry => true
  | .selfTestPathCheck failed => failed.all (fits 64)
  | .selfTestDieCheck _ _ _ => true
  | .stripeFillTimeout pool seq => fits 4 pool && fits 64 seq
  | .parityComplete pool seq => fits 4 pool && fits 64 seq
  | .journalPageTimer pool => fits 4 pool
  | .timerCairn stream => fits 16 stream
  | .cairnClose nsid _ => fits 32 nsid
  | .caravanOpens target => fits 16 target
  | .caravanOpenRecord qpn r => fits 24 qpn && r.wf
  | .epochRecord qpn r => fits 24 qpn && r.wf
  | .blockRecord qpn r => fits 24 qpn && r.wf
  | .epochEndRecord qpn index _ => fits 24 qpn && index.wf
  | .imageEndRecord qpn index _ _ => fits 24 qpn && index.wf
  | .closeRecord qpn index => fits 24 qpn && index.wf
  | .caravanConfirmation target index refused => fits 16 target && fits 32 index && refused.all (fits 8)
  | .caravanReconnectTimer target => fits 16 target
  | .vrelenFrame f => f.wf
  | .fillerFrame _ => true
  | .fillerFrameDue _ => true
  | .retrainRequest _ => true
  | .frameAckTimeout _ => true
  | .laneTrainingLimit _ _ => true
  | .configFlit c => c.wf
  | .laneDownRetry _ => true
  | .readResponse r d => r.wf && d.wf
  | .programResponse r => r.wf
  | .eraseResponse r => r.wf
  | .suspendResponse r => r.wf
  | .resumeResponse r => r.wf
  | .statusResponse r => r.wf
  | .resetDieResponse r => r.wf
  | .setThreshResponse r => r.wf
  | .setTrimResponse r => r.wf
  | .claimResponse r => r.wf
  | .bridgeStatusResponse r b => r.wf && b.wf
  | .loopbackResponse r _ => r.wf
  | .bridgeCommandTimeout _ tag => fits 16 tag
  | .bridgeStatusPoll => true
  | .starvedErase _ _ => true
  | .thresholdSample _ _ group level reads => fits 8 group && fits 8 level && reads.wf
  | .stallEvent _ seconds => fits 32 seconds
  | .watchdogStage1 => true
  | .watchdogStage2 => true
  | .engineHang _ => true
  | .cfgSweep upset => upset.all RegUpset.wf
  | .powerOnReset b => b.wf
  | .pinReset b => b.wf
  | .warmReset b => b.wf
  | .functionLevelReset => true
  | .pwrFailNFall lowNs _ => fits 64 lowNs
  | .pwrFailNRise => true
  | .parkRelease => true
  | .holdupOkFall => true
  | .holdupOkRise => true
  | .powerStateEntry p => p.wf
  | .l3Exit => true
  | .dieTempSample _ hotUs => fits 32 hotUs
  | .remoteTempSample _ => true
  | .thermalDrainEnd => true
  | .mainRailLoss b => b.wf
  | .refclkLoss _ => true
  | .refclkReturn _ => true
  | .pcieLinkDown => true
  | .trialPassed => true
  | .trialFailed => true
  | .eventFlushTimer => true
  | .tamperInputChange _ _ => true
  | .pcieLinkTrained => true
  | .ptpAnnounce master intervalNs => fits 64 master.id && master.from_.wf && fits 64 intervalNs
  | .timeSecond => true
  | .lifeFigureWrite _ => true
  | .arbiterDatagramBad => true
  | .basicManagementCommand code => fits 16 code
  | .retransmissionTimeout qpn => fits 24 qpn
  | .powerStateEntered => true
  | .controlSummarySnapshot => true

end Sys2Proof
end

