-- ==== Sys2Proof/Tests/Slice0.lean ====
section
/-! SUPPORT. Tests: ill-formed commands are refused, small states meet the hypotheses of every statement, and a few operations answer what
the spec gives. -/
namespace Sys2Proof.Tests
open Sys2Proof.Machine

/-! ### Ill-formed operands, one for each check -/

theorem test_wf_regAccess :
    let s : RegAccess := { off := 0, len := 0, val := 0 }
    s.wf = true ∧ ({ s with off := 2 ^ 24 } : RegAccess).wf = false ∧ ({ s with len := 2 ^ 8 } : RegAccess).wf = false ∧
    ({ s with val := 2 ^ 64 } : RegAccess).wf = false := by decide

theorem test_wf_pkt :
    let s : Pkt := { port := { port := 0, sub := 0 }, qpn := 0, psn := 0 }
    s.wf = true ∧ ({ s with qpn := 2 ^ 24 } : Pkt).wf = false ∧ ({ s with psn := 2 ^ 24 } : Pkt).wf = false ∧
    ({ s with pkey := 2 ^ 16 } : Pkt).wf = false := by decide

theorem test_wf_reth :
    let s : Reth := { va := 0, rkey := 0, len := 0 }
    s.wf = true ∧ ({ s with va := 2 ^ 64 } : Reth).wf = false ∧ ({ s with rkey := 2 ^ 32 } : Reth).wf = false ∧
    ({ s with len := 2 ^ 32 } : Reth).wf = false := by decide

theorem test_wf_sprayHdr :
    let s : SprayHdr := { va := 0, rkey := 0, msgLen := 0, msgPsn := 0, pktOffset := 0 }
    s.wf = true ∧ ({ s with va := 2 ^ 64 } : SprayHdr).wf = false ∧ ({ s with rkey := 2 ^ 32 } : SprayHdr).wf = false ∧
    ({ s with msgLen := 2 ^ 32 } : SprayHdr).wf = false ∧ ({ s with msgPsn := 2 ^ 24 } : SprayHdr).wf = false ∧
    ({ s with pktOffset := 2 ^ 32 } : SprayHdr).wf = false := by decide

theorem test_wf_cmReq :
    let s : CmReq := { port := { port := 0, sub := 0 }, peerAddr := [], peerQpn := 0, service := 0, mtu := 0, psn := 0, priv := [] }
    s.wf = true ∧ ({ s with peerQpn := 2 ^ 24 } : CmReq).wf = false ∧ ({ s with service := 2 ^ 64 } : CmReq).wf = false ∧
    ({ s with mtu := 2 ^ 16 } : CmReq).wf = false ∧ ({ s with psn := 2 ^ 24 } : CmReq).wf = false := by decide

theorem test_wf_nvHdr :
    let s : NvHdr := { ctrl := 0, sq := 0, cid := 0, nsid := 0 }
    s.wf = true ∧ ({ s with ctrl := 2 ^ 32 } : NvHdr).wf = false ∧ ({ s with sq := 2 ^ 16 } : NvHdr).wf = false ∧
    ({ s with cid := 2 ^ 16 } : NvHdr).wf = false ∧ ({ s with nsid := 2 ^ 32 } : NvHdr).wf = false := by decide

theorem test_wf_nvBuf :
    let s : NvBuf := { addr := 0, len := 0 }
    s.wf = true ∧ ({ s with addr := 2 ^ 64 } : NvBuf).wf = false ∧ ({ s with rkey := 2 ^ 32 } : NvBuf).wf = false ∧
    ({ s with len := 2 ^ 32 } : NvBuf).wf = false := by decide

theorem test_wf_dsmRange :
    let s : DsmRange := { slba := 0, len := 0 }
    s.wf = true ∧ ({ s with slba := 2 ^ 64 } : DsmRange).wf = false ∧ ({ s with len := 2 ^ 32 } : DsmRange).wf = false := by decide

theorem test_wf_connectArgs :
    let s : ConnectArgs := { qpn := 0, cid := 0, qid := 0, sqsize_m1 := 0, kato := 0, cntlid := 0, hostId := [], discovery := false, subnqn := [], wantsAuth := false }
    s.wf = true ∧ ({ s with qpn := 2 ^ 24 } : ConnectArgs).wf = false ∧ ({ s with cid := 2 ^ 16 } : ConnectArgs).wf = false ∧
    ({ s with qid := 2 ^ 16 } : ConnectArgs).wf = false ∧ ({ s with sqsize_m1 := 2 ^ 16 } : ConnectArgs).wf = false ∧
    ({ s with kato := 2 ^ 32 } : ConnectArgs).wf = false ∧ ({ s with cntlid := 2 ^ 16 } : ConnectArgs).wf = false := by decide

theorem test_wf_jobArgs :
    let s : JobArgs := { ring := 0, desc := List.replicate 64 0 }
    s.wf = true ∧ ({ s with desc := List.replicate 63 0 } : JobArgs).wf = false ∧ ({ s with input := [0] } : JobArgs).wf = false ∧
    ({ s with fault := some (2 ^ 32) } : JobArgs).wf = false ∧ ({ s with outFault := some (2 ^ 32) } : JobArgs).wf = false := by decide

theorem test_wf_cipherArgs :
    let s : CipherArgs := { ring := 0, desc := List.replicate 64 0 }
    s.wf = true ∧ ({ s with desc := List.replicate 63 0 } : CipherArgs).wf = false ∧ ({ s with input := [0] } : CipherArgs).wf = false ∧
    ({ s with fault := some (2 ^ 32) } : CipherArgs).wf = false ∧ ({ s with outFault := some (2 ^ 32) } : CipherArgs).wf = false := by decide

theorem test_wf_desc :
    let s : Desc := {}
    s.wf = true ∧ ({ s with crc := 2 ^ 32 } : Desc).wf = false ∧ ({ s with ctl := 2 ^ 8 } : Desc).wf = false ∧
    ({ s with codecVer := 2 ^ 8 } : Desc).wf = false ∧ ({ s with keyLabel := 2 ^ 16 } : Desc).wf = false := by decide

theorem test_wf_writeId :
    let s : WriteId := {}
    s.wf = true ∧ ({ s with stream := 2 ^ 16 } : WriteId).wf = false ∧ ({ s with seq := 2 ^ 64 } : WriteId).wf = false ∧
    ({ s with block := 2 ^ 32 } : WriteId).wf = false := by decide

theorem test_wf_heartbeat :
    let s : Heartbeat := { term := 0, generation := 0, pools := 0, mirrorReq := false, sealOn := false, resync := false, kcv := 0 }
    s.wf = true ∧ ({ s with term := 2 ^ 64 } : Heartbeat).wf = false ∧ ({ s with generation := 2 ^ 64 } : Heartbeat).wf = false ∧
    ({ s with pools := 2 ^ 16 } : Heartbeat).wf = false ∧ ({ s with kcv := 2 ^ 32 } : Heartbeat).wf = false := by decide

theorem test_wf_mirrorSlot :
    let s : MirrorSlot := { off := 0, nsid := 0, lba := 0, wid := {}, desc := {}, image := [], plain := [] }
    s.wf = true ∧ ({ s with off := 2 ^ 64 } : MirrorSlot).wf = false ∧ ({ s with nsid := 2 ^ 32 } : MirrorSlot).wf = false ∧
    ({ s with lba := 2 ^ 64 } : MirrorSlot).wf = false ∧ ({ s with wid := { s.wid with stream := 2 ^ 16 } } : MirrorSlot).wf = false ∧
    ({ s with desc := { s.desc with crc := 2 ^ 32 } } : MirrorSlot).wf = false := by decide

theorem test_wf_memberAddr :
    let s : MemberAddr := { module := 0, die := 0, block := 0, page := 0 }
    s.wf = true ∧ ({ s with module := 2 ^ 8 } : MemberAddr).wf = false ∧ ({ s with die := 2 ^ 8 } : MemberAddr).wf = false ∧
    ({ s with block := 2 ^ 32 } : MemberAddr).wf = false ∧ ({ s with page := 2 ^ 16 } : MemberAddr).wf = false ∧
    ({ s with state := 2 ^ 8 } : MemberAddr).wf = false ∧ ({ s with role := 2 ^ 8 } : MemberAddr).wf = false ∧
    ({ s with index := 2 ^ 8 } : MemberAddr).wf = false := by decide

theorem test_wf_stripeSlot :
    let s : StripeSlot := { member := 0, slot := 0, off := 0, nsid := 0, lba := 0, wid := {}, desc := {}, image := [], plain := [] }
    s.wf = true ∧ ({ s with member := 2 ^ 8 } : StripeSlot).wf = false ∧ ({ s with slot := 2 ^ 8 } : StripeSlot).wf = false ∧
    ({ s with off := 2 ^ 8 } : StripeSlot).wf = false ∧ ({ s with nsid := 2 ^ 32 } : StripeSlot).wf = false ∧
    ({ s with lba := 2 ^ 64 } : StripeSlot).wf = false ∧ ({ s with wid := { s.wid with stream := 2 ^ 16 } } : StripeSlot).wf = false ∧
    ({ s with desc := { s.desc with crc := 2 ^ 32 } } : StripeSlot).wf = false := by decide

theorem test_wf_openRec :
    let s : OpenRec := { pool := 0, seq := 0, data := 0, parity := 0, pageKib := 0, layout := 0, generation := 0, members := [], slots := [] }
    s.wf = true ∧ ({ s with pool := 2 ^ 4 } : OpenRec).wf = false ∧ ({ s with seq := 2 ^ 64 } : OpenRec).wf = false ∧
    ({ s with data := 2 ^ 8 } : OpenRec).wf = false ∧ ({ s with parity := 2 ^ 8 } : OpenRec).wf = false ∧
    ({ s with pageKib := 2 ^ 8 } : OpenRec).wf = false ∧ ({ s with layout := 2 ^ 8 } : OpenRec).wf = false ∧
    ({ s with generation := 2 ^ 64 } : OpenRec).wf = false ∧
    ({ s with members := [{ ({ module := 0, die := 0, block := 0, page := 0 } : MemberAddr) with module := 2 ^ 8 }] } : OpenRec).wf = false ∧ ({ s with slots := [{ ({ member := 0, slot := 0, off := 0, nsid := 0, lba := 0, wid := {}, desc := {}, image := [], plain := [] } : StripeSlot) with member := 2 ^ 8 }] } : OpenRec).wf = false := by decide

theorem test_wf_mapDelta :
    let s : MapDelta := { pool := 0, stripeSeq := 0, nsid := 0, lba := 0, loc := .zero, wid := {} }
    s.wf = true ∧ ({ s with pool := 2 ^ 4 } : MapDelta).wf = false ∧ ({ s with stripeSeq := 2 ^ 64 } : MapDelta).wf = false ∧
    ({ s with nsid := 2 ^ 32 } : MapDelta).wf = false ∧ ({ s with lba := 2 ^ 64 } : MapDelta).wf = false ∧
    ({ s with wid := { s.wid with stream := 2 ^ 16 } } : MapDelta).wf = false := by decide

theorem test_wf_qpMirror :
    let s : QpMirror := { qpn := 0, senderQpn := 0, uc := false, spray := false, prot := false, epsn := 0, msn := 0, mtu := 0, paths := [], windows := [] }
    s.wf = true ∧ ({ s with qpn := 2 ^ 24 } : QpMirror).wf = false ∧ ({ s with senderQpn := 2 ^ 24 } : QpMirror).wf = false ∧
    ({ s with epsn := 2 ^ 24 } : QpMirror).wf = false ∧ ({ s with msn := 2 ^ 24 } : QpMirror).wf = false ∧
    ({ s with mtu := 2 ^ 16 } : QpMirror).wf = false ∧ ({ s with windows := [2 ^ 64] } : QpMirror).wf = false := by decide

theorem test_wf_winMirror :
    let s : WinMirror := { window := 0, horizon := 0, limit := 0, cseq := 0, lastImm := 0, qpn := 0 }
    s.wf = true ∧ ({ s with window := 2 ^ 16 } : WinMirror).wf = false ∧ ({ s with horizon := 2 ^ 64 } : WinMirror).wf = false ∧
    ({ s with limit := 2 ^ 64 } : WinMirror).wf = false ∧ ({ s with cseq := 2 ^ 32 } : WinMirror).wf = false ∧
    ({ s with lastImm := 2 ^ 32 } : WinMirror).wf = false ∧ ({ s with qpn := 2 ^ 24 } : WinMirror).wf = false := by decide

theorem test_wf_holderMirror :
    let s : HolderMirror := { nsid := 0, lba := 0, wid := {}, fp := [], slotOff := none }
    s.wf = true ∧ ({ s with nsid := 2 ^ 32 } : HolderMirror).wf = false ∧ ({ s with lba := 2 ^ 64 } : HolderMirror).wf = false ∧
    ({ s with wid := { s.wid with stream := 2 ^ 16 } } : HolderMirror).wf = false ∧
    ({ s with slotOff := some (2 ^ 64) } : HolderMirror).wf = false := by decide

theorem test_wf_cairnMirror :
    let s : CairnMirror := { nsid := 0, closed := 0, digest := [], placed := [], heads := [] }
    s.wf = true ∧ ({ s with nsid := 2 ^ 32 } : CairnMirror).wf = false ∧ ({ s with closed := 2 ^ 64 } : CairnMirror).wf = false := by decide

theorem test_wf_caravanMirror :
    let s : CaravanMirror := { target := 0, caravan := 0, base := 0, end_ := 0, full := false, record := 0, srcDevice := 0 }
    s.wf = true ∧ ({ s with target := 2 ^ 16 } : CaravanMirror).wf = false ∧ ({ s with caravan := 2 ^ 64 } : CaravanMirror).wf = false ∧
    ({ s with base := 2 ^ 64 } : CaravanMirror).wf = false ∧ ({ s with end_ := 2 ^ 64 } : CaravanMirror).wf = false ∧
    ({ s with record := 2 ^ 32 } : CaravanMirror).wf = false ∧ ({ s with srcDevice := 2 ^ 16 } : CaravanMirror).wf = false := by decide

theorem test_wf_fwuPeer :
    let s : FwuPeer := {}
    s.wf = true ∧ ({ s with state := 2 ^ 8 } : FwuPeer).wf = false ∧ ({ s with result := 2 ^ 8 } : FwuPeer).wf = false ∧
    ({ s with slot := 2 ^ 8 } : FwuPeer).wf = false ∧ ({ s with version := 2 ^ 32 } : FwuPeer).wf = false := by decide

theorem test_wf_peerHdr :
    let s : PeerHdr := { lseq := 0, cseq := 0 }
    s.wf = true ∧ ({ s with lseq := 2 ^ 32 } : PeerHdr).wf = false ∧ ({ s with cseq := 2 ^ 32 } : PeerHdr).wf = false ∧
    ({ s with ack := some (2 ^ 32) } : PeerHdr).wf = false ∧ ({ s with fwMajor := 2 ^ 16 } : PeerHdr).wf = false ∧
    ({ s with needMirror := 2 ^ 32 } : PeerHdr).wf = false ∧ ({ s with echo := 2 ^ 64 } : PeerHdr).wf = false := by decide

theorem test_wf_arbMsg :
    let s : ArbMsg := { typ := 0, head := 0 }
    s.wf = true ∧ ({ s with typ := 2 ^ 8 } : ArbMsg).wf = false ∧ ({ s with head := 2 ^ 16 } : ArbMsg).wf = false ∧
    ({ s with reason := 2 ^ 16 } : ArbMsg).wf = false ∧ ({ s with arrayId := 2 ^ 64 } : ArbMsg).wf = false ∧
    ({ s with term := 2 ^ 64 } : ArbMsg).wf = false ∧ ({ s with seq := 2 ^ 32 } : ArbMsg).wf = false ∧
    ({ s with ackSeq := 2 ^ 32 } : ArbMsg).wf = false ∧ ({ s with pools := 2 ^ 16 } : ArbMsg).wf = false ∧
    ({ s with timeNs := 2 ^ 64 } : ArbMsg).wf = false := by decide

theorem test_wf_resp :
    let s : Resp := { lane := 0, tag := 0, die := 0, status := .ok }
    s.wf = true ∧ ({ s with tag := 2 ^ 16 } : Resp).wf = false ∧ ({ s with nandStatus := 2 ^ 8 } : Resp).wf = false ∧
    ({ s with busyUs := 2 ^ 32 } : Resp).wf = false ∧ ({ s with planeFail := 2 ^ 4 } : Resp).wf = false ∧
    ({ s with term := 2 ^ 64 } : Resp).wf = false := by decide

theorem test_wf_decode :
    let s : Decode := { decoded := false }
    s.wf = true ∧ ({ s with bits := 2 ^ 16 } : Decode).wf = false ∧ ({ s with unsat := 2 ^ 32 } : Decode).wf = false := by decide

theorem test_wf_frameFlit :
    let s : FrameFlit := { lane := 0, crcOk := false, fseq := 0, ackValid := false, nak := false, ack := 0, cmdCredits := 0, dataCredits := 0 }
    s.wf = true ∧ ({ s with fseq := 2 ^ 16 } : FrameFlit).wf = false ∧ ({ s with ack := 2 ^ 16 } : FrameFlit).wf = false ∧
    ({ s with cmdCredits := 2 ^ 16 } : FrameFlit).wf = false ∧ ({ s with dataCredits := 2 ^ 32 } : FrameFlit).wf = false := by decide

theorem test_wf_configFlit :
    let s : ConfigFlit := { lane := 0, port := 0, dieCount := 0, pageKib := 0, cmdQueue := 0, dataBufKib := 0, serial := 0, lastFseq := 0, moduleA := [], dies := [] }
    s.wf = true ∧ ({ s with port := 2 ^ 8 } : ConfigFlit).wf = false ∧ ({ s with dieCount := 2 ^ 8 } : ConfigFlit).wf = false ∧
    ({ s with pageKib := 2 ^ 8 } : ConfigFlit).wf = false ∧ ({ s with cmdQueue := 2 ^ 16 } : ConfigFlit).wf = false ∧
    ({ s with dataBufKib := 2 ^ 16 } : ConfigFlit).wf = false ∧ ({ s with serial := 2 ^ 64 } : ConfigFlit).wf = false ∧
    ({ s with lastFseq := 2 ^ 16 } : ConfigFlit).wf = false ∧ ({ s with dies := [(64, [])] } : ConfigFlit).wf = false := by decide

theorem test_wf_bridgeStatus :
    let s : BridgeStatus := { maxTerm := 0, mine := 0, other := 0, chState := [], chTemp := [], present := 0 }
    s.wf = true ∧ ({ s with maxTerm := 2 ^ 64 } : BridgeStatus).wf = false ∧ ({ s with mine := 2 ^ 64 } : BridgeStatus).wf = false ∧
    ({ s with other := 2 ^ 64 } : BridgeStatus).wf = false ∧ ({ s with chState := [2 ^ 64] } : BridgeStatus).wf = false ∧
    ({ s with present := 2 ^ 64 } : BridgeStatus).wf = false := by decide

theorem test_wf_mgmtHdr :
    let s : MgmtHdr := { seq := 0 }
    s.wf = true ∧ ({ s with src := 2 ^ 16 } : MgmtHdr).wf = false ∧ ({ s with seq := 2 ^ 64 } : MgmtHdr).wf = false ∧
    ({ s with arg0 := 2 ^ 32 } : MgmtHdr).wf = false ∧ ({ s with arg1 := 2 ^ 32 } : MgmtHdr).wf = false := by decide

theorem test_wf_scrubWord :
    let s : ScrubWord := { page := 0, row := 0, area := .other, found := .word 0 0 }
    s.wf = true ∧ ({ s with page := 2 ^ 16 } : ScrubWord).wf = false ∧ ({ s with row := 2 ^ 32 } : ScrubWord).wf = false := by decide

theorem test_wf_carOpen :
    let s : CarOpen := { index := 0, full := false, base := 0, end_ := 0, baseDigest := [], tag := Machine.zeros 16 }
    s.wf = true ∧ ({ s with index := 2 ^ 64 } : CarOpen).wf = false ∧ ({ s with base := 2 ^ 64 } : CarOpen).wf = false ∧
    ({ s with end_ := 2 ^ 64 } : CarOpen).wf = false ∧ ({ s with srcNsid := 2 ^ 16 } : CarOpen).wf = false ∧
    ({ s with tag := [] } : CarOpen).wf = false := by decide

theorem test_wf_carEpoch :
    let s : CarEpoch := { index := 0, epoch := 0, count := 0, tag := Machine.zeros 16 }
    s.wf = true ∧ ({ s with index := 2 ^ 64 } : CarEpoch).wf = false ∧ ({ s with epoch := 2 ^ 64 } : CarEpoch).wf = false ∧
    ({ s with count := 2 ^ 64 } : CarEpoch).wf = false ∧ ({ s with tag := [] } : CarEpoch).wf = false := by decide

theorem test_wf_carBlock :
    let s : CarBlock := { index := 0, lba := 0, kind := 0, owner := {}, content := [], tag := Machine.zeros 16 }
    s.wf = true ∧ ({ s with index := 2 ^ 64 } : CarBlock).wf = false ∧ ({ s with lba := 2 ^ 64 } : CarBlock).wf = false ∧
    ({ s with kind := 2 ^ 8 } : CarBlock).wf = false ∧ ({ s with tag := [] } : CarBlock).wf = false ∧
    ({ s with owner := { s.owner with stream := 2 ^ 16 } } : CarBlock).wf = false := by decide

theorem test_wf_carEnd :
    let s : CarEnd := { index := 0, cairn := 0, tag := Machine.zeros 16 }
    s.wf = true ∧ ({ s with index := 2 ^ 64 } : CarEnd).wf = false ∧ ({ s with cairn := 2 ^ 64 } : CarEnd).wf = false ∧
    ({ s with tag := [] } : CarEnd).wf = false := by decide

theorem test_wf_carClose :
    let s : CarClose := { index := 0, count := 0, cairn := 0, tag := Machine.zeros 16 }
    s.wf = true ∧ ({ s with index := 2 ^ 64 } : CarClose).wf = false ∧ ({ s with count := 2 ^ 64 } : CarClose).wf = false ∧
    ({ s with cairn := 2 ^ 64 } : CarClose).wf = false ∧ ({ s with tag := [] } : CarClose).wf = false := by decide

theorem test_wf_regUpset :
    let s : RegUpset := { off := 0, flips := 0 }
    s.wf = true ∧ ({ s with off := 2 ^ 24 } : RegUpset).wf = false ∧ ({ s with flips := 2 ^ 64 } : RegUpset).wf = false := by decide

theorem test_wf_psQuiet :
    let s : PsQuiet := { idleUs := 0 }
    s.wf = true ∧ ({ s with idleUs := 2 ^ 64 } : PsQuiet).wf = false := by decide

theorem test_wf_bootEnv :
    let s : BootEnv := {}
    s.wf = true ∧ ({ s with bridgeTerm := 2 ^ 64 } : BootEnv).wf = false := by decide

theorem test_wf_nvData : NvData.wf (.capsule []) = true ∧ NvData.wf (.keyed (2 ^ 64) 0 0) = false ∧
    NvData.wf (.keyed 0 (2 ^ 32) 0) = false ∧ NvData.wf (.keyed 0 0 (2 ^ 32)) = false := by decide

theorem test_wf_commands1 :
    Instr.wf (.regWrite { ({ off := 0, len := 0, val := 0 } : RegAccess) with off := 2 ^ 24 }) = false ∧
    Instr.wf (.malformedAccess false 0 (2 ^ 16)) = false ∧
    Instr.wf (.regWrite64Half 0 (2 ^ 32)) = false ∧
    Instr.wf (.bitAliasWrite 0 (2 ^ 32)) = false ∧
    Instr.wf (.scWriteBack 0 (2 ^ 32)) = false ∧
    Instr.wf (.sysModeReqWrite (2 ^ 32)) = false ∧
    Instr.wf (.slotAdjApply 0 (2 ^ 16)) = false ∧
    Instr.wf (.evrClear (2 ^ 16)) = false ∧
    Instr.wf (.evrRdIdxWrite (2 ^ 32)) = false ∧
    Instr.wf (.cntSelWrite 0 (2 ^ 32)) = false ∧
    Instr.wf (.redSqTailWrite 0 (2 ^ 16) []) = false ∧
    Instr.wf (.redCqHeadWrite 0 (2 ^ 16) []) = false ∧
    Instr.wf (.redRingEnableWrite 0 (2 ^ 32)) = false ∧
    Instr.wf (.cipSqTailWrite 0 (2 ^ 16) []) = false ∧
    Instr.wf (.cipCqHeadWrite 0 (2 ^ 16) []) = false ∧
    Instr.wf (.cipRingEnableWrite 0 (2 ^ 32)) = false ∧
    Instr.wf (.jobCompress { ring := 0, desc := [] }) = false ∧
    Instr.wf (.jobDecompress { ring := 0, desc := [] }) = false ∧
    Instr.wf (.jobFlush { ring := 0, desc := [] }) = false ∧
    Instr.wf (.jobSaveContext { ring := 0, desc := [] }) = false := by
  decide

theorem test_wf_commands2 :
    Instr.wf (.jobRestoreContext { ring := 0, desc := [] }) = false ∧
    Instr.wf (.cipEncrypt { ring := 0, desc := [] }) = false ∧
    Instr.wf (.cipDecrypt { ring := 0, desc := [] }) = false ∧
    Instr.wf (.cipLoadKey { ring := 0, desc := [] }) = false ∧
    Instr.wf (.cipSaveContext { ring := 0, desc := [] }) = false ∧
    Instr.wf (.cipRestoreContext { ring := 0, desc := [] }) = false ∧
    Instr.wf (.mgmtHello { ({ seq := 0 } : MgmtHdr) with src := 2 ^ 16 }) = false ∧
    Instr.wf (.mgmtRegRead { ({ seq := 0 } : MgmtHdr) with src := 2 ^ 16 }) = false ∧
    Instr.wf (.mgmtRegWrite { ({ seq := 0 } : MgmtHdr) with src := 2 ^ 16 } []) = false ∧
    Instr.wf (.mgmtBufWrite { ({ seq := 0 } : MgmtHdr) with src := 2 ^ 16 } []) = false ∧
    Instr.wf (.send ({ port := { port := 0, sub := 0 }, qpn := 0, psn := 0 } : Pkt) .only (some (2 ^ 32)) []) = false ∧
    Instr.wf (.rdmaWrite ({ port := { port := 0, sub := 0 }, qpn := 0, psn := 0 } : Pkt) .only (some { ({ va := 0, rkey := 0, len := 0 } : Reth) with va := 2 ^ 64 }) []) = false ∧
    Instr.wf (.rdmaWriteWithImmediate ({ port := { port := 0, sub := 0 }, qpn := 0, psn := 0 } : Pkt) .only none (2 ^ 32) []) = false ∧
    Instr.wf (.rdmaReadRequest ({ port := { port := 0, sub := 0 }, qpn := 0, psn := 0 } : Pkt) { ({ va := 0, rkey := 0, len := 0 } : Reth) with va := 2 ^ 64 }) = false ∧
    Instr.wf (.rdmaReadResponse { ({ port := { port := 0, sub := 0 }, qpn := 0, psn := 0 } : Pkt) with qpn := 2 ^ 24 } [] false false) = false ∧
    Instr.wf (.acknowledge ({ port := { port := 0, sub := 0 }, qpn := 0, psn := 0 } : Pkt) 0 (2 ^ 24)) = false ∧
    Instr.wf (.cnp { ({ port := { port := 0, sub := 0 }, qpn := 0, psn := 0 } : Pkt) with qpn := 2 ^ 24 }) = false ∧
    Instr.wf (.sprayWriteNotLast ({ port := { port := 0, sub := 0 }, qpn := 0, psn := 0 } : Pkt) { ({ va := 0, rkey := 0, msgLen := 0, msgPsn := 0, pktOffset := 0 } : SprayHdr) with va := 2 ^ 64 } []) = false ∧
    Instr.wf (.sprayWriteLast ({ port := { port := 0, sub := 0 }, qpn := 0, psn := 0 } : Pkt) { ({ va := 0, rkey := 0, msgLen := 0, msgPsn := 0, pktOffset := 0 } : SprayHdr) with va := 2 ^ 64 } []) = false ∧
    Instr.wf (.sprayWriteLastImmediate ({ port := { port := 0, sub := 0 }, qpn := 0, psn := 0 } : Pkt) ({ va := 0, rkey := 0, msgLen := 0, msgPsn := 0, pktOffset := 0 } : SprayHdr) (2 ^ 32) []) = false := by
  decide

theorem test_wf_commands3 :
    Instr.wf (.unsupportedOpcode ({ port := { port := 0, sub := 0 }, qpn := 0, psn := 0 } : Pkt) .rc (2 ^ 8)) = false ∧
    Instr.wf (.cmReq { ({ port := { port := 0, sub := 0 }, peerAddr := [], peerQpn := 0, service := 0, mtu := 0, psn := 0, priv := [] } : CmReq) with peerQpn := 2 ^ 24 }) = false ∧
    Instr.wf (.cmRep 0 0 (2 ^ 24) []) = false ∧
    Instr.wf (.cmRtu (2 ^ 24)) = false ∧
    Instr.wf (.cmDreq (2 ^ 24)) = false ∧
    Instr.wf (.cmRej 0 (2 ^ 16)) = false ∧
    Instr.wf (.contextFetchDone (2 ^ 24) false) = false ∧
    Instr.wf (.qpResetTimeout (2 ^ 24)) = false ∧
    Instr.wf (.ucMessageTimeout (2 ^ 24)) = false ∧
    Instr.wf (.sackGapTimer (2 ^ 24)) = false ∧
    Instr.wf (.requesterRetriesExhausted (2 ^ 24)) = false ∧
    Instr.wf (.paceRise (2 ^ 24)) = false ∧
    Instr.wf (.strobe 0 0 (2 ^ 32)) = false ∧
    Instr.wf (.strobeLateLimit 0 (2 ^ 32)) = false ∧
    Instr.wf (.completionLateLimit 0 (2 ^ 32)) = false ∧
    Instr.wf (.ipclkMeasurement (2 ^ 32)) = false ∧
    Instr.wf (.nvmeFlush { ({ ctrl := 0, sq := 0, cid := 0, nsid := 0 } : NvHdr) with ctrl := 2 ^ 32 }) = false ∧
    Instr.wf (.nvmeWrite ({ ctrl := 0, sq := 0, cid := 0, nsid := 0 } : NvHdr) 0 0 false (.keyed (2 ^ 64) 0 0)) = false ∧
    Instr.wf (.nvmeRead ({ ctrl := 0, sq := 0, cid := 0, nsid := 0 } : NvHdr) 0 0 false { ({ addr := 0, len := 0 } : NvBuf) with addr := 2 ^ 64 }) = false ∧
    Instr.wf (.nvmeCompare ({ ctrl := 0, sq := 0, cid := 0, nsid := 0 } : NvHdr) 0 0 (.keyed (2 ^ 64) 0 0)) = false := by
  decide

theorem test_wf_commands4 :
    Instr.wf (.nvmeWriteZeroes ({ ctrl := 0, sq := 0, cid := 0, nsid := 0 } : NvHdr) 0 (2 ^ 16) false false) = false ∧
    Instr.wf (.nvmeDatasetManagement ({ ctrl := 0, sq := 0, cid := 0, nsid := 0 } : NvHdr) 0 false [{ ({ slba := 0, len := 0 } : DsmRange) with slba := 2 ^ 64 }] none) = false ∧
    Instr.wf (.nvmeVerify ({ ctrl := 0, sq := 0, cid := 0, nsid := 0 } : NvHdr) 0 (2 ^ 16)) = false ∧
    Instr.wf (.placeCairn { ({ ctrl := 0, sq := 0, cid := 0, nsid := 0 } : NvHdr) with ctrl := 2 ^ 32 } false false) = false ∧
    Instr.wf (.deleteIoSubmissionQueue ({ ctrl := 0, sq := 0, cid := 0, nsid := 0 } : NvHdr) (2 ^ 16)) = false ∧
    Instr.wf (.deleteIoCompletionQueue ({ ctrl := 0, sq := 0, cid := 0, nsid := 0 } : NvHdr) (2 ^ 16)) = false ∧
    Instr.wf (.createIoSubmissionQueue ({ ctrl := 0, sq := 0, cid := 0, nsid := 0 } : NvHdr) 0 0 false 0 (2 ^ 64)) = false ∧
    Instr.wf (.createIoCompletionQueue ({ ctrl := 0, sq := 0, cid := 0, nsid := 0 } : NvHdr) 0 0 false false 0 (2 ^ 64)) = false ∧
    Instr.wf (.getLogPage ({ ctrl := 0, sq := 0, cid := 0, nsid := 0 } : NvHdr) 0 false 0 0 { ({ addr := 0, len := 0 } : NvBuf) with addr := 2 ^ 64 }) = false ∧
    Instr.wf (.identify ({ ctrl := 0, sq := 0, cid := 0, nsid := 0 } : NvHdr) 0 { ({ addr := 0, len := 0 } : NvBuf) with addr := 2 ^ 64 }) = false ∧
    Instr.wf (.abort ({ ctrl := 0, sq := 0, cid := 0, nsid := 0 } : NvHdr) 0 (2 ^ 16)) = false ∧
    Instr.wf (.setFeatures ({ ctrl := 0, sq := 0, cid := 0, nsid := 0 } : NvHdr) 0 false 0 (2 ^ 32) (.capsule [])) = false ∧
    Instr.wf (.getFeatures ({ ctrl := 0, sq := 0, cid := 0, nsid := 0 } : NvHdr) 0 0 0 { ({ addr := 0, len := 0 } : NvBuf) with addr := 2 ^ 64 }) = false ∧
    Instr.wf (.asynchronousEventRequest { ({ ctrl := 0, sq := 0, cid := 0, nsid := 0 } : NvHdr) with ctrl := 2 ^ 32 }) = false ∧
    Instr.wf (.keepAlive { ({ ctrl := 0, sq := 0, cid := 0, nsid := 0 } : NvHdr) with ctrl := 2 ^ 32 }) = false ∧
    Instr.wf (.keepAliveTimeout (2 ^ 32)) = false ∧
    Instr.wf (.readEpochDigest ({ ctrl := 0, sq := 0, cid := 0, nsid := 0 } : NvHdr) 0 false { ({ addr := 0, len := 0 } : NvBuf) with addr := 2 ^ 64 }) = false ∧
    Instr.wf (.frameIndexQuery ({ ctrl := 0, sq := 0, cid := 0, nsid := 0 } : NvHdr) 0 false 0 0 0 0 { ({ addr := 0, len := 0 } : NvBuf) with addr := 2 ^ 64 }) = false ∧
    Instr.wf (.fabricsConnect { ({ qpn := 0, cid := 0, qid := 0, sqsize_m1 := 0, kato := 0, cntlid := 0, hostId := [], discovery := false, subnqn := [], wantsAuth := false } : ConnectArgs) with qpn := 2 ^ 24 }) = false ∧
    Instr.wf (.propertyGet ({ ctrl := 0, sq := 0, cid := 0, nsid := 0 } : NvHdr) (2 ^ 24) false) = false := by
  decide

theorem test_wf_commands5 :
    Instr.wf (.propertySet ({ ctrl := 0, sq := 0, cid := 0, nsid := 0 } : NvHdr) 0 false (2 ^ 64)) = false ∧
    Instr.wf (.invalidCommandOpcode ({ ctrl := 0, sq := 0, cid := 0, nsid := 0 } : NvHdr) false (2 ^ 8)) = false ∧
    Instr.wf (.lookupDefer (2 ^ 64)) = false ∧
    Instr.wf (.fingerprintLookupDone (2 ^ 64) 0) = false ∧
    Instr.wf (.patrolScrub { ({ page := 0, row := 0, area := .other, found := .word 0 0 } : ScrubWord) with page := 2 ^ 16 }) = false ∧
    Instr.wf (.heartbeat ({ lseq := 0, cseq := 0 } : PeerHdr) { ({ term := 0, generation := 0, pools := 0, mirrorReq := false, sealOn := false, resync := false, kcv := 0 } : Heartbeat) with term := 2 ^ 64 }) = false ∧
    Instr.wf (.pengenkoNak ({ lseq := 0, cseq := 0 } : PeerHdr) (2 ^ 32)) = false ∧
    Instr.wf (.mirrorConfirmation ({ lseq := 0, cseq := 0 } : PeerHdr) (2 ^ 32)) = false ∧
    Instr.wf (.imageDigest ({ lseq := 0, cseq := 0 } : PeerHdr) (2 ^ 64) [] .refused) = false ∧
    Instr.wf (.selfTestEcho { ({ lseq := 0, cseq := 0 } : PeerHdr) with lseq := 2 ^ 32 } []) = false ∧
    Instr.wf (.mirrorSlot ({ lseq := 0, cseq := 0 } : PeerHdr) { ({ off := 0, nsid := 0, lba := 0, wid := {}, desc := {}, image := [], plain := [] } : MirrorSlot) with off := 2 ^ 64 }) = false ∧
    Instr.wf (.journalOpen ({ lseq := 0, cseq := 0 } : PeerHdr) { ({ pool := 0, seq := 0, data := 0, parity := 0, pageKib := 0, layout := 0, generation := 0, members := [], slots := [] } : OpenRec) with pool := 2 ^ 4 }) = false ∧
    Instr.wf (.journalClose ({ lseq := 0, cseq := 0 } : PeerHdr) 0 (2 ^ 64)) = false ∧
    Instr.wf (.mapDelta ({ lseq := 0, cseq := 0 } : PeerHdr) { ({ pool := 0, stripeSeq := 0, nsid := 0, lba := 0, loc := .zero, wid := {} } : MapDelta) with pool := 2 ^ 4 }) = false ∧
    Instr.wf (.qpContextState ({ lseq := 0, cseq := 0 } : PeerHdr) { ({ qpn := 0, senderQpn := 0, uc := false, spray := false, prot := false, epsn := 0, msn := 0, mtu := 0, paths := [], windows := [] } : QpMirror) with qpn := 2 ^ 24 }) = false ∧
    Instr.wf (.windowState ({ lseq := 0, cseq := 0 } : PeerHdr) { ({ window := 0, horizon := 0, limit := 0, cseq := 0, lastImm := 0, qpn := 0 } : WinMirror) with window := 2 ^ 16 }) = false ∧
    Instr.wf (.cairnState ({ lseq := 0, cseq := 0 } : PeerHdr) { ({ nsid := 0, closed := 0, digest := [], placed := [], heads := [] } : CairnMirror) with nsid := 2 ^ 32 }) = false ∧
    Instr.wf (.pendingHolders ({ lseq := 0, cseq := 0 } : PeerHdr) [{ ({ nsid := 0, lba := 0, wid := {}, fp := [], slotOff := none } : HolderMirror) with nsid := 2 ^ 32 }]) = false ∧
    Instr.wf (.retainedCairnList { ({ lseq := 0, cseq := 0 } : PeerHdr) with lseq := 2 ^ 32 } []) = false ∧
    Instr.wf (.caravanProgress ({ lseq := 0, cseq := 0 } : PeerHdr) { ({ target := 0, caravan := 0, base := 0, end_ := 0, full := false, record := 0, srcDevice := 0 } : CaravanMirror) with target := 2 ^ 16 }) = false := by
  decide

theorem test_wf_commands6 :
    Instr.wf (.reshapePosition ({ lseq := 0, cseq := 0 } : PeerHdr) 0 (.copied (2 ^ 64))) = false ∧
    Instr.wf (.channelLastMatched ({ lseq := 0, cseq := 0 } : PeerHdr) 0 0 (2 ^ 64)) = false ∧
    Instr.wf (.fwuState ({ lseq := 0, cseq := 0 } : PeerHdr) { ({} : FwuPeer) with state := 2 ^ 8 }) = false ∧
    Instr.wf (.verdict { ({ typ := 0, head := 0 } : ArbMsg) with typ := 2 ^ 8 }) = false ∧
    Instr.wf (.transferGrant { ({ typ := 0, head := 0 } : ArbMsg) with typ := 2 ^ 8 }) = false ∧
    Instr.wf (.selfTestPathCheck [2 ^ 64]) = false ∧
    Instr.wf (.stripeFillTimeout 0 (2 ^ 64)) = false ∧
    Instr.wf (.parityComplete 0 (2 ^ 64)) = false ∧
    Instr.wf (.journalPageTimer (2 ^ 4)) = false ∧
    Instr.wf (.timerCairn (2 ^ 16)) = false ∧
    Instr.wf (.cairnClose (2 ^ 32) false) = false ∧
    Instr.wf (.caravanOpens (2 ^ 16)) = false ∧
    Instr.wf (.caravanOpenRecord 0 { index := 0, full := false, base := 0, end_ := 0, baseDigest := [] }) = false ∧
    Instr.wf (.epochRecord 0 { index := 0, epoch := 0, count := 0 }) = false ∧
    Instr.wf (.blockRecord 0 { index := 0, lba := 0, kind := 0, owner := {}, content := [] }) = false ∧
    Instr.wf (.epochEndRecord 0 { index := 0, cairn := 0 } []) = false ∧
    Instr.wf (.imageEndRecord 0 { index := 0, cairn := 0 } [] []) = false ∧
    Instr.wf (.closeRecord 0 { index := 0, count := 0, cairn := 0 }) = false ∧
    Instr.wf (.caravanConfirmation 0 0 (some (2 ^ 8))) = false ∧
    Instr.wf (.caravanReconnectTimer (2 ^ 16)) = false := by
  decide

theorem test_wf_commands7 :
    Instr.wf (.vrelenFrame { ({ lane := 0, crcOk := false, fseq := 0, ackValid := false, nak := false, ack := 0, cmdCredits := 0, dataCredits := 0 } : FrameFlit) with fseq := 2 ^ 16 }) = false ∧
    Instr.wf (.configFlit { ({ lane := 0, port := 0, dieCount := 0, pageKib := 0, cmdQueue := 0, dataBufKib := 0, serial := 0, lastFseq := 0, moduleA := [], dies := [] } : ConfigFlit) with port := 2 ^ 8 }) = false ∧
    Instr.wf (.readResponse ({ lane := 0, tag := 0, die := 0, status := .ok } : Resp) { ({ decoded := false } : Decode) with bits := 2 ^ 16 }) = false ∧
    Instr.wf (.programResponse { ({ lane := 0, tag := 0, die := 0, status := .ok } : Resp) with tag := 2 ^ 16 }) = false ∧
    Instr.wf (.eraseResponse { ({ lane := 0, tag := 0, die := 0, status := .ok } : Resp) with tag := 2 ^ 16 }) = false ∧
    Instr.wf (.suspendResponse { ({ lane := 0, tag := 0, die := 0, status := .ok } : Resp) with tag := 2 ^ 16 }) = false ∧
    Instr.wf (.resumeResponse { ({ lane := 0, tag := 0, die := 0, status := .ok } : Resp) with tag := 2 ^ 16 }) = false ∧
    Instr.wf (.statusResponse { ({ lane := 0, tag := 0, die := 0, status := .ok } : Resp) with tag := 2 ^ 16 }) = false ∧
    Instr.wf (.resetDieResponse { ({ lane := 0, tag := 0, die := 0, status := .ok } : Resp) with tag := 2 ^ 16 }) = false ∧
    Instr.wf (.setThreshResponse { ({ lane := 0, tag := 0, die := 0, status := .ok } : Resp) with tag := 2 ^ 16 }) = false ∧
    Instr.wf (.setTrimResponse { ({ lane := 0, tag := 0, die := 0, status := .ok } : Resp) with tag := 2 ^ 16 }) = false ∧
    Instr.wf (.claimResponse { ({ lane := 0, tag := 0, die := 0, status := .ok } : Resp) with tag := 2 ^ 16 }) = false ∧
    Instr.wf (.bridgeStatusResponse ({ lane := 0, tag := 0, die := 0, status := .ok } : Resp) { ({ maxTerm := 0, mine := 0, other := 0, chState := [], chTemp := [], present := 0 } : BridgeStatus) with maxTerm := 2 ^ 64 }) = false ∧
    Instr.wf (.loopbackResponse { ({ lane := 0, tag := 0, die := 0, status := .ok } : Resp) with tag := 2 ^ 16 } false) = false ∧
    Instr.wf (.bridgeCommandTimeout 0 (2 ^ 16)) = false ∧
    Instr.wf (.thresholdSample 0 0 0 (2 ^ 8) ⟨0, 0, 0⟩) = false ∧
    Instr.wf (.stallEvent 0 (2 ^ 32)) = false ∧
    Instr.wf (.cfgSweep (some { ({ off := 0, flips := 0 } : RegUpset) with off := 2 ^ 24 })) = false ∧
    Instr.wf (.powerOnReset { ({} : BootEnv) with bridgeTerm := 2 ^ 64 }) = false ∧
    Instr.wf (.pinReset { ({} : BootEnv) with bridgeTerm := 2 ^ 64 }) = false := by
  decide

theorem test_wf_commands8 :
    Instr.wf (.warmReset { ({} : BootEnv) with bridgeTerm := 2 ^ 64 }) = false ∧
    Instr.wf (.pwrFailNFall (2 ^ 64) (.complete 0)) = false ∧
    Instr.wf (.powerStateEntry { ({ idleUs := 0 } : PsQuiet) with idleUs := 2 ^ 64 }) = false ∧
    Instr.wf (.dieTempSample [] (2 ^ 32)) = false ∧
    Instr.wf (.mainRailLoss { ({} : BootEnv) with bridgeTerm := 2 ^ 64 }) = false ∧
    Instr.wf (.ptpAnnounce { id := 0 } (2 ^ 64)) = false ∧
    Instr.wf (.basicManagementCommand (2 ^ 16)) = false ∧
    Instr.wf (.retransmissionTimeout (2 ^ 24)) = false := by
  decide

/-! ### States that meet the statements' hypotheses -/

/-- A head in service with its registers ready, and nothing else. -/
def served : State :=
  { State.reset with dev := ({ State.reset.dev with pow := { State.reset.dev.pow with run := .up } } : Dev).set F.SYS_STATUS_regs_ready 1 }

/-- The same under an image. -/
def under (m : Image) : Dev := served.dev.onSim (fun s => { s with active := some m })

/-- An image of one namespace, 1, in pool 0. -/
def oneNs : Image := { generation := 1, ns := [{ nsid := 1, poolId := 0, sizeBlocks := 1024 }] }

/-- A head that owns pool 0, with namespace 1 and its Cairn 3 the latest closed and selected. -/
def cairnHead (f : Ns → Ns) : Dev :=
  ((((under oneNs).set F.ARB_STAT_owned 1).set F.SNP_NS_SEL_nsid 1).set F.SNP_RET_CAIRN_cairn 3).onNs 1 (fun x => f { x with closed := 3 })

def hdr : NvHdr := { ctrl := 1, sq := 1, cid := 7, nsid := 1 }

theorem witness_StepTakesFront : ({ served with pending := [.shareLoad] } : State).pending = .shareLoad :: [] := rfl

theorem witness_IdleStepTicks : State.reset.pending = [] := rfl

theorem witness_QueueDrains : ({ served with pending := [.shareLoad, .trcClear] } : State).pending = [.shareLoad] ++ [.trcClear] := rfl

theorem witness_FusesKeptByStep : ∃ t, State.reset.fuses.kept State.reset.fuses ∧ step State.reset = .next t :=
  ⟨State.reset.idle, ⟨rfl, rfl, fun _ => rfl, fun _ => rfl, Nat.le_refl _⟩, rfl⟩

theorem witness_FusesOnlyBy : (∃ t, exec .shareLoad served = .next t) ∧ State.reset.pending = [] ∧ ∃ t, step State.reset = .next t :=
  ⟨⟨_, rfl⟩, rfl, ⟨_, rfl⟩⟩

theorem witness_QuietHeadSettles : State.reset.dev.up = false ∧ State.reset.dev.pow.resetOwed = none := by decide

theorem witness_FieldReadsBack : F.CIP_STAT_zeroized.key ≠ F.CIP_STAT_keys_loaded.key ∧ Tab.wf served.dev.regs = true := by decide

theorem witness_FieldWriteDiscarded_readOnly : F.STG_STAT_over_budget.acc ≠ .rw ∧ F.STG_STAT_over_budget.acc ≠ .rwlk := by decide

theorem witness_FieldWriteDiscarded_locked :
    F.WDT_CFG_timeout_ms.acc = .rwlk ∧ (under { lock := [{ lockFlags := 0 }] }).locked = true := by decide

theorem witness_FieldWriteDiscarded_reserved :
    (F.THM_T_CFG_crit_c.acc = .rw ∨ (F.THM_T_CFG_crit_c.acc = .rwlk ∧ served.dev.locked = false)) ∧
    served.dev.reservedValue F.THM_T_CFG_crit_c 0 (200 % 2 ^ F.THM_T_CFG_crit_c.width) = true := by decide

theorem witness_FieldWriteDiscarded_kept : F.SYS_INT_EN_enable.acc = .rw ∧
    served.dev.reservedValue F.SYS_INT_EN_enable 0 (5 % 2 ^ F.SYS_INT_EN_enable.width) = false ∧ actsOn F.SYS_INT_EN_enable = false ∧
    ((F.SYS_INT_EN_enable.at 0).sub 0).key ≠ F.SYS_CFG_TOUCHED_blocks.key := by decide

theorem witness_WideWriteHeld : F.TMB_SEC_SET_seconds.off + 4 < aliasBase ∧ blockOf F.TMB_SEC_SET_seconds.off = 5 ∧
    blockOf (F.TMB_SEC_SET_seconds.off + 4) = 5 ∧ served.dev.takes 5 = true ∧ served.dev.heldAt 5 F.TMB_SEC_SET_seconds.off = none := by
  decide

theorem witness_WideWriteHeld_wide : wideAt 5 F.TMB_SEC_SET_seconds.off = true ∧ wideAt 5 (F.TMB_SEC_SET_seconds.off + 4) = false := by
  decide +kernel

theorem witness_StatusRegister : Tab.wf (intRaise (intRaise {} 3) 7).set = true ∧ (∀ e ∈ (intRaise (intRaise {} 3) 7).set, e.1 < 20) ∧
    (5 : Nat) ≠ 3 ∧ served.dev.takes 0 = true := by decide

theorem witness_StatusMessages :
    ((served.dev.set F.SYS_INT_EN_enable (2 ^ 3)).set F.SYS_INT_CFG_msg_on 1).intEnabled 3 = true ∧ Tab.has 3 served.dev.int.set = false ∧
    served.dev.msix.masked 5 = true ∧ (served.dev.msixWrite (0x4000 + 16 * 5 + 12) 0).msix.masked 5 = false := by decide

theorem witness_SoftwareChangeTouches : F.FTL_CFG_wl_spread.key ≠ F.SYS_CFG_TOUCHED_blocks.key ∧ F.FTL_CFG_wl_spread.block < 23 ∧
    served.dev.get F.FTL_CFG_wl_spread = F.FTL_CFG_wl_spread.reset % 2 ^ F.FTL_CFG_wl_spread.width ∧
    served.dev.get F.FTL_CFG_wl_spread ≠ 7 % 2 ^ F.FTL_CFG_wl_spread.width := by decide

def aRec : EvRec :=
  { block := 0, kind := .badAccess, info := [], seq := 0, head := false, cycles := 0, opSeconds := 0, timeNs := 0, inRom := false,
    inDrain := false }

theorem witness_RecorderBounded : (List.replicate 4096 aRec).length ≤ 4096 ∧ (List.replicate 1048576 aRec).length ≤ 1048576 ∧
    ∀ area : List EvRec, area.length = 1048576 → (flushTo area [aRec]).2 ≠ 0 := by
  refine ⟨Nat.le_of_eq List.length_replicate, Nat.le_of_eq List.length_replicate, ?_⟩
  intro area h
  simp only [flushTo, h, List.length_cons, List.length_nil]; omega

theorem witness_EventAreaClear : served.dev.takes 18 = true := by decide

theorem witness_CountersCount : (255 : Nat) < 256 ∧ bits (({} : CntState).sel.getD 255 0xFF0000) 23 16 = 0xFF ∧
    frozenCnt served.dev.regs 255 = false := by decide

theorem witness_TraceBuffer (p : TrcPacket) : ({ held := List.replicate 131072 p } : TrcState).held.length = 131072 ∧
    ({ held := List.replicate 131071 p } : TrcState).held.length = 131071 ∧ ({} : TrcState).held.length < 131072 ∧
    served.dev.takes 20 = true := by
  simp only [List.length_replicate, List.length_nil, true_and]; exact ⟨by omega, by decide⟩

theorem witness_SubmitRefused_lock : (under { lock := [{ lockFlags := 1 }] }).takes 22 = true ∧
    (under { lock := [{ lockFlags := 1 }] }).img.lockFlags.any (fun f => tb f 0) = true := by decide

theorem witness_SubmitRefused_busy : served.dev.img.lockFlags.any (fun f => tb f 0) = false ∧
    (served.dev.onHead (fun h => { h with phase := .takeover })).ownershipBusy = true := by decide

theorem witness_DiscardStaged : served.dev.takes 22 = true ∧
    (served.dev.onSim (fun s => { s with staged := some {}, live := true })).simState = 2 ∧
    (served.dev.onSim (fun s => { s with staged := some {} })).simState = 3 ∧
    (served.dev.onSim (fun s => { s with staged := some {}, live := true, waiting := true })).simState = 4 ∧
    (served.dev.onSim (fun s => { s with staged := some {}, armed := true })).simState = 6 ∧ served.dev.simState = 0 ∧
    (served.dev.onSim (fun s => { s with own := some {} })).simState = 1 := by decide

theorem witness_SlotAdjustment : served.dev.takes 4 = true ∧
    -(2 ^ 31 : Int) ≤ (served.dev.chan 7).slots + signedOf 16 0x8000 ∧ (served.dev.chan 7).slots + signedOf 16 0x8000 < 2 ^ 31 := by decide

theorem witness_StrobeFilter : served.dev.up = true ∧ (served.dev.chan 0).role = .disabled ∧
    ((served.dev.onChan 0 (fun x => { x with role := .active, prevStrobe := some 100 })).chan 0).role ≠ .disabled ∧
    ((served.dev.onChan 0 (fun x => { x with role := .active, prevStrobe := some 100 })).chan 0).prevStrobe = some 100 ∧
    ((119 : Nat) : Int) - 100 < 20 := by decide

theorem witness_FirstPulseIsLeast : 0 < ({ start := 100, period := 10 } : Trig).period ∧ ({ start := 100 } : Trig).period = 0 ∧
    firstPulse { start := 100, period := 10 } 111 = 2 := by decide

theorem witness_SecondsApply : served.dev.takes 5 = true ∧ served.dev.timeSource ≠ 1 ∧
    (under { timeSource := [{ head := 0, source := 1 }] }).timeSource = 1 := by decide

def badPkt : Pkt := { port := { port := 0, sub := 0 }, qpn := 131072, psn := 0 }

theorem witness_BadPacketDiscarded : served.dev.up = true ∧ 131071 < badPkt.qpn ∧ { badPkt with pkey := 0x7FFF }.pkey ≠ 0xFFFF ∧
    (served.dev.set (F.NET_P_CFG_enabled.at 0) 1).hasSubPort badPkt.port = true ∧ served.dev.hasSubPort { port := 0, sub := 1 } = false ∧
    rxOf (.cnp badPkt) = some { p := badPkt, kind := .cnp } := by decide

theorem witness_GrantsStayWithinBuffer : Tab.wf (served.dev.onWin 4 (fun x => { x with state := .bound, limit := 4096 })).net.wins = true ∧
    (served.dev.onWin 4 (fun x => { x with state := .bound, limit := 4096 })).grantsFit ∧ (5 : Nat) ≠ 4 := by
  unfold Dev.grantsFit; decide

theorem witness_RtuCompletesConnection : served.dev.up = true ∧ ((served.dev.onQp 9 (fun x => { x with state := .rtr })).qp 9).state = .rtr ∧
    (served.dev.qp 9).state ≠ .rtr := by decide

theorem witness_FlushCompletes : ((under oneNs).set F.ARB_STAT_owned 1).up = true ∧
    ((under oneNs).set F.ARB_STAT_owned 1).fetches hdr = true ∧
    ((under oneNs).set F.ARB_STAT_owned 1).plainStatus hdr.nsid = nvOk ∧ ((under oneNs).set F.ARB_STAT_owned 1).slotsOf hdr.nsid = [] ∧
    hdr.nsid ≠ 0xFFFFFFFF ∧ (under oneNs).plainStatus hdr.nsid ≠ nvOk := by decide

/-- A command of the local controller behind one that waits. -/
def waitingHdr : NvHdr := { hdr with ctrl := served.dev.localId }

theorem witness_NvmeCommandsComplete : served.dev.up = true ∧ served.dev.fetches hdr = true ∧
    (served.dev.onNv (fun n => { n with unfetched := [(waitingHdr, .nvmeFlush waitingHdr)] })).fetches waitingHdr = false := by decide

/-- A head with PCIe up whose first rings have each fetched one job. -/
def fetchedOne : Dev :=
  let d := (served.dev.onRing false 0 (fun r => { r with fetched := 1 })).onRing true 0 (fun r => { r with fetched := 1 })
  { d with pow := { d.pow with pcieUp := true } }

theorem witness_JobAndCairnCommandsComplete : fetchedOne.up = true ∧ fetchedOne.pow.pcieUp = true ∧
    fetchedOne.jobRuns false 0 = true ∧ fetchedOne.jobRuns true 0 = true ∧ fetchedOne.jobRuns false 1 = false ∧
    fetchedOne.jobRuns true 1 = false := by decide

theorem witness_DigestNotKept : (served.dev.img.ns? hdr.nsid).isNone = true ∧ ((under oneNs).img.ns? hdr.nsid).isSome = true ∧
    (under oneNs).fetches hdr = true ∧ ((under oneNs).ns hdr.nsid).foreign = false ∧
    Tab.find? 3 ((under oneNs).ns hdr.nsid).cairns = none := by decide

theorem witness_StreamModesInvert : ({ mode := 2 } : CipherCtx).mode ≠ 1 := by decide

theorem witness_ZeroizePulse : served.dev.takes 10 = true ∧ served.dev.cip.loading = false ∧
    (served.dev.onCip (fun c => { c with loading := true })).cip.loading = true := by decide

theorem witness_ShareLoadBusy : served.dev.takes 10 = true ∧ served.dev.cip.loading = false ∧
    (served.dev.onCip (fun c => { c with loading := true })).cip.loading = true := by decide

def budgeted (dirty : Nat) : Dev :=
  (served.dev.set F.RST_DRAIN_CAP_budget_eff_mib 256).onStg (fun s => { s with reserved := dirty * 2 ^ 20, judged := true })

theorem witness_BudgetHysteresis : (budgeted 193).budget < (budgeted 193).dirty + 64 * 2 ^ 20 ∧
    (budgeted 128).dirty + 128 * 2 ^ 20 ≤ (budgeted 128).budget ∧ (budgeted 192).dirty + 64 * 2 ^ 20 ≤ (budgeted 192).budget ∧
    (budgeted 192).budget < (budgeted 192).dirty + 128 * 2 ^ 20 ∧ (budgeted 192).stg.judged = true := by decide

theorem witness_ParityRepairs : (∀ x ∈ ([[1, 2]] ++ [[3, 4]] : List Bytes), x.length = ([5, 6] : Bytes).length) ∧ ([5, 6] : Bytes) ≠ [] := by
  decide

theorem witness_SurvivorIsHighest : (identityLt { stream := 1, seq := 2 } { stream := 1, seq := 3 } = true) ∧
    identityLt { stream := 1, seq := 3 } { stream := 1, seq := 3 } = false := by decide

theorem witness_RetainResults_held : (cairnHead id).takes 15 = true ∧
    ((cairnHead (fun x => { x with retained := [3] })).ns 1).retained.contains 3 = true ∧
    ((cairnHead (fun x => { x with retained := [3] })).ns 1).releasing.contains 3 = false ∧
    (cairnHead (fun x => { x with retained := [3] })).heldByCaravan 1 3 = false ∧ ((cairnHead id).ns 1).retained.contains 3 = false := by
  decide

theorem witness_RetainResults_fresh : (cairnHead id).get F.SNP_RET_CAIRN_cairn = 3 ∧ (cairnHead id).get F.SNP_NS_SEL_nsid = 1 ∧
    ((cairnHead id).ns 1).closed = 3 ∧ (cairnHead id).owns ((cairnHead id).poolOf 1) = true ∧ (cairnHead id).retainFull 1 = false := by
  decide

theorem witness_RetainResults_full : ((cairnHead (fun x => { x with retained := List.replicate 4096 9 })).ns 1).retained.length = 4096 := by
  show (List.replicate 4096 9).length = 4096
  exact List.length_replicate

theorem witness_RetainResults_caravan :
    (Dev.onCar (under { oneNs with replTarget := [{ targetId := 2, srcNsid := 1 }] }) 2
      (fun c => { c with state := .shipping, base := 3 })).heldByCaravan 1 3 = true := by decide

def worn (peMax zone : Nat) : Dev :=
  ((((served.dev.set F.FTL_CFG_wl_spread 100).set (F.WDT_LOOP_LOWER_lower.at 2) 1).set (F.WDT_LOOP_UPPER_upper.at 2) 64)).onPool 0
    (fun q => { q with blocks := [(0, { pe := peMax }), (1, {})], wlV := 16, wlZone := zone })

theorem witness_WearLoopSteps : (worn 76 1).loopPinned 3 = false ∧ 0 ≤ (worn 76 1).loopLower 3 ∧
    (worn 76 1).loopLower 3 ≤ (worn 76 1).loopUpper 3 ∧ 100 * 3 < (((worn 76 1).pool 0).peMax - ((worn 76 1).pool 0).peMin 0) * 4 ∧
    ((worn 76 1).pool 0).wlZone ≠ 2 ∧ (((worn 24 1).pool 0).peMax - ((worn 24 1).pool 0).peMin 0) * 4 < 100 ∧
    100 ≤ (((worn 25 1).pool 0).peMax - ((worn 25 1).pool 0).peMin 0) * 4 := by decide

def flit : FrameFlit :=
  { lane := 0, crcOk := true, fseq := 5, ackValid := false, nak := false, ack := 0, cmdCredits := 0, dataCredits := 0 }

theorem witness_FrameOutOfOrder : ((served.dev.onLane 0 (fun x => { x with state := .active4 })).lane 0).active = true ∧
    flit.fseq ≠ ((served.dev.onLane 0 (fun x => { x with state := .active4 })).lane 0).rxFseq ∧
    ((served.dev.onLane 0 (fun x => { x with state := .active4 })).lane 0).naked = false ∧
    ((served.dev.onLane 0 (fun x => { x with state := .active4, naked := true })).lane 0).naked = true := by decide

theorem witness_CreditsGateCommands : (served.dev.lane 0).cmdCredits = 0 ∧
    1024 * ((served.dev.onLane 0 (fun x => { x with cmdCredits := 1, dataCredits := 1 })).lane 0).dataCredits <
      (List.replicate 1025 (0 : Byte)).length := by
  rw [List.length_replicate]; decide

theorem witness_BandHysteresis : (4 : Nat) ≤ 4 ∧ bandOf 4 82 = 3 ∧ bandOf 4 83 = 4 ∧ bandOf 3 85 = 4 ∧ bandOf 0 0 = 1 ∧ bandOf 1 (-3) = 0 := by
  decide

theorem witness_DutyCurve : (20 : Int) ≤ 100 ∧ dutyAt 20 100 80 = 100 ∧ dutyAt 20 100 85 = 60 ∧ dutyAt 20 100 90 = 20 := by decide

def mirrored : Dev := (served.dev.set F.SYS_MODE_mirror 1).set F.HHL_STAT_peer_in_service 1

theorem witness_TransferRequested : mirrored.takes 13 = true ∧ served.dev.mode 1 = false ∧ mirrored.mode 1 = true ∧
    mirrored.head.phase = .none ∧ mirrored.pow.drainGate = false ∧ mirrored.fenced = false ∧ mirrored.on F.HHL_STAT_peer_in_service = true := by
  decide

theorem witness_HeartbeatSays : served.dev.on F.HHL_STAT_link_up = false ∧ (served.dev.set F.HHL_STAT_link_up 1).up = true ∧
    (served.dev.set F.HHL_STAT_link_up 1).on F.HHL_STAT_link_up = true := by decide

theorem witness_SameHeadNumber : served.dev.up = true := rfl

theorem witness_PowerFailPulse : (199 : Nat) < 200 ∧ (200 : Nat) ≤ 200 ∧ served.dev.pow.run = .up ∧ State.reset.dev.pow.run = .off ∧
    (served.dev.onPow (fun p => { p with run := .rom })).pow.run = .rom := by decide

theorem witness_L3Request : served.dev.takes 1 = true ∧ (served.dev.set F.ARB_STAT_owned 1).l3Refusal = 2 ∧
    (served.dev.set F.ARB_STAT_owned 1).ownedMask ≠ 0 ∧ (served.dev.onHead (fun h => { h with phase := .giving })).ownershipBusy = true := by
  decide

def inRom : State := { served with dev := served.dev.onPow (fun p => { p with run := .rom }) }

theorem witness_FuseBurnedOnce : inRom.dev.takes 21 = true ∧ inRom.dev.on F.FWU_SRC_source = false ∧ inRom.dev.pow.run = .rom ∧
    inRom.fuses.ownerHash = none ∧ inRom.fuses.kFuse = none ∧ served.dev.takes 21 = true ∧ served.dev.pow.run ≠ .rom := by decide

theorem witness_TrialRaisesMinimum : (served.dev.set F.FWU_STAT_state 6).get F.FWU_STAT_state = 6 ∧ served.dev.get F.FWU_STAT_state ≠ 6 := by
  decide

theorem witness_SubPortSerdes : (1 : Nat) ≤ 3 ∧ subPortSerdes 2 1 1 = [20, 21, 22, 23] := by decide

/-! ### Small checks on values that the spec or the standards it names give -/

/-- CRC-32C of "123456789" (the check value of the polynomial that R24 names). -/
theorem test_crc32c : crc32c [0x31, 0x32, 0x33, 0x34, 0x35, 0x36, 0x37, 0x38, 0x39] = 0xE3069283 := by decide +kernel

/-- FIPS 197, the AES-128 example (R200). -/
theorem test_aes128 : aesEnc ((List.range 16).map (fun i => b8 i)) ((List.range 16).map (fun i => b8 (i * 17))) =
    [0x69, 0xc4, 0xe0, 0xd8, 0x6a, 0x7b, 0x04, 0x30, 0xd8, 0xcd, 0xb7, 0x80, 0x70, 0xb4, 0xc5, 0x5a] := by decide +kernel

/-- SHA-256 of no octets, its first four octets (R176). -/
theorem test_sha256 : (sha256 []).take 4 = [0xe3, 0xb0, 0xc4, 0x42] := by decide +kernel

/-- A write-back of the number read clears the bit, unless the bit was set again since (R426). -/
theorem test_write_back : Tab.has 3 (intWriteBack (intRaise {} 3) 1 (2 ^ 3)).set = false ∧
    Tab.has 3 (intWriteBack (intRaise (intRaise {} 3) 3) 1 (2 ^ 3)).set = true := by decide

/-- A read that did not decode at entry 16 goes on to the soft read (R341). -/
theorem test_ladder_ends : (nextRung { tag := 0, op := .read, die := 0, block := 1, page := 0, use := .selfTest, depth := 16 } 9).map (·.depth) =
    some 17 := by decide

/-- No word spells a command: the table gives its rows no bits. -/
theorem test_withFetchWord : served.withFetchWord 32 7 = served := rfl

/-- A share load on an idle device begins; nothing else of the cipher block changes (R202). -/
theorem test_share_begins : served.dev.shareBegin.cip = { served.dev.cip with loading := true } := rfl

end Sys2Proof.Tests
end

section
/-! PROOFS. The scope statements: what reset leaves, that the register store keeps what is written, and which writes of a field
software may make. -/
namespace Sys2Proof.Proofs
open Sys2Proof.Machine Sys2Proof.Laws

/-! ### The register store -/

theorem set_wf (d : Dev) (f : Field) (v : Nat) (h : Tab.wf d.regs = true) : Tab.wf (d.set f v).regs = true := regSet_wf _ _ _ h

/-- Settles O10: the register store's laws, read at the device. -/
theorem fieldReadsBack : Obligations.FieldReadsBack := by
  unfold Obligations.FieldReadsBack
  exact fun d f v => ⟨get_set_self d f v, fun _ hg => get_set_ne d v hg, set_wf d f v⟩

/-! ### Reset (R11, R401) -/

/-- The register store holds no entry after reset, so every field reads its reset value. -/
theorem get_reset (f : Field) : State.reset.dev.get f = f.reset := rfl

theorem tb_zero (i : Nat) : tb 0 i = false := by simp [tb]

/-- Ownership is read from ARB_STAT.owned, whose reset value has no pool's bit set. -/
theorem owns_reset (p : Nat) : State.reset.dev.owns p = false := by
  have howned : F.ARB_STAT_owned.reset = 0 := rfl
  rw [Dev.owns, get_reset, howned, tb_zero]

/-- Settles O9: the registers by the empty store, the other parts by the defaults of `State.reset`. -/
theorem resetLeaves : Obligations.ResetLeaves := by
  unfold Obligations.ResetLeaves
  exact ⟨rfl, get_reset, rfl, rfl, rfl, owns_reset, rfl, rfl, rfl⟩

/-! ### Software's write of a class-C field (R434) -/

theorem get_touch_ne (d : Dev) (block : Nat) {g : Field} (h : g.key ≠ F.SYS_CFG_TOUCHED_blocks.key) :
    (d.touch block).get g = d.get g := by
  simp only [Dev.touch]
  split
  · rfl
  · exact get_set_ne _ _ h

/-- A class-C field reads back what software wrote, also where the write touched nothing because the field held the value. -/
theorem get_softC_self (d : Dev) (f : Field) (v : Nat) (h : f.key ≠ F.SYS_CFG_TOUCHED_blocks.key) :
    (d.softC f v).get f = v % 2 ^ f.width := by
  unfold Dev.softC
  split
  case isTrue hsame => exact hsame
  case isFalse => rw [get_touch_ne _ _ h, get_set_self]

/-! ### Software's write of one field (R7, R9) -/

theorem writable_iff (f : Field) : f.writable = true ↔ f.acc = .rw ∨ f.acc = .rwlk := by simp [Field.writable]

/-- An instance of a field is as wide as the field. -/
@[simp] theorem width_at_sub (f : Field) (i j : Nat) : ((f.at i).sub j).width = f.width := rfl

theorem writeField_notWritable (d : Dev) {f : Field} (i j v : Nat) (h : f.writable = false) : d.writeField f i j v = d := by
  simp [Dev.writeField, h]

theorem writeField_locked (d : Dev) {f : Field} (i j v : Nat) (hacc : f.acc = .rwlk) (hlock : d.locked = true) :
    d.writeField f i j v = if v % 2 ^ f.width = d.get ((f.at i).sub j) then d
      else d.event f.block .lockedWrite [((f.at i).sub j).off, v % 2 ^ f.width] := by
  have hw : f.writable = true := (writable_iff f).2 (.inr hacc)
  simp [Dev.writeField, hw, hacc, hlock]

/-- Past access code and lock, a write is discarded for its encoding, or acts, or is stored as its class asks. -/
theorem writeField_unlocked (d : Dev) {f : Field} (i j v : Nat) (h : f.acc = .rw ∨ (f.acc = .rwlk ∧ d.locked = false)) :
    d.writeField f i j v =
      if d.reservedValue f i (v % 2 ^ f.width) then d.event f.block .reservedEncoding [((f.at i).sub j).off, v % 2 ^ f.width]
      else if actsOn f then d.actField f i (v % 2 ^ f.width)
      else if f.cls == .config then d.softC ((f.at i).sub j) (v % 2 ^ f.width)
      else d.set ((f.at i).sub j) (v % 2 ^ f.width) := by
  have hw : f.writable = true := (writable_iff f).2 (h.imp_right And.left)
  have hopen : (f.acc == .rwlk && d.locked) = false := by
    rcases h with hrw | ⟨-, hfree⟩
    · simp [hrw]
    · simp [hfree]
  simp [Dev.writeField, hw, hopen]

/-- Both ways of storing a plain field leave the value written, cut to the field's width. -/
theorem get_writeField_stored (d : Dev) {f : Field} (i j v : Nat) (h : f.acc = .rw ∨ (f.acc = .rwlk ∧ d.locked = false))
    (hres : d.reservedValue f i (v % 2 ^ f.width) = false) (hacts : actsOn f = false)
    (hkey : ((f.at i).sub j).key ≠ F.SYS_CFG_TOUCHED_blocks.key) :
    (d.writeField f i j v).get ((f.at i).sub j) = v % 2 ^ f.width := by
  rw [writeField_unlocked d i j v h, hres, hacts]
  simp only [Bool.false_eq_true, if_false]
  split
  · rw [get_softC_self _ _ _ hkey, width_at_sub, Nat.mod_mod]
  · rw [get_set_self, width_at_sub, Nat.mod_mod]

/-- Settles O11: the write's cases in the order of its tests, access code, lock, encoding, then the store. -/
theorem fieldWriteDiscarded : Obligations.FieldWriteDiscarded := by
  unfold Obligations.FieldWriteDiscarded
  intro d f i j v
  refine ⟨fun hrw hlk => ?_, writeField_locked d i j v, fun hopen hres => ?_, get_writeField_stored d i j v⟩
  · have hno : ¬ f.writable = true := fun hw => ((writable_iff f).1 hw).elim hrw hlk
    exact writeField_notWritable d i j v (eq_false_of_ne_true hno)
  · rw [writeField_unlocked d i j v hopen, if_pos hres]

end Sys2Proof.Proofs
end

section
/-! PROOFS. Flush (R54, R146): a command that is fetched has its effect at once; a Flush is refused for its namespace's status, or
completes where nothing waits for the media. -/
namespace Sys2Proof.Proofs
open Sys2Proof Sys2Proof.Machine Sys2Proof.Laws

/-! ### Commands fetched at once (R383) -/

theorem arrives_fetched {d : Dev} {h : NvHdr} (i : Instr) (f : Dev → Dev) (hf : d.fetches h = true) : d.arrives h i f = f d := by
  rw [Dev.arrives, if_pos hf]

/-- A command that a head in service fetches as it arrives. -/
theorem run_fetched {s : State} {h : NvHdr} (i : Instr) (f : Dev → Dev) (hup : s.dev.up = true) (hf : s.dev.fetches h = true) :
    s.run (fun _ d => d.whenUp (fun d => d.arrives h i f)) = s.ends (f s.dev) := by
  rw [run_up _ hup, arrives_fetched i f hf]

theorem exec_nvmeFlush_fetched {s : State} {h : NvHdr} (hup : s.dev.up = true) (hf : s.dev.fetches h = true) :
    exec (.nvmeFlush h) s = s.ends (s.dev.nvFlush h) := run_fetched (.nvmeFlush h) (fun d => d.nvFlush h) hup hf

/-! ### What counting leaves alone -/

/-- Staging, namespaces and pools are no registers, so the staged slots behind a namespace do not change with a counter. -/
@[simp] theorem slotsOf_bump (d : Dev) (f : Field) (n nsid : Nat) : (d.bump f n).slotsOf nsid = d.slotsOf nsid := rfl

theorem on_bump_ne (d : Dev) {f g : Field} (n : Nat) (h : g.key ≠ f.key) : (d.bump f n).on g = d.on g :=
  congrArg (· == 1) (get_bump_ne d n h)

@[simp] theorem mirror_bump_flushes (d : Dev) : (d.bump F.NVQ_flushes).mode 1 = d.mode 1 :=
  on_bump_ne d 1 (by decide)

/-! ### Flush -/

/-- A namespace that is not served refuses a Flush with its status (R141). -/
theorem nvFlush_refused {d : Dev} {h : NvHdr} (hns : h.nsid ≠ 0xFFFFFFFF) (hst : d.plainStatus h.nsid ≠ nvOk) :
    d.nvFlush h = d.nvAnswer h 0x00 false (d.plainStatus h.nsid) := by
  simp only [Dev.nvFlush, if_neg hns, if_pos hst]

/-- A Flush of every namespace, or of one that is served, counts; Mirror and the dirty slots then decide whether it waits. -/
theorem nvFlush_served {d : Dev} {h : NvHdr} (hst : h.nsid = 0xFFFFFFFF ∨ d.plainStatus h.nsid = nvOk) :
    d.nvFlush h = if d.mode 1 || (d.slotsOf h.nsid).isEmpty then (d.bump F.NVQ_flushes).nvAnswer h 0x00 false nvOk
      else (d.bump F.NVQ_flushes).nvRun h 0x00 false
        (fun d' => d'.onNv (fun v => { v with flushes := v.flushes ++ [(h, d.slotsOf h.nsid)] })) := by
  have hok : (if h.nsid = 0xFFFFFFFF then nvOk else d.plainStatus h.nsid) = nvOk := by
    rcases hst with hall | hone
    · rw [if_pos hall]
    · rw [hone, ite_self]
  simp only [Dev.nvFlush, hok, ne_eq, not_true_eq_false, if_false, mirror_bump_flushes, slotsOf_bump]

theorem nvFlush_at_once {d : Dev} {h : NvHdr} (hst : h.nsid = 0xFFFFFFFF ∨ d.plainStatus h.nsid = nvOk)
    (hclean : d.mode 1 = true ∨ d.slotsOf h.nsid = []) :
    d.nvFlush h = (d.bump F.NVQ_flushes).nvAnswer h 0x00 false nvOk := by
  have hnow : (d.mode 1 || (d.slotsOf h.nsid).isEmpty) = true := by simpa using hclean
  rw [nvFlush_served hst, if_pos hnow]

/-- Settles O29: a fetched Flush is `Dev.nvFlush` on the device, which answers in each of the two cases. -/
theorem flushCompletes : Obligations.FlushCompletes := by
  unfold Obligations.FlushCompletes
  intro s h hup hf
  rw [exec_nvmeFlush_fetched hup hf]
  exact ⟨fun hst hclean => congrArg s.ends (nvFlush_at_once hst hclean), fun hns hst => congrArg s.ends (nvFlush_refused hns hst)⟩

end Sys2Proof.Proofs
end

section
/-! PROOFS. The structural image (R65 to R78): a submit pulse that finds a lock or a busy head fails with its code and takes nothing in;
a discard pulse drops what is staged, or only records an event. -/
namespace Sys2Proof.Proofs
open Sys2Proof Sys2Proof.Machine Sys2Proof.Laws

/-! ### What is kept, in stored data and in registers -/

theorem dataKept_trans {a b c : Dev} (h : a.dataKept b) (k : b.dataKept c) : a.dataKept c := by
  obtain ⟨hstg, hsnp, hfl⟩ := h
  obtain ⟨kstg, ksnp, kfl⟩ := k
  exact ⟨kstg.trans hstg, ksnp.trans hsnp, kfl.trans hfl⟩

theorem event_dataKept (d : Dev) (b : Nat) (k : EvKind) (l : List Nat) : d.dataKept (d.event b k l) := by simp [Dev.dataKept]

theorem onSim_dataKept (d : Dev) (g : SimState → SimState) : d.dataKept (d.onSim g) := ⟨rfl, rfl, rfl⟩

theorem onSim_regsKept (d : Dev) (g : SimState → SimState) (l : List Field) : d.regsKept (d.onSim g) l :=
  regsKept_of_regs (onSim_frame d g).1 l

theorem setCopy_regsKept (d : Dev) (i : Nat) (c : ImgCopy) (l : List Field) : d.regsKept (d.setCopy i c) l :=
  regsKept_of_regs (setCopy_frame d i c).2.1 l

theorem setCopy_dataKept (d : Dev) (i : Nat) (c : ImgCopy) : d.dataKept (d.setCopy i c) := ⟨rfl, rfl, rfl⟩

/-! ### A code in SIM_ERR -/

theorem get_event_ne (d : Dev) (b : Nat) (k : EvKind) (l : List Nat) {f : Field} (h : ∀ e ∈ eventRegs, f.key ≠ e.key) :
    (d.event b k l).get f = d.get f := by
  simp only [eventRegs, List.forall_mem_cons] at h
  obtain ⟨hdrops, htaken, hflushes, -⟩ := h
  exact event_get d b k l f hdrops htaken hflushes

/-- The code outlives the writes of the record and of the offset, and the event. -/
theorem simFails_code (d : Dev) (k : EvKind) (code record offset : Nat) :
    (d.simFails k code record offset).get F.SIM_ERR_code = code % 2 ^ 16 := by
  rw [Dev.simFails, (raise_get _ _ _).1, get_event_ne _ _ _ _ (by decide), get_set_ne _ _ (by decide), get_set_ne _ _ (by decide),
    get_set_self]
  rfl

theorem simFails_sim (d : Dev) (k : EvKind) (code record offset : Nat) : (d.simFails k code record offset).sim = d.sim := by
  simp [Dev.simFails]

theorem simFails_dataKept (d : Dev) (k : EvKind) (code record offset : Nat) : d.dataKept (d.simFails k code record offset) := by
  simp [Dev.dataKept, Dev.simFails]

theorem simFails_regsKept (d : Dev) (k : EvKind) (code record offset : Nat) :
    d.regsKept (d.simFails k code record offset) (F.SIM_ERR_code :: F.SIM_ERR_record :: F.SIM_ERR_OFF_offset :: eventRegs) := by
  have hsets := set_regsKept (set_regsKept (set_regsKept (regsKept_of_regs (a := d) rfl
    (F.SIM_ERR_code :: F.SIM_ERR_record :: F.SIM_ERR_OFF_offset :: eventRegs)) F.SIM_ERR_code code (by simp))
    F.SIM_ERR_record record (by simp)) F.SIM_ERR_OFF_offset offset (by simp)
  exact regsKept_trans (event_regsKept hsets 22 k [code, record, offset] (by simp +contextual)) (regsKept_of_regs (raise_frame _ _).1 _)

/-! ### Submission (R65, R69, R70) -/

/-- A refused submit starts the count of what the management port supplies anew, and fails with its code. -/
def refusedSubmit (d : Dev) (code : Nat) : Dev := (d.onSim (fun s => { s with mgmtHigh := 0 })).simFails .imageRefused code 0 0

theorem simSubmit_locked {d : Dev} (region : Bytes) (h : d.img.lockFlags.any (fun f => tb f 0) = true) :
    d.simSubmit region = refusedSubmit d 0x0044 := if_pos h

theorem simSubmit_busy {d : Dev} (region : Bytes) (hopen : d.img.lockFlags.any (fun f => tb f 0) = false)
    (hbusy : d.ownershipBusy = true) : d.simSubmit region = refusedSubmit d 0x0045 :=
  (if_neg (ne_true_of_eq_false hopen)).trans (if_pos (by simp [show (d.onSim _).ownershipBusy = true from hbusy]))

/-- Stated for any code that fits SIM_ERR, so that both refusals (R65, R69) are instances. -/
theorem refusedSubmit_leaves (d : Dev) (code : Nat) (hcode : code < 2 ^ 16) :
    (refusedSubmit d code).get F.SIM_ERR_code = code ∧ (refusedSubmit d code).sim = { d.sim with mgmtHigh := 0 } ∧
      d.dataKept (refusedSubmit d code) ∧
      d.regsKept (refusedSubmit d code) (F.SIM_ERR_code :: F.SIM_ERR_record :: F.SIM_ERR_OFF_offset :: eventRegs) :=
  ⟨(simFails_code _ _ _ _ _).trans (Nat.mod_eq_of_lt hcode), simFails_sim _ _ _ _ _,
    dataKept_trans (onSim_dataKept d _) (simFails_dataKept _ _ _ _ _),
    regsKept_trans (onSim_regsKept d _ _) (simFails_regsKept _ _ _ _ _)⟩

/-- Settles O20: both refusals are the same failure with another code, the lock being asked for first. -/
theorem submitRefused : Obligations.SubmitRefused := by
  unfold Obligations.SubmitRefused
  intro s region htakes
  have hexec : exec (.simSubmit region) s = s.ends (s.dev.simSubmit region) := run_acts (fun d => d.simSubmit region) htakes
  refine ⟨fun hlock => ?locked, fun hopen hbusy => ?busy⟩
  case locked =>
    rw [hexec, simSubmit_locked region hlock]
    exact ⟨_, rfl, refusedSubmit_leaves s.dev 0x0044 (by decide)⟩
  case busy =>
    rw [hexec, simSubmit_busy region hopen hbusy]
    exact ⟨_, rfl, refusedSubmit_leaves s.dev 0x0045 (by decide)⟩

/-! ### SIM_STATUS.state (R78) -/

/-- From 2 on an image is staged and nothing is under validation; a copy that is armed makes the state 6. -/
theorem simState_staged {d : Dev} (h : 2 ≤ d.simState) :
    d.sim.sub = none ∧ d.sim.own = none ∧ (d.sim.armed = true → d.simState = 6) := by
  rw [simState_eq] at h ⊢
  by_cases hvalidating : (d.sim.sub.isSome || d.sim.own.isSome) = true
  · rw [if_pos hvalidating] at h
    omega
  by_cases hnone : d.sim.staged.isNone = true
  · rw [if_neg hvalidating, if_pos hnone] at h
    omega
  obtain ⟨hsub, hown⟩ : d.sim.sub = none ∧ d.sim.own = none := by simpa using hvalidating
  exact ⟨hsub, hown, fun harmed => by rw [if_neg hvalidating, if_neg hnone, if_pos harmed]⟩

/-- With no submission and nothing staged the state is 0. -/
theorem simState_empty {d : Dev} (hsub : d.sim.sub = none) (hown : d.sim.own = none) (hstaged : d.sim.staged = none) :
    d.simState = 0 := by
  simp [simState_eq, hsub, hown, hstaged]

/-! ### SIM_DISCARD (R78) -/

/-- An image copy rewritten, the image side changed, and the event of it. -/
def copyDropped (d : Dev) (c : ImgCopy) (g : SimState → SimState) : Dev :=
  ((d.setCopy d.otherCopy c).onSim g).event 22 .imageDiscarded

theorem simDiscard_unarmed {d : Dev} (h : d.simState = 2 ∨ d.simState = 3 ∨ d.simState = 4) :
    d.simDiscard = copyDropped d {} (fun s => { s with staged := none, onFlash := false, waiting := false }) := if_pos h

theorem simDiscard_armed {d : Dev} (h : d.simState = 6) :
    d.simDiscard = copyDropped d { d.boot.copy d.otherCopy with state := .cleared } (fun s => { s with staged := none, armed := false }) := by
  simp [Dev.simDiscard, h, copyDropped]

theorem simDiscard_idle {d : Dev} (h : d.simState = 0 ∨ d.simState = 1 ∨ d.simState = 5) : d.simDiscard = d.event 22 .discardIdle := by
  rcases h with h | h | h <;> simp [Dev.simDiscard, h]

theorem copyDropped_sim (d : Dev) (c : ImgCopy) (g : SimState → SimState) : (copyDropped d c g).sim = g d.sim :=
  (event_frame _ _ _ _).1

theorem copyDropped_dataKept (d : Dev) (c : ImgCopy) (g : SimState → SimState) : d.dataKept (copyDropped d c g) :=
  dataKept_trans (setCopy_dataKept d _ c) (dataKept_trans (onSim_dataKept _ g) (event_dataKept _ _ _ _))

theorem copyDropped_regsKept (d : Dev) (c : ImgCopy) (g : SimState → SimState) : d.regsKept (copyDropped d c g) eventRegs :=
  event_regsKept (regsKept_trans (setCopy_regsKept d _ c _) (onSim_regsKept _ g _)) _ _ _ (fun _ h => h)

/-- Whatever else a drop clears: where it leaves nothing staged, armed or under validation, SIM_STATUS.state is 0. -/
theorem copyDropped_leaves {d : Dev} (c : ImgCopy) {g : SimState → SimState} (hstaged : (g d.sim).staged = none)
    (harmed : (g d.sim).armed = false) (hsub : (g d.sim).sub = none) (hown : (g d.sim).own = none)
    (hactive : (g d.sim).active = d.sim.active) :
    (copyDropped d c g).sim.staged = none ∧ (copyDropped d c g).sim.armed = false ∧ (copyDropped d c g).simState = 0 ∧
      (copyDropped d c g).sim.active = d.sim.active ∧ d.dataKept (copyDropped d c g) ∧
      d.regsKept (copyDropped d c g) eventRegs := by
  rw [← copyDropped_sim d c g] at hstaged harmed hsub hown hactive
  exact ⟨hstaged, harmed, simState_empty hsub hown hstaged, hactive, copyDropped_dataKept d c g, copyDropped_regsKept d c g⟩

/-- Settles O21: by whether the staged image's copy is armed, since the two kinds of drop clear different parts of the image side. -/
theorem discardStaged : Obligations.DiscardStaged := by
  unfold Obligations.DiscardStaged
  intro s htakes
  have hexec : exec .simDiscard s = s.ends s.dev.simDiscard := run_acts (fun d => d.simDiscard) htakes
  rw [hexec]
  refine ⟨fun hst => ?staged, fun hidle => congrArg s.ends (simDiscard_idle hidle)⟩
  case staged =>
    obtain ⟨hsub, hown, harmed⟩ := simState_staged (d := s.dev) (by omega)
    by_cases h6 : s.dev.simState = 6
    · rw [simDiscard_armed h6]
      exact ⟨_, rfl, copyDropped_leaves _ rfl rfl hsub hown rfl⟩
    · have hunarmed : s.dev.sim.armed = false := eq_false_of_ne_true (mt harmed h6)
      rw [simDiscard_unarmed (by omega)]
      exact ⟨_, rfl, copyDropped_leaves _ rfl hunarmed hsub hown rfl⟩

end Sys2Proof.Proofs
end

section
/-! PROOFS. Strobes, triggers and TIME (R79 to R98), and the tick of an idle device: which commands a head in service runs, what a
schedule's first pulse is, which strobes are only counted, and what the pulses on slot counter and seconds leave. -/
namespace Sys2Proof.Proofs
open Sys2Proof Sys2Proof.Machine Sys2Proof.Laws

/-! ### The first pulse of a schedule (R96) -/

/-- Ceiling division is the lower adjoint of multiplication. -/
theorem ceilDiv_le_iff {n k m : Nat} (hk : 0 < k) : ceilDiv n k ≤ m ↔ n ≤ m * k := by
  rw [ceilDiv, Nat.div_le_iff_le_mul hk]
  omega

/-- Pulse `k` of a periodic schedule is the first one or a later one exactly when its time is not past. -/
theorem firstPulse_le_iff {t : Trig} (hperiod : 0 < t.period) (now k : Nat) :
    firstPulse t now ≤ k ↔ now ≤ t.start + k * t.period := by
  unfold firstPulse
  split
  case isTrue hnotPast => exact ⟨fun _ => Nat.le_add_right_of_le hnotPast, fun _ => Nat.zero_le k⟩
  case isFalse =>
    rw [if_neg (Nat.ne_of_gt hperiod), ceilDiv_le_iff hperiod]
    omega

theorem firstPulse_single {t : Trig} (hperiod : t.period = 0) (now : Nat) : firstPulse t now = if now ≤ t.start then 0 else 1 := by
  rw [firstPulse, if_pos hperiod]

/-- Settles O24: a pulse number is at or past the first one exactly when its time is not past, read once at the first pulse itself and
once, negated, below it. -/
theorem firstPulseIsLeast : Obligations.FirstPulseIsLeast := by
  unfold Obligations.FirstPulseIsLeast
  refine fun t now => ⟨fun hperiod => ⟨?_, fun k hk => ?_⟩, fun hperiod => ?_⟩
  · exact (firstPulse_le_iff hperiod now _).1 (Nat.le_refl _)
  · exact Nat.lt_of_not_le (mt (firstPulse_le_iff hperiod now k).2 (Nat.not_le_of_lt hk))
  · simp [firstPulse_single hperiod]

/-! ### The tick (R97, R222, R419) -/

theorem foldl_aon {α : Type} {l : List α} {op : Dev → α → Dev} {d : Dev} {n : Nat} (hd : d.pow.aon = n)
    (hop : ∀ (x : Dev) (a : α), (op x a).pow.aon = x.pow.aon) : (l.foldl op d).pow.aon = n :=
  List.foldlRecOn l op hd (fun x hx a _ => (hop x a).trans hx)

/-- The AON timebase counts one in the tick's first stage; no later stage touches it. -/
theorem tick_aon (d : Dev) : d.tick.pow.aon = d.pow.aon + 1 := by
  unfold Dev.tick
  extract_lets counted _ _ hours holdup drain time budget paused closing
  have hhours : hours.pow.aon = d.pow.aon + 1 := ite_aon rfl rfl
  have hholdup : holdup.pow.aon = d.pow.aon + 1 := ite_aon hhours hhours
  have hdrain : drain.pow.aon = d.pow.aon + 1 := ite_aon hholdup hholdup
  have htime : time.pow.aon = d.pow.aon + 1 := ite_aon ((tickTime_aon drain).trans hdrain) hdrain
  have hbudget : budget.pow.aon = d.pow.aon + 1 := ite_aon htime htime
  have hpaused : paused.pow.aon = d.pow.aon + 1 := foldl_aon hbudget (fun _ _ => rfl)
  exact foldl_aon hpaused (fun _ _ => ite_aon rfl rfl)

/-- Settles O2: the idle step is by definition the tick and what follows from it, and the tick counts the AON timebase. -/
theorem idleStepTicks : Obligations.IdleStepTicks := by
  unfold Obligations.IdleStepTicks
  exact fun s hempty => ⟨step_nil hempty, tick_aon s.dev⟩

/-! ### The slot counter (R83) -/

theorem slotAdj_chan_self (d : Dev) (c amount : Nat) : (d.slotAdj c amount).chan c =
    { d.chan c with slots := signedOf 32 (fieldOfInt 32 ((d.chan c).slots + signedOf 16 amount)) } :=
  chan_onChan_self _ _ _

theorem slotAdj_chan_ne (d : Dev) {c k : Nat} (amount : Nat) (h : k ≠ c) : (d.slotAdj c amount).chan k = d.chan k :=
  chan_onChan_ne _ _ h

theorem slotAdj_regsKept (d : Dev) (c amount : Nat) : d.regsKept (d.slotAdj c amount) [F.IPT_CH_SLOT_ADJ_amount.at c] :=
  set_regsKept (regsKept_of_regs (a := d) rfl _) _ amount List.mem_cons_self

theorem slotAdj_frame (d : Dev) (c amount : Nat) : (d.slotAdj c amount).out = d.out ∧ d.dataKept (d.slotAdj c amount) :=
  ⟨rfl, rfl, rfl, rfl⟩

/-- Settles O22: the sum goes through a signed 32-bit field, which keeps what fits it. -/
theorem slotAdjustment : Obligations.SlotAdjustment := by
  unfold Obligations.SlotAdjustment
  intro s ch amount htakes
  have hexec : exec (.slotAdjApply ch amount) s = s.ends (s.dev.slotAdj ch.val amount) :=
    run_acts (fun d => d.slotAdj ch.val amount) htakes
  refine ⟨_, hexec, fun hlow hhigh => ?_, fun c hc => slotAdj_chan_ne s.dev amount hc, slotAdj_regsKept s.dev ch.val amount,
    slotAdj_frame s.dev ch.val amount⟩
  rw [slotAdj_chan_self, signedOf_fieldOfInt _ hlow hhigh]

/-! ### The strobe filter (R79, R80) -/

theorem strobe_disabled {d : Dev} {c : Nat} (stamp width : Nat) (h : (d.chan c).role = .disabled) : d.strobe c stamp width = d := by
  simp [Dev.strobe, h]

/-- A pulse shorter than 2 ns is in no case accepted, whatever the open value says. -/
theorem strobe_glitch {d : Dev} {c width : Nat} (stamp : Nat) (hrole : (d.chan c).role ≠ .disabled) (hwidth : width < 2) :
    d.strobe c stamp width = (d.reachTime stamp).bump (F.IPT_CH_glitches.at c) := by
  have hshort : ¬ 2 ≤ width := by omega
  have hreject : ¬ 4 ≤ width := by omega
  simp [Dev.strobe, hrole, hshort, hreject]

/-- A pulse of 4 ns or more is accepted without an open value, and is then measured against the previous strobe. -/
theorem strobe_tooClose {d : Dev} {c stamp width : Nat} {p : Int} (hrole : (d.chan c).role ≠ .disabled) (hwidth : 4 ≤ width)
    (hprev : (d.chan c).prevStrobe = some p) (hclose : (stamp : Int) - p < 20) :
    d.strobe c stamp width = (d.reachTime stamp).bump (F.IPT_CH_too_close.at c) := by
  have hlong : ¬ width < 4 := by omega
  simp [Dev.strobe, hrole, hwidth, hlong, hprev, hclose]

/-- A strobe that is only counted leaves every channel as it was, its previous strobe with it. -/
theorem chan_bump_reachTime (d : Dev) (stamp : Nat) (f : Field) (c : Nat) : ((d.reachTime stamp).bump f).chan c = d.chan c :=
  congrArg (fun chans => Tab.getD chans c ({} : Chan)) (reachTime_frame d stamp).2.1

/-- Settles O23: the device's strobe in each of the three cases of the filter. -/
theorem strobeFilter : Obligations.StrobeFilter := by
  unfold Obligations.StrobeFilter
  intro s ch stamp width hup
  have hexec : exec (.strobe ch stamp width) s = s.ends (s.dev.strobe ch.val stamp width) :=
    run_up (fun d => d.strobe ch.val stamp width) hup
  rw [hexec]
  refine ⟨fun hdisabled => ?_, fun hrole hshort => ?_, fun p hrole hlong hprev hclose => ?_, fun f => chan_bump_reachTime _ _ _ _⟩
  · rw [strobe_disabled stamp width hdisabled]
  · rw [strobe_glitch stamp hrole hshort]
  · rw [strobe_tooClose hrole hlong hprev hclose]

/-! ### TMB_SEC_SET (R94) -/

theorem secSetApply_ptp {d : Dev} (h : d.timeSource = 1) : d.secSetApply = d.event 5 .badAccess [F.TMB_SEC_CTL_apply.off] := if_pos h

/-- Outside PTP the seconds standing in the register are latched, and pending is shown. -/
theorem secSetApply_latches {d : Dev} (h : d.timeSource ≠ 1) : d.secSetApply =
    (d.onTime (fun t => { t with secLatch := some (d.get F.TMB_SEC_SET_seconds) })).set F.TMB_SEC_CTL_pending 1 := if_neg h

/-- Settles O25: by the source of TIME. What is latched is a part of the TIME domain and no register, so a later write of TMB_SEC_SET
does not reach it. -/
theorem secondsApply : Obligations.SecondsApply := by
  unfold Obligations.SecondsApply
  intro s htakes
  have hexec : exec .secSetApply s = s.ends s.dev.secSetApply := run_acts (fun d => d.secSetApply) htakes
  rw [hexec]
  refine ⟨fun hptp => ?ptp, fun hother => ?other⟩
  case ptp =>
    rw [secSetApply_ptp hptp]
    exact ⟨_, rfl, by simp, event_regsKept (regsKept_of_regs rfl _) 5 .badAccess _ (fun _ h => h)⟩
  case other =>
    rw [secSetApply_latches hother]
    exact ⟨_, rfl, rfl, get_set_self _ _ _, set_regsKept (regsKept_of_regs rfl _) _ 1 List.mem_cons_self, rfl, fun _ => rfl⟩

/-! ### Commands of a head in service -/

/-- What a command that only a head in service runs ends in, whether it is in service or not. -/
theorem run_whenUp (s : State) (f : Dev → Dev) :
    s.run (fun _ d => d.whenUp f) = s.ends (if s.dev.up = true then f s.dev else s.dev) := rfl

/-- Settles O54: each command's meaning is its operation on a head in service. -/
theorem instrumentCommandsComplete : Obligations.InstrumentCommandsComplete := by
  unfold Obligations.InstrumentCommandsComplete
  intro s
  exact
    ⟨fun ch stamp width => run_whenUp s (fun d => d.strobe ch.val stamp width),
      fun ch num => run_whenUp s (fun d => d.strobeLate ch.val num),
      fun ch num => run_whenUp s (fun d => d.completionLate ch.val num),
      fun khz => run_whenUp s (fun d => d.ipclkMeasured khz),
      run_whenUp s Dev.ipclkStopped,
      run_whenUp s (fun d => d.set F.IPT_STAT_ipclk_ok 1),
      fun trig => run_whenUp s (fun d => d.trigPulse trig.val),
      fun offset => run_whenUp s (fun d => d.ppsEdge offset),
      fun m => run_whenUp s (fun d => d.ptpSync m),
      run_whenUp s (fun d => d.referenceLost 1),
      run_whenUp s (fun d => d.referenceLost 0),
      run_whenUp s (fun d => d.referenceLost 0),
      run_whenUp s Dev.holdoverExpiry,
      fun master intervalNs => run_whenUp s (fun d => d.ptpAnnounce master intervalNs),
      run_whenUp s Dev.timeSecond⟩

end Sys2Proof.Proofs
end

section
/-! PROOFS. RDMA capture (R99 to R133): advancing a window's limit keeps the limits within the buffer they share, CM_RTU completes a
connection, and what the network's commands end in. -/
namespace Sys2Proof.Proofs
open Sys2Proof Sys2Proof.Machine Sys2Proof.Laws

/-! ### Sums over a table's entries -/

/-- Putting an entry in place of a key's old one exchanges the old value's term of the sum for the new one's. -/
theorem sum_put {α : Type} (g : α → Nat) {k : Nat} {old : α} (v : α) {t : Tab α} (hwf : Tab.wf t = true)
    (hold : Tab.find? k t = some old) :
    ((Tab.put k v t).map (fun e => g e.2)).sum + g old = (t.map (fun e => g e.2)).sum + g v := by
  rw [wf_iff] at hwf
  induction t with
  | nil => cases hold
  | cons e t ih =>
    obtain ⟨j, u⟩ := e
    obtain ⟨hleast, htail⟩ := List.pairwise_cons.1 hwf
    by_cases hjk : j = k
    case pos =>
      subst hjk
      have hu : u = old := by simpa [Tab.find?] using hold
      simp only [Tab.put, Nat.lt_irrefl, if_true, if_false, List.map_cons, List.sum_cons, hu]
      omega
    case neg =>
      have hfind : Tab.find? k t = some old := by simpa [Tab.find?, hjk] using hold
      have hlater : ¬ k < j := fun hlt => by
        rw [find_lt (fun a ha => Nat.lt_trans hlt (hleast a ha))] at hfind
        cases hfind
      have hsum := ih htail hfind
      simp only [Tab.put, if_neg hlater, if_neg (Ne.symm hjk), List.map_cons, List.sum_cons]
      omega

/-! ### What advancing a limit can do (R115, R223) -/

/-- What a window has outstanding of its limit: Λ − H while it is bound. -/
def outstanding (x : Win) : Nat := if x.state == .bound then x.limit - x.horizon else 0

theorem outstanding_bound {x : Win} (h : x.state = .bound) : outstanding x = x.limit - x.horizon := by simp [outstanding, h]

/-- A window's limit moved to `new` now. -/
def limitMoved (d : Dev) (w new : Nat) : Dev := d.onWin w (fun x => { x with limit := new, advAt := some d.pow.aon })

theorem win_limitMoved_self (d : Dev) (w new : Nat) :
    (limitMoved d w new).win w = { d.win w with limit := new, advAt := some d.pow.aon } := win_onWin_self _ _ _

theorem wf_onWin {d : Dev} (w : Nat) (f : Win → Win) (h : Tab.wf d.net.wins = true) : Tab.wf (d.onWin w f).net.wins = true :=
  wf_updD w ({} : Win) f d.net.wins h

/-- Advancing a window's limit does nothing, or moves the limit of a bound window up by no more than the buffer and the budget have
left; a cut for the budget's sake is counted first. -/
theorem advanceLimit_cases (d : Dev) (w : Nat) : d.advanceLimit w = d ∨
    ∃ e new, (e = d ∨ e = d.bump F.STG_limit_cuts) ∧ (d.win w).state = .bound ∧ (d.win w).limit < new ∧
      new ≤ (d.win w).limit + (d.spanPool - d.granted) ∧ new ≤ (d.win w).limit + (d.budget - d.dirty) ∧
      d.advanceLimit w = limitMoved e w new := by
  unfold Dev.advanceLimit
  extract_lets x want paced fit new cut
  split
  case isTrue => exact .inl rfl
  case isFalse hopen =>
    split
    case isTrue => exact .inl rfl
    case isFalse hrises =>
      have hbound : x.state = .bound := Decidable.byContradiction fun hother =>
        hopen (Bool.or_eq_true_iff.2 (.inl (bne_iff_ne.2 hother)))
      have hcut : cut = d ∨ cut = d.bump F.STG_limit_cuts := by
        by_cases hless : new < fit
        · exact .inr (if_pos hless)
        · exact .inl (if_neg hless)
      have hfit : new ≤ fit := Nat.min_le_left _ _
      exact .inr ⟨cut, new, hcut, hbound, Nat.lt_of_not_le hrises, Nat.le_trans hfit (Nat.min_le_right _ _), Nat.min_le_right _ _, rfl⟩

/-- Counting a cut moves no window and no buffer. -/
theorem cutCounted_frame {d e : Dev} (h : e = d ∨ e = d.bump F.STG_limit_cuts) : e.net = d.net ∧ e.spanPool = d.spanPool := by
  rcases h with rfl | rfl
  · exact ⟨rfl, rfl⟩
  · have hreq : (d.bump F.STG_limit_cuts).mirrorReq = d.mirrorReq := on_bump_ne d 1 (by decide)
    have hmode : (d.bump F.STG_limit_cuts).mode 1 = d.mode 1 := on_bump_ne d 1 (by decide)
    exact ⟨rfl, by rw [Dev.spanPool, hreq, hmode, Dev.spanPool]⟩

/-! ### The limits stay within their buffer -/

/-- A bound window is in the table: one that is not listed is absent. -/
theorem find_of_bound {d : Dev} {w : Nat} (h : (d.win w).state = .bound) : Tab.find? w d.net.wins = some (d.win w) := by
  unfold Dev.win Tab.getD at h ⊢
  cases hfind : Tab.find? w d.net.wins with
  | none => simp [hfind] at h
  | some x => rfl

/-- Changing one bound window exchanges its part of the sum. -/
theorem granted_onWin {d : Dev} {w : Nat} (f : Win → Win) (hwf : Tab.wf d.net.wins = true) (hbound : (d.win w).state = .bound) :
    (d.onWin w f).granted + outstanding (d.win w) = d.granted + outstanding (f (d.win w)) :=
  sum_put outstanding (f (d.win w)) hwf (find_of_bound hbound)

theorem granted_limitMoved {d : Dev} {w : Nat} (new : Nat) (hwf : Tab.wf d.net.wins = true) (hbound : (d.win w).state = .bound) :
    (limitMoved d w new).granted + ((d.win w).limit - (d.win w).horizon) = d.granted + (new - (d.win w).horizon) := by
  have hsum := granted_onWin (fun x => { x with limit := new, advAt := some d.pow.aon }) hwf hbound
  have hafter : outstanding { d.win w with limit := new, advAt := some d.pow.aon } = new - (d.win w).horizon := outstanding_bound hbound
  rwa [outstanding_bound hbound, hafter] at hsum

/-- A limit that rises by no more than the buffer has left keeps the sum within it, whether or not the old limit was above the
horizon. -/
theorem grantsFit_limitMoved {d : Dev} {w new : Nat} (hwf : Tab.wf d.net.wins = true) (hbound : (d.win w).state = .bound)
    (hroom : new ≤ (d.win w).limit + (d.spanPool - d.granted)) (hfit : d.grantsFit) : (limitMoved d w new).grantsFit := by
  have hsum := granted_limitMoved new hwf hbound
  have hpool : (limitMoved d w new).spanPool = d.spanPool := rfl
  unfold Dev.grantsFit at hfit ⊢
  omega

/-- Settles O27: either nothing moves, or one bound window's limit rises by what buffer and budget have left. -/
theorem grantsStayWithinBuffer : Obligations.GrantsStayWithinBuffer := by
  unfold Obligations.GrantsStayWithinBuffer
  intro d w hwf hfit
  rcases advanceLimit_cases d w with hsame | ⟨e, new, hcut, hbound, hrises, hroom, hbudget, hmoved⟩
  case inl =>
    rw [hsame]
    exact ⟨hfit, Nat.le_refl _, rfl, rfl, fun _ _ => rfl, hwf, by omega⟩
  case inr =>
    obtain ⟨hnet, hpool⟩ := cutCounted_frame hcut
    have hwin (v : Nat) : e.win v = d.win v := by rw [Dev.win, hnet, Dev.win]
    have hgranted : e.granted = d.granted := by rw [Dev.granted, hnet, Dev.granted]
    rw [hmoved, win_limitMoved_self, hwin]
    refine ⟨grantsFit_limitMoved ?_ ?_ ?_ ?_, Nat.le_of_lt hrises, rfl, rfl, fun v hv => ?_, ?_, Nat.sub_le_iff_le_add.2 ?_⟩
    · rwa [hnet]
    · rwa [hwin]
    · rwa [hwin, hpool, hgranted]
    · rwa [Dev.grantsFit, hgranted, hpool]
    · exact (win_onWin_ne e _ hv).trans (hwin v)
    · exact wf_onWin w _ (by rwa [hnet])
    · rwa [Nat.add_comm]

/-! ### CM_RTU (R103) -/

theorem cmRtu_rtr {d : Dev} {q : Nat} (h : (d.qp q).state = .rtr) : d.cmRtu q = d.qpTo q .rts := by simp [Dev.cmRtu, h]

theorem cmRtu_other {d : Dev} {q : Nat} (h : (d.qp q).state ≠ .rtr) : d.cmRtu q = d := by simp [Dev.cmRtu, h]

/-- The trace packet of a state change is no part of the queue pairs. -/
theorem qp_qpTo (d : Dev) (q k : Nat) (st : QpState) : (d.qpTo q st).qp k = (d.onQp q (fun x => { x with state := st })).qp k := rfl

/-- Settles O28: by whether the queue pair is in RTR. -/
theorem rtuCompletesConnection : Obligations.RtuCompletesConnection := by
  unfold Obligations.RtuCompletesConnection
  intro s q hup
  have hexec : exec (.cmRtu q) s = s.ends (s.dev.cmRtu q) := run_up (fun d => d.cmRtu q) hup
  rw [hexec]
  refine ⟨fun hrtr => ⟨s.dev.cmRtu q, rfl, ?_⟩, fun hother => congrArg s.ends (cmRtu_other hother)⟩
  rw [cmRtu_rtr hrtr]
  exact ⟨by rw [qp_qpTo, qp_onQp_self], fun k hk => by rw [qp_qpTo, qp_onQp_ne _ _ hk], rfl, rfl, rfl, rfl, rfl⟩

/-! ### Every command of the network -/

/-- Settles O55: each command's meaning is its operation on a head in service. -/
theorem networkCommandsComplete : Obligations.NetworkCommandsComplete := by
  unfold Obligations.NetworkCommandsComplete
  intro s
  have hpacket (c : Instr) : s.run (fun _ d => d.whenUp (fun d => d.receive c)) =
      s.ends (if s.dev.up = true then s.dev.receive c else s.dev) := run_whenUp s (fun d => d.receive c)
  exact
    ⟨fun p pos imm payload => hpacket (.send p pos imm payload),
      fun p pos reth payload => hpacket (.rdmaWrite p pos reth payload),
      fun p pos reth imm payload => hpacket (.rdmaWriteWithImmediate p pos reth imm payload),
      fun p reth => hpacket (.rdmaReadRequest p reth),
      fun p payload last error => hpacket (.rdmaReadResponse p payload last error),
      fun p syndrome msn => hpacket (.acknowledge p syndrome msn),
      fun p => hpacket (.cnp p),
      fun p h payload => hpacket (.sprayWriteNotLast p h payload),
      fun p h payload => hpacket (.sprayWriteLast p h payload),
      fun p h imm payload => hpacket (.sprayWriteLastImmediate p h imm payload),
      fun p transport opcode => run_whenUp s (fun d => d.unsupported p transport (.unsupportedOpcode p transport opcode)),
      fun port prio pause => run_whenUp s (fun d => d.pfcFrame port prio.val pause),
      fun port opens toData => run_whenUp s (fun d => d.tcpSegment port opens toData),
      fun r => run_whenUp s (fun d => d.cmReq r),
      fun qpn peerQpn psn priv => run_whenUp s (fun d => d.cmRep qpn peerQpn psn priv),
      fun qpn => run_whenUp s (fun d => d.cmRtu qpn),
      fun qpn => run_whenUp s (fun d => d.cmDreq qpn),
      fun qpn code => run_whenUp s (fun d => d.cmRej qpn code),
      fun port => run_whenUp s (fun d => d.linkDown port),
      fun port => run_whenUp s (fun d => d.linkUp port),
      fun qpn fault => run_whenUp s (fun d => d.contextFetched qpn fault),
      fun qpn => run_whenUp s (fun d => d.qpReset qpn),
      fun qpn => run_whenUp s (fun d => d.ucTimeout qpn),
      fun qpn => run_whenUp s (fun d => d.sackGap qpn),
      run_whenUp s Dev.creditRefresh,
      fun qpn => run_whenUp s (fun d => d.retriesOut qpn),
      fun qpn => run_whenUp s (fun d => d.paceRise qpn),
      fun qpn => run_whenUp s (fun d => d.retransmit qpn)⟩

end Sys2Proof.Proofs
end

section
/-! PROOFS. NVMe queues (R135 to R167): what a head in service makes of each command that it fetches, what becomes of one that it does
not fetch (R383), and the two ways in which Read Epoch Digest finds no Cairn (R163). -/
namespace Sys2Proof.Proofs
open Sys2Proof Sys2Proof.Machine Sys2Proof.Laws

/-! ### Read Epoch Digest (R163) -/

theorem exec_readEpochDigest_fetched {s : State} {h : NvHdr} (cairn : Nat) (latest : Bool) (buf : NvBuf) (hup : s.dev.up = true)
    (hf : s.dev.fetches h = true) : exec (.readEpochDigest h cairn latest buf) s = s.ends (s.dev.readDigest h cairn latest buf) :=
  run_fetched (.readEpochDigest h cairn latest buf) (fun d => d.readDigest h cairn latest buf) hup hf

/-- Only a namespace that the other head has written can have Cairns whose record this head lacks. -/
theorem foreignCairn_own {d : Dev} {nsid : Nat} (k : Nat) (hown : (d.ns nsid).foreign = false) : d.foreignCairn nsid k = d := by
  simp [Dev.foreignCairn, hown]

theorem readDigest_noNamespace {d : Dev} {h : NvHdr} (cairn : Nat) (latest : Bool) (buf : NvBuf)
    (hnone : (d.img.ns? h.nsid).isNone = true) : d.readDigest h cairn latest buf = d.nvAnswer h 0xC2 true nvBadNs := by
  rw [Dev.readDigest, if_pos hnone]

/-- No record is taken over from the other head, so the search is in the namespace's own records. -/
theorem readDigest_notKept {d : Dev} {h : NvHdr} {cairn : Nat} (buf : NvBuf) (hsome : (d.img.ns? h.nsid).isSome = true)
    (hown : (d.ns h.nsid).foreign = false) (habsent : Tab.find? cairn (d.ns h.nsid).cairns = none) :
    d.readDigest h cairn false buf = d.nvAnswer h 0xC2 true nvNoCairn := by
  have hheld : ¬ (d.img.ns? h.nsid).isNone = true := by simpa [Option.isSome_iff_ne_none] using hsome
  simp only [Dev.readDigest, if_neg hheld, Bool.false_eq_true, if_false, foreignCairn_own cairn hown, habsent]

/-- Settles O30: by whether the image holds the namespace; where it does, no record comes from the other head. -/
theorem digestNotKept : Obligations.DigestNotKept := by
  unfold Obligations.DigestNotKept
  intro s h cairn buf hup hf
  rw [exec_readEpochDigest_fetched cairn false buf hup hf]
  exact ⟨fun hnone => congrArg s.ends (readDigest_noNamespace cairn false buf hnone),
    fun hsome hown habsent => congrArg s.ends (readDigest_notKept buf hsome hown habsent)⟩

/-! ### Commands of the queues -/

/-- What a fetched command ends in, whether the head is in service or not. -/
theorem run_whenUp_fetched {s : State} {h : NvHdr} (i : Instr) (f : Dev → Dev) (hf : s.dev.fetches h = true) :
    s.run (fun _ d => d.whenUp (fun d => d.arrives h i f)) = s.ends (if s.dev.up = true then f s.dev else s.dev) := by
  rw [run_whenUp, arrives_fetched i f hf]

/-- A command that is not fetched wakes the head and waits behind those of its queue, whatever it would do once fetched (R383). -/
theorem arrives_unfetched {d : Dev} {h : NvHdr} (i : Instr) (f : Dev → Dev) (hf : d.fetches h = false) :
    d.arrives h i f = d.wake.onNv (fun n => { n with unfetched := n.unfetched ++ [(h, i)] }) := by
  rw [Dev.arrives, hf, if_neg Bool.false_ne_true]

theorem run_unfetched {s : State} {h : NvHdr} (i : Instr) (f : Dev → Dev) (hup : s.dev.up = true) (hf : s.dev.fetches h = false) :
    s.run (fun _ d => d.whenUp (fun d => d.arrives h i f)) =
      s.ends (s.dev.wake.onNv (fun n => { n with unfetched := n.unfetched ++ [(h, i)] })) := by
  rw [run_up _ hup, arrives_unfetched i f hf]

/-- Settles O56: a command of a queue is fetched, and then its meaning is its operation on a head in service, or it waits; the rows
without a queue (keep-alive timer, Connect, controller reset) act on a head in service. -/
theorem nvmeCommandsComplete : Obligations.NvmeCommandsComplete := by
  unfold Obligations.NvmeCommandsComplete
  intro s
  exact
    ⟨fun h slba nlb fua data => run_unfetched _ (fun d => d.nvWrite h slba nlb fua data),
      fun h => run_whenUp_fetched _ (fun d => d.nvFlush h),
      fun h slba nlb fua data => run_whenUp_fetched _ (fun d => d.nvWrite h slba nlb fua data),
      fun h slba nlb _ buf => run_whenUp_fetched _ (fun d => d.nvRead h slba nlb buf),
      fun h slba nlb data => run_whenUp_fetched _ (fun d => d.nvCompare h slba nlb data),
      fun h slba nlb deac fua => run_whenUp_fetched _ (fun d => d.nvWriteZeroes h slba nlb deac fua),
      fun h nr ad ranges fault => run_whenUp_fetched _ (fun d => d.nvDsm h nr ad ranges fault),
      fun h slba nlb => run_whenUp_fetched _ (fun d => d.nvVerify h slba nlb),
      fun h retain waitClose => run_whenUp_fetched _ (fun d => d.placeCairn h retain waitClose),
      fun h qid => run_whenUp_fetched _ (fun d => d.deleteSq h qid),
      fun h qid => run_whenUp_fetched _ (fun d => d.deleteCq h qid),
      fun h qid size contig cqid base => run_whenUp_fetched _ (fun d => d.createSq h qid size contig cqid base),
      fun h qid size contig ien vector base => run_whenUp_fetched _ (fun d => d.createCq h qid size contig ien vector base),
      fun h lid rae numd offset buf => run_whenUp_fetched _ (fun d => d.getLog h lid rae numd offset buf),
      fun h cns buf => run_whenUp_fetched _ (fun d => d.identify h cns buf),
      fun h sqid target => run_whenUp_fetched _ (fun d => d.abortCmd h sqid target),
      fun h fid save dw11 dw12 data => run_whenUp_fetched _ (fun d => d.setFeatures h fid save dw11 dw12 data),
      fun h fid sel dw11 buf => run_whenUp_fetched _ (fun d => d.getFeatures h fid sel dw11 buf),
      fun h => run_whenUp_fetched _ (fun d => d.aer h),
      fun h => run_whenUp_fetched _ (fun d => d.keepAlive h),
      fun ctrl => run_whenUp s (fun d => d.katoExpired ctrl),
      fun h cairn latest buf => run_whenUp_fetched _ (fun d => d.readDigest h cairn latest buf),
      fun h channel byTime kindMask startSeq startNs count buf =>
        run_whenUp_fetched _ (fun d => d.frameQuery h channel.val byTime kindMask startSeq startNs count buf),
      fun c => run_whenUp s (fun d => d.connect c),
      fun h off eight => run_whenUp_fetched _ (fun d => d.propertyGet h off eight),
      fun h off eight val => run_whenUp_fetched _ (fun d => d.propertySet h off eight val),
      fun h admin opcode => run_whenUp_fetched _ (fun d => d.badOpcode h admin opcode),
      run_whenUp s Dev.controllerReset⟩

end Sys2Proof.Proofs
end

section
/-! PROOFS. Reduction, jobs and Cairns (R176 to R216, R296 to R309): which version of an overwritten block a close keeps, and what a
head in service makes of each job, management datagram, stripe, Cairn and Caravan command. -/
namespace Sys2Proof.Proofs
open Sys2Proof Sys2Proof.Machine Sys2Proof.Laws

/-! ### The order of write identities (R176) -/

theorem identityLt_iff (a b : WriteId) : identityLt a b = true ↔
    a.stream < b.stream ∨ (a.stream = b.stream ∧ (a.seq < b.seq ∨ (a.seq = b.seq ∧ a.block < b.block))) := by simp [identityLt]

theorem identityLt_irrefl (a : WriteId) : identityLt a a = false := by simp [identityLt]

theorem identityLt_trans {a b c : WriteId} (hab : identityLt a b = true) (hbc : identityLt b c = true) : identityLt a c = true := by
  rw [identityLt_iff] at hab hbc ⊢
  omega

theorem identityLt_total {a b : WriteId} (hab : identityLt a b = false) (hba : identityLt b a = false) : a = b := by
  rw [← Bool.not_eq_true, identityLt_iff] at hab hba
  have hparts : a.stream = b.stream ∧ a.seq = b.seq ∧ a.block = b.block := by omega
  cases a
  cases b
  simpa using hparts

/-! ### Overlaps at a close (R300) -/

/-- The versions of an epoch are added at the end of their list, so induction goes from there. -/
theorem versions_induction {motive : List EpochBlock → Prop} (nil : motive [])
    (concat : ∀ (l : List EpochBlock) (b : EpochBlock), motive l → motive (l ++ [b])) (l : List EpochBlock) : motive l := by
  rw [← List.reverse_reverse l]
  induction l.reverse with
  | nil => exact nil
  | cons b r ih =>
    rw [List.reverse_cons]
    exact concat r.reverse b ih

/-- One more version leaves its block's survivor, which is not lower, or takes the block over from every lower one. -/
theorem survivors_concat (l : List EpochBlock) (b : EpochBlock) :
    (survivors (l ++ [b]) = survivors l ∧ ∃ x, Tab.find? b.lba (survivors l) = some x ∧ identityLt x.wid b.wid = false) ∨
    (survivors (l ++ [b]) = Tab.put b.lba b (survivors l) ∧
      ∀ x, Tab.find? b.lba (survivors l) = some x → identityLt x.wid b.wid = true) := by
  simp only [survivors, List.foldl_append, List.foldl_cons, List.foldl_nil]
  split
  case h_1 x hfind =>
    split
    case isTrue hlower => exact .inr ⟨rfl, fun y hy => Option.some.inj (hfind.symm.trans hy) ▸ hlower⟩
    case isFalse hhigher => exact .inl ⟨rfl, x, hfind, eq_false_of_ne_true hhigher⟩
  case h_2 hnone => exact .inr ⟨rfl, fun y hy => nomatch hnone.symm.trans hy⟩

theorem survivors_wf (l : List EpochBlock) : Tab.wf (survivors l) = true := by
  induction l using versions_induction with
  | nil => rfl
  | concat l b ih =>
    rcases survivors_concat l b with ⟨hkept, -⟩ | ⟨hput, -⟩
    · rwa [hkept]
    · rw [hput]
      exact wf_put _ _ _ ih

/-- A survivor is one of the versions, under its own block. -/
theorem mem_of_survivor {l : List EpochBlock} {k : Nat} {x : EpochBlock} (h : Tab.find? k (survivors l) = some x) :
    x ∈ l ∧ x.lba = k := by
  induction l using versions_induction with
  | nil => exact nomatch h
  | concat l b ih =>
    have hold (hin : Tab.find? k (survivors l) = some x) : x ∈ l ++ [b] ∧ x.lba = k :=
      (ih hin).imp_left (List.mem_append_left [b])
    rcases survivors_concat l b with ⟨hkept, -⟩ | ⟨hput, -⟩
    · exact hold (hkept ▸ h)
    · rw [hput] at h
      by_cases hk : k = b.lba
      · rw [hk, find_put_self] at h
        exact ⟨by simp [Option.some.inj h], by rw [hk, Option.some.inj h]⟩
      · exact hold (by rwa [find_put_ne hk] at h)

/-- No version of a block is above the survivor: one that takes the block over is above the old survivor, hence above all below it. -/
theorem survivor_highest {l : List EpochBlock} {b : EpochBlock} (hb : b ∈ l) :
    ∃ x, Tab.find? b.lba (survivors l) = some x ∧ identityLt x.wid b.wid = false := by
  induction l using versions_induction with
  | nil => exact nomatch hb
  | concat l c ih =>
    rw [List.mem_append, List.mem_singleton] at hb
    rcases survivors_concat l c with ⟨hkept, hnew⟩ | ⟨hput, hbelow⟩
    case inl =>
      rw [hkept]
      rcases hb with hold | rfl
      · exact ih hold
      · exact hnew
    case inr =>
      rw [hput]
      rcases hb with hold | rfl
      case inr => exact ⟨b, find_put_self _ _ _, identityLt_irrefl _⟩
      obtain ⟨x, hfind, hhigh⟩ := ih hold
      by_cases hsame : b.lba = c.lba
      · rw [hsame] at hfind ⊢
        refine ⟨c, find_put_self _ _ _, eq_false_of_ne_true fun hcb => ?_⟩
        exact Bool.false_ne_true (hhigh.symm.trans (identityLt_trans (hbelow x hfind) hcb))
      · exact ⟨x, (find_put_ne hsame _ _).trans hfind, hhigh⟩

/-- Settles O36: each clause by adding the versions one at a time, the order being lexicographic. -/
theorem survivorIsHighest : Obligations.SurvivorIsHighest := by
  unfold Obligations.SurvivorIsHighest
  intro l
  refine ⟨survivors_wf l, fun _ _ => mem_of_survivor, fun b hb => ?_, identityLt_iff, fun _ _ => identityLt_total⟩
  obtain ⟨x, hfind, hhigh⟩ := survivor_highest hb
  obtain ⟨-, hlba⟩ := mem_of_survivor hfind
  exact ⟨x, hfind, hlba, hhigh⟩

/-! ### Jobs of a ring (R186) -/

section
variable {c : Instr} {cip : Bool} {n : Nat} (hring : jobRing c = some (cip, n))
include hring

theorem submitJob_fetched {d : Dev} (hpcie : d.pow.pcieUp = true) (hruns : d.jobRuns cip n = true) :
    d.submitJob c = d.wake.runJob c := by
  simp [Dev.submitJob, hring, hpcie, hruns]

theorem submitJob_unfetched {d : Dev} (hpcie : d.pow.pcieUp = true) (hwaits : d.jobRuns cip n = false) :
    d.submitJob c = d.onRed (fun x => { x with jobsHeld := x.jobsHeld ++ [c] }) := by
  simp [Dev.submitJob, hring, hpcie, hwaits]

/-- A job that its ring has fetched wakes the head and runs. -/
theorem run_jobFetched {s : State} (hup : s.dev.up = true) (hpcie : s.dev.pow.pcieUp = true) (hruns : s.dev.jobRuns cip n = true) :
    s.run (fun _ d => d.whenUp (fun d => d.submitJob c)) = s.ends (s.dev.wake.runJob c) := by
  rw [run_up _ hup, submitJob_fetched hring hpcie hruns]

/-- A job that does not run yet (not fetched, behind a held job of its ring, or in a thermal drain) joins the end of the held jobs. -/
theorem run_jobUnfetched {s : State} (hup : s.dev.up = true) (hpcie : s.dev.pow.pcieUp = true) (hwaits : s.dev.jobRuns cip n = false) :
    s.run (fun _ d => d.whenUp (fun d => d.submitJob c)) =
      s.ends (s.dev.onRed (fun x => { x with jobsHeld := x.jobsHeld ++ [c] })) := by
  rw [run_up _ hup, submitJob_unfetched hring hpcie hwaits]

end

/-- Settles O57: a job runs, and then its meaning is its operation, or it is held; a datagram of the management port is answered by its
operation alone, every other row by its operation on a head in service. -/
theorem jobAndCairnCommandsComplete : Obligations.JobAndCairnCommandsComplete := by
  unfold Obligations.JobAndCairnCommandsComplete
  intro s
  exact
    ⟨fun j => run_jobUnfetched (c := .jobCompress j) rfl,
      fun j => run_jobUnfetched (c := .cipEncrypt j) rfl,
      fun j => run_jobFetched (c := .jobCompress j) rfl,
      fun j => run_jobFetched (c := .jobDecompress j) rfl,
      fun j => run_jobFetched (c := .jobFlush j) rfl,
      fun j => run_jobFetched (c := .jobSaveContext j) rfl,
      fun j => run_jobFetched (c := .jobRestoreContext j) rfl,
      fun j => run_jobFetched (c := .cipEncrypt j) rfl,
      fun j => run_jobFetched (c := .cipDecrypt j) rfl,
      fun j => run_jobFetched (c := .cipLoadKey j) rfl,
      fun j => run_jobFetched (c := .cipSaveContext j) rfl,
      fun j => run_jobFetched (c := .cipRestoreContext j) rfl,
      fun _ => rfl,
      fun _ => rfl,
      fun _ _ => rfl,
      fun _ _ => rfl,
      fun pool seq => run_whenUp s (fun d => d.stripeFillTimeout pool seq),
      fun pool seq => run_whenUp s (fun d => d.parityDone pool seq),
      fun pool => run_whenUp s (fun d => if d.owns pool then d.journalPage pool else d),
      fun stream => run_whenUp s (fun d => d.timerCairn stream),
      fun nsid stateWordOk => run_whenUp s (fun d => d.cairnClose nsid stateWordOk),
      fun target => run_whenUp s (fun d => d.caravanOpens target),
      fun qpn r => run_whenUp s (fun d => d.openRecord qpn r),
      fun qpn r => run_whenUp s (fun d => d.epochRecord qpn r),
      fun qpn r => run_whenUp s (fun d => d.blockRecord qpn r),
      fun qpn index digest => run_whenUp s (fun d => d.epochEnd qpn index digest),
      fun qpn index imageDigest chainDigest => run_whenUp s (fun d => d.imageEnd qpn index imageDigest chainDigest),
      fun qpn index => run_whenUp s (fun d => d.closeRecord qpn index),
      fun target index refused => run_whenUp s (fun d => d.carConfirmed target index refused),
      fun target => run_whenUp s (fun d => d.carReconnect target)⟩

end Sys2Proof.Proofs
end

section
/-! PROOFS. Ciphers and keys (R201 to R217): a stream mode's context is moved by the ciphertext alone, so decrypting retraces
encrypting; what zeroization leaves in the registers; what a pulse of SHARE_LOAD does while a load is under way and else. -/
namespace Sys2Proof.Proofs
open Sys2Proof Sys2Proof.Machine Sys2Proof.Laws

/-! ### One octet of a stream mode (R211) -/

theorem streamByte_octet (enc : Bool) (c : CipherCtx) (ks : Bytes) (b : Byte) :
    (streamByte enc c ks b).1 = b ^^^ ks.getD c.part.length 0 := by
  unfold streamByte
  extract_lets o ct part
  split <;> rfl

/-- Both directions feed the ciphertext octet to the context, so both leave the same one. -/
theorem streamByte_ctx (c : CipherCtx) (ks : Bytes) (b : Byte) :
    (streamByte false c ks (streamByte true c ks b).1).2 = (streamByte true c ks b).2 := by
  rw [streamByte_octet]
  simp only [streamByte, if_true, Bool.false_eq_true, if_false]
  split <;> rfl

theorem streamByte_inverts (c : CipherCtx) (ks : Bytes) (b : Byte) :
    streamByte false c ks (streamByte true c ks b).1 = (b, (streamByte true c ks b).2) := by
  refine Prod.ext ?octet (streamByte_ctx c ks b)
  case octet => rw [streamByte_octet, streamByte_octet, BitVec.xor_assoc, BitVec.xor_self, BitVec.xor_zero]

/-! ### Octets of a stream mode -/

/-- The key stream for the octets that follow: that of the block under way, or a new one where a block begins and octets are left. -/
def nextKeyStream (c : CipherCtx) (ks rest : Bytes) : Bytes :=
  if c.part.isEmpty then (if rest.isEmpty then [] else aesEnc c.key c.iv) else ks

/-- What is put out already stands before what follows and does not bear on it. -/
theorem streamRun_acc (enc : Bool) (bs : Bytes) (c : CipherCtx) (ks acc : Bytes) :
    streamRun enc bs c ks acc = (acc.reverse ++ (streamRun enc bs c ks []).1, (streamRun enc bs c ks []).2) := by
  induction bs generalizing c ks acc with
  | nil => simp [streamRun]
  | cons b t ih =>
    simp only [streamRun]
    rw [ih _ _ (_ :: acc), ih _ _ [_]]
    simp

theorem streamRun_cons (enc : Bool) (b : Byte) (t : Bytes) (c : CipherCtx) (ks : Bytes) :
    streamRun enc (b :: t) c ks [] =
      let first := streamByte enc c ks b
      let rest := streamRun enc t first.2 (nextKeyStream first.2 ks t) []
      (first.1 :: rest.1, rest.2) :=
  streamRun_acc enc t _ _ [(streamByte enc c ks b).1]

theorem streamRun_length (enc : Bool) (bs : Bytes) (c : CipherCtx) (ks : Bytes) :
    (streamRun enc bs c ks []).1.length = bs.length := by
  induction bs generalizing c ks with
  | nil => rfl
  | cons b t ih => rw [streamRun_cons, List.length_cons, ih, List.length_cons]

theorem streamRun_isEmpty (enc : Bool) (bs : Bytes) (c : CipherCtx) (ks : Bytes) :
    (streamRun enc bs c ks []).1.isEmpty = bs.isEmpty := by
  cases bs with
  | nil => rfl
  | cons b t => rw [streamRun_cons, List.isEmpty_cons, List.isEmpty_cons]

/-- Octet by octet decrypting meets the contexts and key streams that encrypting met. -/
theorem streamRun_inverts (bs : Bytes) (c : CipherCtx) (ks : Bytes) :
    streamRun false (streamRun true bs c ks []).1 c ks [] = (bs, (streamRun true bs c ks []).2) := by
  induction bs generalizing c ks with
  | nil => rfl
  | cons b t ih =>
    have hks (x : CipherCtx) (k : Bytes) : nextKeyStream x ks (streamRun true t x k []).1 = nextKeyStream x ks t := by
      rw [nextKeyStream, streamRun_isEmpty, nextKeyStream]
    simp only [streamRun_cons, streamByte_inverts, hks, ih]

/-! ### Data through a context's stream mode -/

theorem cipherRun_nil (enc : Bool) (c : CipherCtx) : cipherRun enc c [] = ([], c) := rfl

theorem cipherRun_stream {c : CipherCtx} (enc : Bool) {bs : Bytes} (hmode : c.mode ≠ 1) (hbs : bs.isEmpty = false) :
    cipherRun enc c bs = ((streamRun enc bs c (aesEnc c.key c.iv) []).1,
      { (streamRun enc bs c (aesEnc c.key c.iv) []).2 with dataLen := c.dataLen + bs.length }) := by
  rw [cipherRun, hbs, if_neg Bool.false_ne_true, if_neg hmode]

/-- Settles O31: the stream undoes itself, and what it gives for data is as long as the data, so both directions count the same
length. -/
theorem streamModesInvert : Obligations.StreamModesInvert := by
  unfold Obligations.StreamModesInvert
  intro c data hmode
  cases data with
  | nil => rw [cipherRun_nil, cipherRun_nil]
  | cons b t =>
    have hout : (streamRun true (b :: t) c (aesEnc c.key c.iv) []).1.isEmpty = false := streamRun_isEmpty true (b :: t) c _
    rw [cipherRun_stream true hmode List.isEmpty_cons, cipherRun_stream false hmode hout, streamRun_inverts, streamRun_length]

/-! ### CIP_ZEROIZE (R203, R215, R216) -/

/-- The device with what zeroization by an alarm writes in the status registers of the cipher block. -/
def zeroizedStatus (d : Dev) (alarm : Nat) : Dev :=
  ((((if d.cip.loading then d.set F.CIP_SHARE_RES_result 8 else d).set F.CIP_STAT_keys_loaded 0).set F.CIP_STAT_zeroized 1).set
    F.CIP_STAT_repl_loaded 0).set F.CIP_STAT_last_alarm alarm

/-- Beyond the status registers zeroization counts itself and records an event. -/
theorem zeroize_get (d : Dev) (alarm : Nat) {f : Field} (hf : ∀ e ∈ F.CIP_zeroizations :: eventRegs, f.key ≠ e.key) :
    (d.zeroize alarm).get f = (zeroizedStatus d alarm).get f := by
  obtain ⟨hcount, hevent⟩ := List.forall_mem_cons.1 hf
  rw [Dev.zeroize, (raise_get _ _ _).1, get_event_ne _ _ _ _ hevent, get_bump_ne _ _ hcount, zeroizedStatus]
  split <;> rfl

theorem zeroize_keysGone (d : Dev) (alarm : Nat) : (d.zeroize alarm).keysGone := by
  have hloaded : (d.zeroize alarm).get F.CIP_STAT_keys_loaded = 0 := by
    rw [zeroize_get d alarm (by decide)]
    simp (disch := decide) only [zeroizedStatus, get_set_ne, get_set_self]
    rfl
  have hzeroized : (d.zeroize alarm).get F.CIP_STAT_zeroized = 1 := by
    rw [zeroize_get d alarm (by decide)]
    simp (disch := decide) only [zeroizedStatus, get_set_ne, get_set_self]
    rfl
  simp only [Dev.keysGone, zeroize_cip, hloaded, hzeroized, and_self]

theorem zeroize_lastAlarm (d : Dev) {alarm : Nat} (h : alarm < 2 ^ 4) : (d.zeroize alarm).get F.CIP_STAT_last_alarm = alarm := by
  rw [zeroize_get d alarm (by decide), zeroizedStatus, get_set_self]
  exact Nat.mod_eq_of_lt h

/-- None of the other status registers zeroization writes is the result of a load. -/
theorem zeroize_result (d : Dev) (alarm : Nat) : (d.zeroize alarm).get F.CIP_SHARE_RES_result =
    if d.cip.loading then 8 else d.get F.CIP_SHARE_RES_result := by
  rw [zeroize_get d alarm (by decide)]
  simp (disch := decide) only [zeroizedStatus, get_set_ne]
  split
  · rw [get_set_self]
    rfl
  · rfl

theorem zeroize_raises (d : Dev) (alarm : Nat) : Tab.has 8 (d.zeroize alarm).int.set = true := by
  rw [Dev.zeroize, raise_int, Tab.has, intRaise, find_put_self]
  rfl

/-- Settles O32: the pulse is zeroization with alarm cause 8; its effect on the cipher block, on the registers and on the rest of the
device apart. -/
theorem zeroizePulse : Obligations.ZeroizePulse := by
  unfold Obligations.ZeroizePulse
  intro s htakes
  have hexec : exec .cipZeroize s = s.ends (s.dev.zeroize 8) := run_acts (fun d => d.zeroize 8) htakes
  obtain ⟨hstg, hsnp, hfl, hsim, hpins, hnet, hnv⟩ := zeroize_frame s.dev 8
  have hresult := zeroize_result s.dev 8
  exact ⟨_, hexec, zeroize_keysGone _ _, by rw [zeroize_cip], zeroize_lastAlarm _ (by decide),
    fun hloading => by rw [hresult, if_pos hloading],
    fun hidle => by rw [hresult, if_neg (ne_true_of_eq_false hidle)],
    ⟨hstg, hsnp, hfl⟩, hsim, hpins, hnet, hnv, by rw [zeroize_cip], zeroize_raises _ _⟩

/-! ### SHARE_LOAD (R202) -/

theorem shareBegin_idle {d : Dev} (h : d.cip.loading = false) :
    d.shareBegin = (d.onCip (fun c => { c with loading := true })).set F.CIP_SHARE_RES_result 6 :=
  if_neg (ne_true_of_eq_false h)

theorem shareBegin_busy {d : Dev} (h : d.cip.loading = true) :
    d.shareBegin = (d.bump F.CIP_share_refusals).event 10 .shareRefused [6] := if_pos h

/-- Settles O33: by whether a load is under way. -/
theorem shareLoadBusy : Obligations.ShareLoadBusy := by
  unfold Obligations.ShareLoadBusy
  intro s htakes
  have hexec : exec .shareLoad s = s.ends s.dev.shareBegin := run_acts (fun d => d.shareBegin) htakes
  rw [hexec]
  refine ⟨fun hidle => ?idle, fun hloading => ?busy⟩
  case idle =>
    rw [shareBegin_idle hidle]
    exact ⟨_, rfl, rfl, get_set_self _ _ _, set_regsKept (regsKept_of_regs rfl _) _ 6 List.mem_cons_self⟩
  case busy =>
    rw [shareBegin_busy hloading]
    refine ⟨_, rfl, by simp, ?_, ?_⟩
    · rw [get_event_ne _ _ _ _ (by decide), get_bump_self]
      rfl
    · have hcounted := bump_regsKept (regsKept_of_regs (a := s.dev) rfl (F.CIP_share_refusals :: eventRegs))
        F.CIP_share_refusals 1 List.mem_cons_self
      exact event_regsKept hcounted 10 .shareRefused _ (fun _ h => List.mem_cons_of_mem _ h)

end Sys2Proof.Proofs
end

section
/-! PROOFS. Peer link, arbiter, takeover, alarms and HBM (R215, R238 to R266): what each of their commands ends in. -/
namespace Sys2Proof.Proofs
open Sys2Proof Sys2Proof.Machine Sys2Proof.Laws

/-- Settles O58: the alarms and the fence pin act on any head, every other command on a head in service, a packet of the peer link by
the link's one receiver. -/
theorem peerCommandsComplete : Obligations.PeerCommandsComplete := by
  unfold Obligations.PeerCommandsComplete
  intro s
  have hpeer (c : Instr) : s.run (fun _ d => d.whenUp (fun d => d.peerRx c)) =
      s.ends (if s.dev.up = true then s.dev.peerRx c else s.dev) := run_whenUp s (fun d => d.peerRx c)
  exact
    ⟨fun lookup => run_whenUp s (fun d => d.lookupDefer lookup),
      fun lookup level => run_whenUp s (fun d => d.lookupDone lookup level.val),
      fun _ => rfl,
      fun _ => rfl,
      rfl,
      fun w => run_whenUp s (fun d => d.patrolScrub w),
      fun h b => hpeer (.heartbeat h b),
      fun h lseq => hpeer (.pengenkoNak h lseq),
      fun h upTo => hpeer (.mirrorConfirmation h upTo),
      fun h generation digest ok =>
        run_whenUp s (fun d => (d.peerRx (.imageDigest h generation digest ok)).takeOffered s.fuses),
      fun h payload => hpeer (.selfTestEcho h payload),
      fun h sl => hpeer (.mirrorSlot h sl),
      fun h r => hpeer (.journalOpen h r),
      fun h pool seq => hpeer (.journalClose h pool seq),
      fun h dl => hpeer (.mapDelta h dl),
      fun h q => hpeer (.qpContextState h q),
      fun h w => hpeer (.windowState h w),
      fun h c => hpeer (.cairnState h c),
      fun h l => hpeer (.pendingHolders h l),
      fun h l => hpeer (.retainedCairnList h l),
      fun h c => hpeer (.caravanProgress h c),
      fun h pool position => hpeer (.reshapePosition h pool position),
      fun h ch num strobeNs => hpeer (.channelLastMatched h ch num strobeNs),
      fun h f => hpeer (.fwuState h f),
      run_whenUp s Dev.peerSilent,
      run_whenUp s Dev.heartbeatOut,
      fun lane ok sameHead => run_whenUp s (fun d => d.linkLaneRetrain lane.val ok sameHead),
      rfl,
      rfl,
      fun m => run_whenUp s (fun d => d.verdict m),
      run_whenUp s Dev.claimTimeout,
      run_whenUp s Dev.announceAddresses,
      fun m => run_whenUp s (fun d => d.transferGrant m),
      run_whenUp s Dev.transferDrained,
      run_whenUp s Dev.arbStatus,
      run_whenUp s Dev.verdictReqTimer,
      run_whenUp s Dev.verdictWaitOver,
      fun failed => run_whenUp s (fun d => d.pathCheck failed),
      fun lane die idle => run_whenUp s (fun d => d.dieCheck lane.val die.val idle),
      run_whenUp s Dev.arbBad⟩

end Sys2Proof.Proofs
end

section
/-! PROOFS. The staging cache (R218 to R241): when the dirty budget is reached, when it is left again, and what STG_STAT says of it. -/
namespace Sys2Proof.Proofs
open Sys2Proof Sys2Proof.Machine Sys2Proof.Laws

/-! ### What a judgement of the budget finds (R222) -/

/-- The finding of `Dev.settleReached`: less than 64 MiB of the budget is left, or a judgement before found it reached and less than
128 MiB is left. -/
def budgetFound (d : Dev) : Bool :=
  decide (d.budget < d.dirty + 64 * 2 ^ 20) || (d.stg.budgetReached && d.stg.judged && decide (d.budget < d.dirty + 128 * 2 ^ 20))

theorem budgetFound_of_little_left {d : Dev} (h : d.budget < d.dirty + 64 * 2 ^ 20) : budgetFound d = true := by
  rw [budgetFound, decide_eq_true h, Bool.true_or]

theorem budgetFound_of_enough_left {d : Dev} (h : d.dirty + 128 * 2 ^ 20 ≤ d.budget) : budgetFound d = false := by
  have hlow : ¬ d.budget < d.dirty + 64 * 2 ^ 20 := by omega
  rw [budgetFound, decide_eq_false hlow, decide_eq_false (Nat.not_lt.2 h), Bool.and_false, Bool.or_false]

/-- Between the two thresholds a judgement finds what the one before it found. -/
theorem budgetFound_between {d : Dev} (hlow : d.dirty + 64 * 2 ^ 20 ≤ d.budget) (hhigh : d.budget < d.dirty + 128 * 2 ^ 20)
    (hjudged : d.stg.judged = true) : budgetFound d = d.stg.budgetReached := by
  rw [budgetFound, decide_eq_false (Nat.not_lt.2 hlow), decide_eq_true hhigh, hjudged, Bool.false_or, Bool.and_true, Bool.and_true]

/-! ### What a judgement leaves behind -/

/-- Of staging a judgement changes its finding only: neither the registers nor an event belong to it. -/
theorem settleReached_stg (d : Dev) : d.settleReached.stg = { d.stg with budgetReached := budgetFound d } := by
  simp only [Dev.settleReached, setB_frame, apply_ite Dev.stg, event_frame, raise_frame, ite_self, onStg_stg]
  rfl

/-- A field of one bit holds the bit that is written to it. -/
theorem get_setB_bit (d : Dev) {f : Field} (b : Bool) (h : f.width = 1) : (d.setB f b).get f = b2n b := by
  rw [get_setB_self, h]
  cases b <;> rfl

/-- The events of a judgement, and over_budget, are written after budget_reached and are other fields. -/
theorem settleReached_reachedField (d : Dev) : d.settleReached.get F.STG_STAT_budget_reached = b2n (budgetFound d) := by
  simp (disch := decide) only [Dev.settleReached, get_setB_ne, apply_ite (Dev.get · F.STG_STAT_budget_reached), get_event_ne, raise_get,
    ite_self, get_setB_bit]
  rfl

theorem settleReached_overField (d : Dev) : d.settleReached.get F.STG_STAT_over_budget = b2n (decide (d.budget < d.dirty)) := by
  rw [Dev.settleReached, get_setB_bit _ _ (by decide)]

/-- Settles O34: a judgement of the budget leaves its finding in staging and in budget_reached, and the finding follows the two
thresholds. -/
theorem budgetHysteresis : Obligations.BudgetHysteresis := by
  unfold Obligations.BudgetHysteresis
  intro d
  rw [settleReached_stg, settleReached_reachedField, settleReached_overField]
  exact ⟨budgetFound_of_little_left, budgetFound_of_enough_left, budgetFound_between, rfl, rfl, rfl⟩

end Sys2Proof.Proofs
end

section
/-! PROOFS. The two heads (R244 to R263): what a packet to the peer and a message to the arbiter carry, when a heartbeat goes out, and
what bars a transfer of ownership. -/
namespace Sys2Proof.Proofs
open Sys2Proof Sys2Proof.Machine Sys2Proof.Laws

/-! ### Sending over the Pengenko link (R245, R256) -/

theorem peerSend_linkDown {d : Dev} (p : PeerOut) (hdown : d.on F.HHL_STAT_link_up = false) : d.peerSend p = d := by
  simp [Dev.peerSend, hdown]

/-- A packet goes out under the next link sequence over a link that is up, of a fenced head where it is a control packet. -/
theorem peerSend_passes {d : Dev} {p : PeerOut} (hup : d.on F.HHL_STAT_link_up = true) (hpasses : d.fenced = false ∨ p.cls = 0) :
    (d.peerSend p).head.txLseq = (d.head.txLseq + 1) % 2 ^ 32 ∧
      ∃ (c : Nat) (o : Option Bytes), (d.peerSend p).out = d.out ++ [.peer (d.peerSend p).head.txLseq c p o] := by
  have hopen : ¬ (!d.on F.HHL_STAT_link_up || (d.fenced && p.cls != 0)) = true := by
    rcases hpasses with hfree | hcontrol
    · simp [hup, hfree]
    · simp [hup, hcontrol]
  rw [Dev.peerSend, if_neg hopen]
  cases p <;> exact ⟨rfl, _, _, rfl⟩

/-- Settles O45: a heartbeat is a control packet, so it passes a fenced head as well. -/
theorem heartbeatSays : Obligations.HeartbeatSays := by
  unfold Obligations.HeartbeatSays
  intro s hserved
  have hexec : exec .heartbeatTimer s = s.ends s.dev.heartbeatOut := run_up Dev.heartbeatOut hserved
  rw [hexec]
  refine ⟨fun hdown => congrArg s.ends (peerSend_linkDown _ hdown), fun hup => ⟨s.dev.heartbeatOut, rfl, ?_⟩⟩
  obtain ⟨hseq, c, octets, hout⟩ := peerSend_passes (p := .heartbeat _) hup (.inr rfl)
  exact ⟨hseq, c, _, octets, hout, rfl, rfl, rfl, rfl, rfl⟩

/-! ### Sending to the arbiter (R252) -/

/-- A message carries the next sequence number and the head's present state. -/
theorem arbSend_out (d : Dev) (typ : Nat) (handback : Bool) (reason ackSeq : Nat) :
    ∃ m : ArbMsg, (d.arbSend typ handback reason ackSeq).out = d.out ++ [.arb m (arbOctets m)] ∧ m.typ = typ ∧ m.handback = handback ∧
      m.seq = (d.head.arbSeq + 1) % 2 ^ 32 ∧ m.term = d.head.term ∧ m.head = d.headNo ∧ m.pools = d.ownedMask :=
  ⟨_, rfl, rfl, rfl, rfl, rfl, rfl, rfl⟩

/-- Beside what is put out, sending moves the head's message count alone. -/
theorem arbSend_frame (d : Dev) (typ : Nat) (handback : Bool) (reason ackSeq : Nat) :
    (d.arbSend typ handback reason ackSeq).head = { d.head with arbSeq := (d.head.arbSeq + 1) % 2 ^ 32 } ∧
      (d.arbSend typ handback reason ackSeq).regs = d.regs ∧ d.dataKept (d.arbSend typ handback reason ackSeq) ∧
      (d.arbSend typ handback reason ackSeq).pow = d.pow :=
  ⟨rfl, rfl, ⟨rfl, rfl, rfl⟩, rfl⟩

/-! ### ARB_RELEASE and ARB_HANDBACK (R262) -/

theorem transferBarred_iff (d : Dev) : d.transferBarred = true ↔ d.mode 1 = false ∨ d.head.phase ≠ .none ∨ d.pow.drainGate = true ∨
    d.fenced = true ∨ d.on F.HHL_STAT_peer_in_service = false := by
  simp [Dev.transferBarred, or_assoc]

theorem transferReq_barred {d : Dev} (back : Bool) (h : d.transferBarred = true) :
    d.transferReq back = d.event 13 .transferRefused [b2n back] := if_pos h

theorem transferReq_free {d : Dev} (back : Bool) (h : d.transferBarred = false) : d.transferReq back = d.arbSend 4 back :=
  if_neg (ne_true_of_eq_false h)

/-- Both commands ask for a transfer and differ in the handback flag alone. -/
theorem exec_transferReq {s : State} (htakes : s.dev.takes 13 = true) (back : Bool) :
    exec (if back then .arbHandback else .arbRelease) s = s.ends (s.dev.transferReq back) := by
  have hrun := run_acts (fun d => d.transferReq back) htakes
  cases back <;> exact hrun

/-- Settles O44: by whether anything bars the transfer. -/
theorem transferRequested : Obligations.TransferRequested := by
  unfold Obligations.TransferRequested
  intro s htakes
  refine ⟨fun hrefused => ?refused, fun hmirror hphase hdrain hfence hpeer back => ?sent⟩
  case refused =>
    have hbarred : s.dev.transferBarred = true :=
      (transferBarred_iff s.dev).2 (hrefused.imp_right (Or.imp_right (Or.imp_right .inl)))
    have hends (back : Bool) : exec (if back then .arbHandback else .arbRelease) s =
        s.ends (s.dev.event 13 .transferRefused [b2n back]) := by rw [exec_transferReq htakes, transferReq_barred back hbarred]
    exact ⟨hends false, hends true⟩
  case sent =>
    have hfree : s.dev.transferBarred = false := eq_false_of_ne_true fun hbarred => by
      simp [transferBarred_iff, hmirror, hphase, hdrain, hfence, hpeer] at hbarred
    rw [exec_transferReq htakes, transferReq_free back hfree]
    obtain ⟨m, hout, htyp, hback, hseq, hterm, hhead, hpools⟩ := arbSend_out s.dev 4 back 0 0
    obtain ⟨hsent, hregs, hdata, hpow⟩ := arbSend_frame s.dev 4 back 0 0
    have hcount : (s.dev.arbSend 4 back).head.arbSeq = (s.dev.head.arbSeq + 1) % 2 ^ 32 := by rw [hsent]
    have hterms : (s.dev.arbSend 4 back).head.term = s.dev.head.term := by rw [hsent]
    exact ⟨_, rfl, hcount, hterms, hregs, hdata, hpow, m, hout, htyp, hback, hseq.trans hcount.symm, hterm, hhead, hpools⟩

end Sys2Proof.Proofs
end

section
/-! PROOFS. Parity of a stripe (R273): P is the octet-wise sum of the data members, and a sum with the same members cancels them. -/
namespace Sys2Proof.Proofs
open Sys2Proof Sys2Proof.Machine Sys2Proof.Laws

/-! ### The octet-wise sum -/

@[simp] theorem length_xorBytes (a b : Bytes) : (xorBytes a b).length = min a.length b.length := List.length_zipWith

theorem getElem_xorBytes (a b : Bytes) (i : Nat) (hi : i < (xorBytes a b).length) :
    (xorBytes a b)[i] = a[i]'(by simp at hi; omega) ^^^ b[i]'(by simp at hi; omega) := List.getElem_zipWith

/-- The order of two summands does not matter, whatever their lengths. -/
theorem xorBytes_right_comm (a b c : Bytes) : xorBytes (xorBytes a b) c = xorBytes (xorBytes a c) b := by
  refine List.ext_getElem (by simp only [length_xorBytes]; omega) fun i hi hi' => ?_
  simp only [getElem_xorBytes, BitVec.xor_assoc]
  exact congrArg _ (BitVec.xor_comm _ _)

/-- A summand added twice cancels. -/
theorem xorBytes_xorBytes_self {a b : Bytes} (hlen : b.length = a.length) : xorBytes (xorBytes a b) b = a := by
  refine List.ext_getElem (by simp [hlen]) fun i hi hi' => ?_
  simp only [getElem_xorBytes, BitVec.xor_assoc, BitVec.xor_self, BitVec.xor_zero]

theorem zeros_xorBytes (a : Bytes) : xorBytes (zeros a.length) a = a := by
  refine List.ext_getElem (by simp [zeros]) fun i hi hi' => ?_
  simp only [getElem_xorBytes, zeros, List.getElem_replicate]
  exact BitVec.zero_xor

/-! ### Sums over members of one length -/

/-- The order of the members does not matter to their sum. -/
theorem foldl_xorBytes_perm {l l' : List Bytes} (hperm : l.Perm l') (a : Bytes) : l.foldl xorBytes a = l'.foldl xorBytes a :=
  hperm.foldl_eq' (fun x _ y _ z => xorBytes_right_comm z x y) a

theorem length_foldl_xorBytes {l : List Bytes} {a : Bytes} (hlen : ∀ x ∈ l, x.length = a.length) :
    (l.foldl xorBytes a).length = a.length :=
  List.foldlRecOn (motive := fun b => b.length = a.length) l xorBytes rfl fun b hb x hx => by simp [hb, hlen x hx]

/-- Members added twice cancel: each one meets its second copy, since the order does not matter. -/
theorem foldl_xorBytes_twice {l : List Bytes} {a : Bytes} (hlen : ∀ x ∈ l, x.length = a.length) :
    l.foldl xorBytes (l.foldl xorBytes a) = a := by
  induction l with
  | nil => rfl
  | cons x xs ih =>
    obtain ⟨hx, hxs⟩ := List.forall_mem_cons.1 hlen
    calc (x :: xs).foldl xorBytes ((x :: xs).foldl xorBytes a)
        = xs.foldl xorBytes (xorBytes (xorBytes (xs.foldl xorBytes a) x) x) := by
          rw [foldl_xorBytes_perm (List.perm_append_singleton x xs).symm a, List.foldl_append, List.foldl_cons, List.foldl_cons,
            List.foldl_nil]
      _ = xs.foldl xorBytes (xs.foldl xorBytes a) := by
          rw [xorBytes_xorBytes_self (hx.trans (length_foldl_xorBytes hxs).symm)]
      _ = a := ih hxs

/-! ### P is the sum of the members (R273) -/

/-- What P takes of a member: its octets times g^0, so the octets themselves. -/
theorem map_gfPow_zero (x : Bytes) : x.map (fun b => b8 (gfPow 0 b.toNat)) = x := by
  have hid (b : Byte) : b8 (gfPow 0 b.toNat) = b := BitVec.ofNat_toNat 8 b
  simp [hid]

/-- One step of the sum that makes P: the first member stands alone. -/
def addMember (acc x : Bytes) : Bytes := if acc.isEmpty then x else xorBytes acc x

theorem addMember_nil (x : Bytes) : addMember [] x = x := rfl

theorem addMember_of_ne_nil {acc : Bytes} (x : Bytes) (hacc : acc ≠ []) : addMember acc x = xorBytes acc x :=
  if_neg (by simpa using hacc)

theorem parityBytes_zero (l : List Bytes) : parityBytes 0 l = l.foldl addMember [] := by
  have hmembers : ((List.range l.length).zip l).map Prod.snd = l := List.map_snd_zip (by simp)
  calc parityBytes 0 l
      = ((List.range l.length).zip l).foldl (fun acc m => addMember acc m.2) [] := by
        simp only [parityBytes, Nat.zero_mul, map_gfPow_zero, addMember]
    _ = (((List.range l.length).zip l).map Prod.snd).foldl addMember [] := List.foldl_map.symm
    _ = l.foldl addMember [] := by rw [hmembers]

theorem foldl_addMember_of_ne_nil {l : List Bytes} {acc : Bytes} (hacc : acc ≠ []) (hlen : ∀ x ∈ l, x.length = acc.length) :
    l.foldl addMember acc = l.foldl xorBytes acc := by
  induction l generalizing acc with
  | nil => rfl
  | cons x xs ih =>
    obtain ⟨hx, hxs⟩ := List.forall_mem_cons.1 hlen
    have hsum : (xorBytes acc x).length = acc.length := by simp [hx]
    rw [List.foldl_cons, List.foldl_cons, addMember_of_ne_nil x hacc]
    exact ih (List.ne_nil_of_length_pos (hsum ▸ List.length_pos_iff.2 hacc)) fun y hy => (hxs y hy).trans hsum.symm

/-- P of members of one length, at least one octet, is their sum from zeros. -/
theorem parityBytes_zero_eq_foldl {l : List Bytes} {n : Nat} (hl : l ≠ []) (hn : n ≠ 0) (hlen : ∀ x ∈ l, x.length = n) :
    parityBytes 0 l = l.foldl xorBytes (zeros n) := by
  rw [parityBytes_zero]
  cases l with
  | nil => exact absurd rfl hl
  | cons x xs =>
    obtain ⟨rfl, hxs⟩ := List.forall_mem_cons.1 hlen
    rw [List.foldl_cons, List.foldl_cons, addMember_nil, zeros_xorBytes]
    exact foldl_addMember_of_ne_nil (mt (congrArg List.length) hn) hxs

/-- Settles O35: P with the missing member's summand moved to the front is that member plus all the others, and the others cancel. -/
theorem parityRepairs : Obligations.ParityRepairs := by
  unfold Obligations.ParityRepairs
  intro before after m hlen hm
  have hfront : (before ++ [m] ++ after).Perm (m :: (before ++ after)) := by simp
  have hcons : ∀ x ∈ m :: (before ++ after), x.length = m.length := List.forall_mem_cons.2 ⟨rfl, hlen⟩
  have hall : ∀ x ∈ before ++ [m] ++ after, x.length = m.length := fun x hx => hcons x (hfront.mem_iff.1 hx)
  have hparity : parityBytes 0 (before ++ [m] ++ after) = (before ++ after).foldl xorBytes m :=
    calc parityBytes 0 (before ++ [m] ++ after)
        = (before ++ [m] ++ after).foldl xorBytes (zeros m.length) :=
          parityBytes_zero_eq_foldl (by simp) (mt List.length_eq_zero_iff.1 hm) hall
      _ = (m :: (before ++ after)).foldl xorBytes (zeros m.length) :=
          foldl_xorBytes_perm hfront _
      _ = (before ++ after).foldl xorBytes m := by rw [List.foldl_cons, zeros_xorBytes]
  rw [hparity, foldl_xorBytes_twice hlen]

end Sys2Proof.Proofs
end

section
/-! PROOFS. Commands, the queue and the fuses (R423, R424, R442, R449): the one form in which every command ends, and from it what a
step takes of the queue, that a run drains it in order, and which commands may burn fuses. -/
namespace Sys2Proof.Proofs
open Sys2Proof Sys2Proof.Machine Sys2Proof.Laws

/-! ### How a command ends -/

/-- The fuses as a command leaves them: the eight commands named may burn some (R442, R449), every other one burns none. -/
def burnedBy (fu : Fuses) (d : Dev) : Instr → Fuses
  | .regWrite a => barFuses fu d a
  | .regWrite64Half off val | .bitAliasWrite off val | .scWriteBack off val => barFuses fu d { off := off, len := 4, val := val }
  | .programOwner source => if d.takes 21 then fusePulses fu d 1 source else fu
  | .programKfuse source => if d.takes 21 then fusePulses fu d 2 source else fu
  | .mgmtRegWrite h payload => mgmtWriteFuses fu d h payload
  | .trialPassed => trialFuses fu d
  | _ => fu

/-- Every command ends in a next state, with its fuses and some effect on the device. -/
theorem exec_ends (c : Instr) (s : State) : ∃ d : Dev, exec c s = s.endsF (burnedBy s.fuses s.dev c) d := by
  cases c <;> exact ⟨_, rfl⟩

theorem exec_next {c : Instr} {s t : State} (h : exec c s = .next t) :
    t.fuses = burnedBy s.fuses s.dev c ∧ t.pending = s.pending := by
  obtain ⟨d, hends⟩ := exec_ends c s
  obtain ⟨hfuses, hqueue, -⟩ := endsF_inj (hends.symm.trans h)
  exact ⟨hfuses, hqueue⟩

/-- Settles O3: the form in which every command ends is a next state with the queue of before. -/
theorem everyCommandAnswers : Obligations.EveryCommandAnswers := by
  unfold Obligations.EveryCommandAnswers
  intro c s
  obtain ⟨d, hends⟩ := exec_ends c s
  exact ⟨_, hends, rfl⟩

/-! ### The queue -/

/-- Settles O1: a step on a queue that is not empty is `exec` on its rest. -/
theorem stepTakesFront : Obligations.StepTakesFront := by
  unfold Obligations.StepTakesFront
  exact fun c rest s hqueue => step_cons hqueue

/-- Settles O4, by induction on the commands in front: the first one's step leaves the others in front, and does the same whatever
waits behind it. -/
theorem queueDrains : Obligations.QueueDrains := by
  unfold Obligations.QueueDrains
  intro s front back hqueue
  induction front generalizing s with
  | nil =>
    have hsame : { s with pending := back } = s := by rw [← List.nil_append back, ← hqueue]
    exact ⟨s, rfl, hqueue, congrArg _ hsame.symm⟩
  | cons c rest ih =>
    obtain ⟨u, hu, hleft⟩ := everyCommandAnswers c { s with pending := rest ++ back }
    obtain ⟨t, hreach, hback, htaken⟩ := ih u hleft
    have hfirst : exec c { s with pending := back } = .next { u with pending := back } := by
      rw [exec_queue c { s with pending := rest ++ back } back, hu]
    refine ⟨t, reaches_succ ((step_cons hqueue).trans hu) hreach, hback, ?_⟩
    rw [List.foldl_cons]
    exact htaken.trans (congrArg (fun o => List.foldl _ o rest) hfirst.symm)

/-! ### Fuses (R442, R449) -/

theorem burnedBy_kept (fu : Fuses) (d : Dev) (c : Instr) : fu.kept (burnedBy fu d c) := by
  unfold burnedBy
  split
  · exact barFuses_kept _ _ _
  · exact barFuses_kept _ _ _
  · exact barFuses_kept _ _ _
  · exact barFuses_kept _ _ _
  · exact ite_kept (fusePulses_kept _ _ _ _) (kept_refl _)
  · exact ite_kept (fusePulses_kept _ _ _ _) (kept_refl _)
  · exact mgmtFuses_kept _ _ _ _
  · exact trialFuses_kept _ _
  · exact kept_refl _

/-- Settles O5: an idle step leaves the fuses alone, and what a command burns keeps what was burned before. -/
theorem fusesKeptByStep : Obligations.FusesKeptByStep := by
  unfold Obligations.FusesKeptByStep
  intro made s t hmade hstep
  refine kept_trans hmade ?_
  cases hqueue : s.pending with
  | nil =>
    rw [step_nil hqueue] at hstep
    rw [← Host.Outcome.next.inj hstep, idle_fuses]
    exact kept_refl _
  | cons c rest =>
    rw [step_cons hqueue] at hstep
    rw [(exec_next hstep).1]
    exact burnedBy_kept _ _ c

/-- Settles O6: any fuses keep themselves, and the two fields that can be burned are blank. -/
theorem fusesKeptAtReset : Obligations.FusesKeptAtReset := by
  unfold Obligations.FusesKeptAtReset
  exact ⟨kept_refl _, rfl, rfl⟩

/-- Settles O7: for a command that is none of the eight, `burnedBy` leaves the fuses; the idle step runs no command. -/
theorem fusesOnlyBy : Obligations.FusesOnlyBy := by
  unfold Obligations.FusesOnlyBy
  refine ⟨fun c s t hexec hwrite hhalf halias hback howner hkfuse hmgmt htrial => ?_, fun s t hqueue hstep => ?_⟩
  · rw [(exec_next hexec).1]
    unfold burnedBy
    split
    · exact absurd rfl (hwrite _)
    · exact absurd rfl (hhalf _ _)
    · exact absurd rfl (halias _ _)
    · exact absurd rfl (hback _ _)
    · exact absurd rfl (howner _)
    · exact absurd rfl (hkfuse _)
    · exact absurd rfl (hmgmt _ _)
    · exact absurd rfl htrial
    · rfl
  · rw [step_nil hqueue] at hstep
    rw [← Host.Outcome.next.inj hstep, idle_fuses]

end Sys2Proof.Proofs
end

section
/-! PROOFS. Register accesses and actions, the flash side, and power (R318 to R356, R387 to R424, R445): what each of their commands ends
in. -/
namespace Sys2Proof.Proofs
open Sys2Proof Sys2Proof.Machine Sys2Proof.Laws

/-- What a register's action ends in, whether its block takes writes or not. -/
theorem run_taken (s : State) (b : Nat) (f : Dev → Dev) :
    s.run (fun _ d => d.acts b f) = s.ends (if s.dev.takes b = true then f s.dev else s.dev) := rfl

/-- The same of an action that reads the fuses. -/
theorem run_takenWithFuses (s : State) (b : Nat) (f : Fuses → Dev → Dev) :
    s.run (fun fu d => d.acts b (f fu)) = s.ends (if s.dev.takes b = true then f s.fuses s.dev else s.dev) := rfl

/-- What a command that reads the fuses and that only a head in service runs ends in. -/
theorem run_whenUpWithFuses (s : State) (f : Fuses → Dev → Dev) :
    s.run (fun fu d => d.whenUp (f fu)) = s.ends (if s.dev.up = true then f s.fuses s.dev else s.dev) := rfl

/-- Settles O52: a register access is its operation on fuses and device, an action its operation where its block takes writes. -/
theorem registerCommandsComplete : Obligations.RegisterCommandsComplete := by
  unfold Obligations.RegisterCommandsComplete
  intro s
  exact
    ⟨fun _ => rfl,
      fun _ _ _ => rfl,
      fun _ _ => rfl,
      fun _ _ => rfl,
      fun _ _ => rfl,
      fun val => run_takenWithFuses s 0 (fun fu d => d.writeReg fu 0 F.SYS_MODE_REQ_capture.off (val % 2 ^ 32)),
      run_taken s 0 Dev.reshapeCancel,
      fun region => run_taken s 22 (fun d => d.simSubmit region),
      run_whenUpWithFuses s Dev.validationDone,
      fun ok => run_whenUp s (fun d => d.stagedWritten ok),
      fun stateWordOk => run_taken s 22 (fun d => d.simActivate stateWordOk),
      run_whenUp s Dev.activationWait,
      run_taken s 22 Dev.simDiscard,
      fun ch amount => run_taken s 4 (fun d => d.slotAdj ch.val amount),
      fun ch => run_taken s 4 (fun d => d.histClear ch.val),
      run_taken s 5 Dev.secSetApply,
      run_taken s 7 Dev.qpToError,
      run_taken s 7 Dev.winRevoke,
      run_taken s 7 Dev.winReopen,
      run_taken s 10 (fun d => d.zeroize 8),
      run_taken s 10 Dev.shareBegin,
      fun data fault => run_whenUpWithFuses s (fun fu d => d.shareDone fu data fault),
      fun enable => run_taken s 11 (fun d => d.scEnable enable),
      run_taken s 11 Dev.scInvalidate,
      run_taken s 11 Dev.scWriteback,
      run_whenUp s Dev.scWritebackDone,
      run_taken s 13 (fun d => d.transferReq false),
      run_taken s 13 (fun d => d.transferReq true),
      fun lane => run_taken s 16 (fun d => d.trainLane lane.val)⟩

/-- Settles O53: beside actions on blocks that take writes there are the ends of flash and fetch operations, which every head runs. -/
theorem controlCommandsComplete : Obligations.ControlCommandsComplete := by
  unfold Obligations.ControlCommandsComplete
  intro s
  exact
    ⟨run_taken s 15 Dev.snpRetain,
      run_taken s 15 Dev.snpRelease,
      run_taken s 15 Dev.skipLost,
      run_taken s 15 Dev.carRestart,
      run_taken s 15 Dev.carFull,
      run_taken s 1 Dev.warmPulse,
      run_taken s 1 Dev.l3Request,
      run_taken s 0 Dev.cfgCommit,
      run_taken s 0 Dev.cfgAcceptAll,
      run_taken s 0 Dev.cfgReapply,
      fun data => run_takenWithFuses s 21 (fun fu d => d.fwuChunk fu data),
      fun _ => rfl,
      run_takenWithFuses s 21 Dev.fwuCommit,
      run_takenWithFuses s 21 Dev.fwuAbort,
      fun _ => rfl,
      fun _ => rfl,
      run_taken s 18 Dev.evrFlush,
      fun key => run_taken s 18 (fun d => d.evrClear key),
      rfl,
      fun index => run_taken s 18 (fun d => d.evrIndex index),
      rfl,
      fun counter val => run_taken s 19 (fun d => d.cntSelect counter.val val),
      run_taken s 19 Dev.cntClear,
      run_taken s 20 Dev.trcClear,
      fun ring tail fetched => run_taken s 9 (fun d => d.sqTail false ring.val tail fetched),
      fun ring head fetched => run_taken s 9 (fun d => d.cqHead false ring.val head fetched),
      fun ring val => run_takenWithFuses s 9 (fun fu d => d.writeReg fu 9 (F.RED_RING_CFG_enable.at ring.val).off (val % 2 ^ 32)),
      fun ring tail fetched => run_taken s 10 (fun d => d.sqTail true ring.val tail fetched),
      fun ring head fetched => run_taken s 10 (fun d => d.cqHead true ring.val head fetched),
      fun ring val => run_takenWithFuses s 10 (fun fu d => d.writeReg fu 10 (F.CIP_RING_CFG_enable.at ring.val).off (val % 2 ^ 32))⟩

/-- Settles O59: each command's meaning is its operation on a head in service. -/
theorem flashCommandsComplete : Obligations.FlashCommandsComplete := by
  unfold Obligations.FlashCommandsComplete
  intro s
  exact
    ⟨fun f => run_whenUp s (fun d => d.vrelenFrame f),
      fun lane => run_whenUp s (fun d => d.fillerFrame lane.val),
      fun lane => run_whenUp s (fun d => d.fillerDue lane.val),
      fun lane => run_whenUp s (fun d => d.trainLane lane.val),
      fun lane => run_whenUp s (fun d => d.frameAckTimeout lane.val),
      fun lane onePair => run_whenUp s (fun d => d.trainingLimit lane.val onePair),
      fun c => run_whenUp s (fun d => d.configFlit c),
      fun lane => run_whenUp s (fun d => d.laneRetry lane.val),
      fun r dec => run_whenUp s (fun d => d.readResponse r dec),
      fun r => run_whenUp s (fun d => d.programResponse r),
      fun r => run_whenUp s (fun d => d.eraseResponse r),
      fun r => run_whenUp s (fun d => d.suspendResponse r),
      fun r => run_whenUp s (fun d => d.resumeResponse r),
      fun r => run_whenUp s (fun d => d.statusResponse r),
      fun r => run_whenUp s (fun d => d.resetDieResponse r),
      fun r => run_whenUp s (fun d => d.plainResponse r .setThresh),
      fun r => run_whenUp s (fun d => d.plainResponse r .setTrim),
      fun r => run_whenUp s (fun d => d.claimResponse r),
      fun r b => run_whenUp s (fun d => d.bridgeStatusResponse r b),
      fun r same => run_whenUp s (fun d => d.loopbackResponse r same),
      fun lane tag => run_whenUp s (fun d => d.commandTimeout lane.val tag),
      run_whenUp s Dev.bridgePoll,
      fun lane die => run_whenUp s (fun d => d.starvedErase lane.val die.val),
      fun lane die group level reads => run_whenUp s (fun d => d.thresholdSample lane.val die.val group level reads)⟩

/-- Settles O60: resets, pins, clocks and alarms act on any head, the rest on a head in service. -/
theorem powerCommandsComplete : Obligations.PowerCommandsComplete := by
  unfold Obligations.PowerCommandsComplete
  intro s
  exact
    ⟨fun mode seconds => run_whenUp s (fun d => d.stalled mode.val seconds),
      run_whenUp s Dev.watchdogOne,
      rfl,
      fun e => run_whenUp s (fun d => d.engineHang e),
      fun upset => run_whenUp s (fun d => d.cfgSweep upset),
      fun _ => rfl,
      fun _ => rfl,
      fun _ => rfl,
      rfl,
      fun _ _ => rfl,
      rfl,
      rfl,
      rfl,
      rfl,
      fun p => run_whenUp s (fun d => d.psEntry p),
      rfl,
      fun _ _ => rfl,
      fun t => run_whenUp s (fun d => d.remoteTemps t),
      rfl,
      fun _ => rfl,
      fun _ => rfl,
      fun _ => rfl,
      rfl,
      rfl,
      rfl,
      rfl,
      fun _ _ => rfl,
      rfl,
      fun ok => run_whenUp s (fun d => d.lifeFigureWrite ok),
      fun _ => rfl,
      rfl,
      rfl⟩

end Sys2Proof.Proofs
end

section
/-! PROOFS. Registers of special kinds (R426, R427, R429, R434): the halves of a 64-bit register, the status register with its set
numbers and messages, and what software's change of a configuration field marks. -/
namespace Sys2Proof.Proofs
open Sys2Proof Sys2Proof.Machine Sys2Proof.Laws

/-! ### 64-bit registers (R429) -/

theorem del_put_self {α : Type} (k : Nat) (v : α) (t : Tab α) : Tab.del k (Tab.put k v t) = Tab.del k t := by
  induction t with
  | nil => simp [Tab.put, Tab.del]
  | cons e t ih =>
    obtain ⟨j, u⟩ := e
    simp only [Tab.put]
    split
    · simp [Tab.del]
    · split
      next hkey => simp [Tab.del, hkey]
      next hkey => simpa [Tab.del, Ne.symm hkey] using ih

/-- The device with a low word held for a block. -/
def lowHeld (d : Dev) (b off lo : Nat) : Dev := { d with heldLow := Tab.put b (off, lo) d.heldLow }

theorem heldAt_lowHeld (d : Dev) (b off lo : Nat) : (lowHeld d b off lo).heldAt b off = some lo := by
  simp [Dev.heldAt, lowHeld, find_put_self]

theorem unheld_lowHeld (d : Dev) (b off lo : Nat) : (lowHeld d b off lo).unheld b = d.unheld b := by
  simp [Dev.unheld, lowHeld, del_put_self]

theorem not_unusedBase_le {off : Nat} (hoff : off < aliasBase) : ¬ unusedBase ≤ off := by
  simp only [aliasBase, unusedBase] at hoff ⊢
  omega

section
variable {fu : Fuses} {d : Dev} {b off : Nat} (hblock : blockOf off = b) (htakes : d.takes b = true)
include hblock htakes

theorem writeDword_low (lo : Nat) (h8 : b ≠ 8) (hoff : off < aliasBase) (hwide : wideAt b off = true) :
    d.writeDword fu off lo = lowHeld d b off lo := by
  subst hblock
  simp [Dev.writeDword, not_unusedBase_le hoff, Nat.not_le.2 hoff, htakes, h8, hwide, lowHeld]

/-- The high word takes effect with the low word held for the register, or with the one present, and holds no low word any longer. -/
theorem writeDword_high {low : Nat} (hi : Nat) (h8 : b ≠ 8) (hlow : off = low + 4) (hoff : off < aliasBase)
    (hwide : wideAt b low = true) (hplain : wideAt b off = false) :
    d.writeDword fu off hi = (if (d.heldAt b low).isSome then d.unheld b else d).writeReg fu b low
      ((d.heldAt b low).getD (d.mapDword fu b low) + hi * 2 ^ 32) := by
  subst hblock
  have hsub : off - 4 = low := by omega
  have hfour : 4 ≤ off := by omega
  simp [Dev.writeDword, not_unusedBase_le hoff, Nat.not_le.2 hoff, htakes, h8, hplain, hsub, hfour, hwide]

theorem writeQword_wide (v : Nat) (hoff : off < aliasBase) (hwide : wideAt b off = true) :
    d.writeQword fu off v = (if (d.heldAt b off).isSome then d.unheld b else d).writeReg fu b off v := by
  subst hblock
  simp [Dev.writeQword, hoff, htakes, hwide]

end

/-- Settles O12: a low word is held, a high word looks for it, and a qword write needs none. -/
theorem wideWriteHeld : Obligations.WideWriteHeld := by
  unfold Obligations.WideWriteHeld
  intro fu d b off lo hi hoff hblock hblock4 h8 htakes hwide hplain
  have hlow : d.writeDword fu off lo = lowHeld d b off lo := writeDword_low hblock htakes lo h8 (by omega) hwide
  have hhigh (x : Dev) (hx : x.takes b = true) := writeDword_high (fu := fu) hblock4 hx hi h8 rfl hoff hwide hplain
  refine ⟨hlow, ?_, fun hnone => ?_, writeQword_wide hblock htakes _ (by omega) hwide⟩
  · rw [hlow, hhigh (lowHeld d b off lo) htakes, heldAt_lowHeld, unheld_lowHeld]
    rfl
  · rw [hhigh d htakes, hnone]
    rfl

/-! ### Bits of a number -/

theorem tb_eq_testBit (n i : Nat) : tb n i = n.testBit i := by
  rw [tb, Nat.testBit_eq_decide_div_mod_eq, Nat.shiftRight_eq_div_pow, beq_eq_decide]

/-! ### The status register (R426) -/

theorem wf_filter {α : Type} (p : Nat × α → Bool) {t : Tab α} (hwf : Tab.wf t = true) : Tab.wf (t.filter p) = true := by
  rw [wf_iff] at hwf ⊢
  exact hwf.filter p

/-- In a table each key stands once, so what is filtered out is not found further on. -/
theorem find_filter {α : Type} (p : Nat × α → Bool) {t : Tab α} (hwf : Tab.wf t = true) (k : Nat) :
    Tab.find? k (t.filter p) = (Tab.find? k t).filter (fun v => p (k, v)) := by
  rw [wf_iff] at hwf
  induction t with
  | nil => rfl
  | cons e t ih =>
    obtain ⟨j, v⟩ := e
    obtain ⟨hleast, htail⟩ := List.pairwise_cons.1 hwf
    have hrest := ih htail
    by_cases hkey : j = k
    · subst hkey
      have hlater : Tab.find? j t = none := find_lt hleast
      cases hp : p (j, v) <;> simp [hp, Tab.find?, hrest, hlater, Option.filter]
    · cases hp : p (j, v) <;> simp [hp, Tab.find?, hkey, hrest]

/-- The status bits of the register's value, without its sequence number. -/
def statusBits (st : IntState) : Nat := ((st.set.map (·.1)).map (2 ^ ·)).sum

theorem value_eq (st : IntState) : st.value = 2 ^ 20 * st.seq + statusBits st := by
  rw [IntState.value, statusBits, List.sum_eq_foldl, List.foldl_map, List.foldl_map, Nat.add_comm, Nat.mul_comm]

theorem has_iff_mem_keys {α : Type} (k : Nat) (t : Tab α) : Tab.has k t = true ↔ k ∈ t.map (·.1) := by
  induction t with
  | nil => simp [Tab.has]
  | cons e t ih =>
    obtain ⟨j, v⟩ := e
    by_cases hkey : j = k
    · simp [Tab.has, Tab.find?, hkey]
    · simpa [Tab.has, Tab.find?, hkey, Ne.symm hkey] using ih

/-- The status bits stand in rising order, so they are the bits of their sum. -/
theorem testBit_statusBits {st : IntState} (hwf : Tab.wf st.set = true) (b : Nat) : (statusBits st).testBit b = Tab.has b st.set := by
  have hsorted : (st.set.map (·.1)).SortedLT := (List.pairwise_map.2 ((wf_iff _).1 hwf)).sortedLT
  rw [Bool.eq_iff_iff, has_iff_mem_keys, ← Nat.mem_bitIndices, statusBits, Nat.bitIndices_sum_map_two_pow hsorted]

theorem statusBits_lt {st : IntState} (hwf : Tab.wf st.set = true) (hkeys : ∀ e ∈ st.set, e.1 < 20) : statusBits st < 2 ^ 20 := by
  refine Nat.lt_pow_two_of_testBit _ fun i hi => ?_
  rw [testBit_statusBits hwf, ← Bool.not_eq_true, has_iff_mem_keys, List.mem_map]
  rintro ⟨e, he, rfl⟩
  exact Nat.not_le_of_lt (hkeys e he) hi

theorem bits_value_seq {st : IntState} (hlt : statusBits st < 2 ^ 20) : bits st.value 31 20 = st.seq % 4096 := by
  rw [bits, Nat.shiftRight_eq_div_pow, value_eq, Nat.mul_add_div (by decide), Nat.div_eq_of_lt hlt, Nat.add_zero]
  rfl

theorem tb_value {st : IntState} {b : Nat} (hwf : Tab.wf st.set = true) (hlt : statusBits st < 2 ^ 20) (hb : b < 20) :
    tb st.value b = Tab.has b st.set := by
  rw [tb_eq_testBit, value_eq, Nat.testBit_two_pow_mul_add _ hlt, if_pos hb, testBit_statusBits hwf]

/-- A write-back on the register alone, before a message that it may send. -/
def writtenBack (d : Dev) (v : Nat) : Dev := { d with int := intWriteBack d.int (bits v 31 20) (bits v 19 0) }

/-- After a write-back a message is due where an enabled bit is still set. -/
theorem scWrite_eq (d : Dev) (v : Nat) : d.scWrite v =
    if (writtenBack d v).int.set.any (fun e => d.intEnabled e.1) then (writtenBack d v).message (d.get F.SYS_INT_CFG_vector)
    else writtenBack d v := rfl

@[simp] theorem scWrite_int (d : Dev) (v : Nat) : (d.scWrite v).int = (writtenBack d v).int := by
  rw [scWrite_eq]
  split
  · simp
  · rfl

@[simp] theorem scWrite_regs (d : Dev) (v : Nat) : (d.scWrite v).regs = d.regs := by
  rw [scWrite_eq]
  split
  · exact (message_frame _ _).1
  · rfl

/-- SYS_INT_STAT is one dword of the SYS block. -/
theorem intStat_plain : blockOf F.SYS_INT_STAT_seq.off = 0 ∧ wideAt 0 F.SYS_INT_STAT_seq.off = false ∧
    wideAt 0 (F.SYS_INT_STAT_seq.off - 4) = false ∧ (fieldsAt 0 F.SYS_INT_STAT_seq.off).isEmpty = false := by decide +kernel

theorem writeDword_intStat {d : Dev} (fu : Fuses) (v : Nat) (htakes : d.takes 0 = true) :
    d.writeDword fu F.SYS_INT_STAT_seq.off v = d.scWrite v := by
  obtain ⟨hblock, hnarrow, hbelow, hmapped⟩ := intStat_plain
  have hoff : F.SYS_INT_STAT_seq.off < aliasBase := by decide
  simp [Dev.writeDword, not_unusedBase_le hoff, Nat.not_le.2 hoff, hblock, htakes, hnarrow, hbelow, hmapped, Dev.writeReg]

/-- A dword write at a dword's place is of an accepted shape. -/
theorem barWrite_dword {fu : Fuses} {d : Dev} {off : Nat} (v : Nat) (hplace : off % 4 = 0) (hbar : off < 0x1000000) :
    d.barWrite fu { off := off, len := 4, val := v } = d.writeDword fu off (v % 2 ^ 32) := by
  simp [Dev.barWrite, writeShape, hplace, Nat.not_le.2 hbar]

/-- FWU_FUSE alone reaches the fuses (R449). -/
theorem barFuses_other {fu : Fuses} {d : Dev} {off : Nat} (len v : Nat) (hoff : off ≠ F.FWU_FUSE_program_owner.off) :
    barFuses fu d { off := off, len := len, val := v } = fu := by
  simp [barFuses, fuseWrite, hoff]

theorem exec_scWriteBack {s : State} (v : Nat) (htakes : s.dev.takes 0 = true) :
    exec (.scWriteBack F.SYS_INT_STAT_seq.off v) s = s.ends (s.dev.scWrite (v % 2 ^ 32)) := by
  show s.endsF (barFuses s.fuses s.dev _) (s.dev.barWrite s.fuses _) = _
  rw [barFuses_other _ _ (by decide), barWrite_dword _ (by decide) (by decide), writeDword_intStat _ _ htakes]
  rfl

/-- Settles O13: the register's own operations clause by clause, then the command's way to them. -/
theorem statusRegister : Obligations.StatusRegister := by
  unfold Obligations.StatusRegister
  refine ⟨fun st b => ⟨rfl, find_put_self _ _ _, fun c hc => find_put_ne hc _ _, wf_put _ _ _⟩,
    fun st v m hwf => ⟨rfl, wf_filter _ hwf, find_filter _ hwf⟩, fun st hwf hkeys => ?_,
    fun d v => ⟨scWrite_int d v, scWrite_regs d v⟩, fun s v => exec_scWriteBack v⟩
  have hlt : statusBits st < 2 ^ 20 := statusBits_lt hwf hkeys
  exact ⟨bits_value_seq hlt, fun b hb => tb_value hwf hlt hb⟩

/-! ### Messages of the status register (R427) -/

theorem message_unmasked {d : Dev} {v : Nat} (h : d.msix.masked v = false) :
    (d.message v).out = d.out ++ [.msix v] ∧ (d.message v).msix = d.msix := by simp [Dev.message, h]

theorem message_masked {d : Dev} {v : Nat} (h : d.msix.masked v = true) :
    (d.message v).out = d.out ∧ (d.message v).msix = d.msix.pend v := by simp [Dev.message, h]

/-- Pending again changes nothing, so in both cases the vector stands in the pending bits. -/
theorem pend_leaves (m : MsixState) (v : Nat) : v ∈ (m.pend v).pending ∧ (m.pend v).table = m.table := by
  unfold MsixState.pend
  split
  case isTrue hpending => exact ⟨List.contains_iff_mem.1 hpending, rfl⟩
  case isFalse => exact ⟨List.mem_cons_self, rfl⟩

/-- A condition sends what a message sends, where an enabled bit rises. -/
theorem raise_sends {d : Dev} {b : Nat} (hon : d.intEnabled b = true) (hclear : Tab.has b d.int.set = false) :
    (d.raise b).out = (d.message (d.get F.SYS_INT_CFG_vector)).out ∧
      (d.raise b).msix = (d.message (d.get F.SYS_INT_CFG_vector)).msix := by
  cases hmask : d.msix.masked (d.get F.SYS_INT_CFG_vector) <;> simp [Dev.raise, Dev.message, hon, hclear, hmask]

theorem raise_silent {d : Dev} {b : Nat} (h : ¬ (d.intEnabled b = true ∧ Tab.has b d.int.set = false)) :
    (d.raise b).out = d.out ∧ (d.raise b).msix = d.msix := by
  have hno : (d.intEnabled b && !Tab.has b d.int.set) = false := by
    rw [← Bool.not_eq_true, Bool.and_eq_true, Bool.not_eq_true']
    exact h
  simp [Dev.raise, hno]

/-- Settles O14: a condition and a write-back each send as `Dev.message` does or nothing, and that sends or sets the pending bit. -/
theorem statusMessages : Obligations.StatusMessages := by
  unfold Obligations.StatusMessages
  refine ⟨fun d b => ?condition, fun d v => ?writeBack, fun d v => ⟨message_unmasked, fun hmask => ?masked⟩⟩
  case condition =>
    dsimp only
    split
    case isTrue hrises =>
      obtain ⟨hout, hmsix⟩ := raise_sends hrises.1 hrises.2
      rw [hout, hmsix]
    case isFalse hno =>
      obtain ⟨hout, hmsix⟩ := raise_silent hno
      rw [hout, hmsix]
  case writeBack =>
    have hdue : (writtenBack d v).int.set.any (fun e => d.intEnabled e.1) = true ↔
        ∃ e ∈ (d.scWrite v).int.set, d.intEnabled e.1 = true := by rw [scWrite_int, List.any_eq_true]
    dsimp only
    split
    case isTrue hset =>
      rw [scWrite_eq, if_pos (hdue.2 hset)]
      rfl
    case isFalse hno =>
      rw [scWrite_eq, if_neg (mt hdue.1 hno)]
      rfl
  case masked =>
    obtain ⟨hout, hmsix⟩ := message_masked hmask
    rw [hmsix]
    exact ⟨hout, pend_leaves _ _⟩

/-! ### Software's change of a class-C field (R434) -/

/-- Marking a block as touched adds its bit to the field, which has one for every block, where it is not there already. -/
theorem tb_touch (d : Dev) {block : Nat} (hblock : block < 23) :
    tb ((d.touch block).get F.SYS_CFG_TOUCHED_blocks) block = true := by
  unfold Dev.touch
  extract_lets m
  split
  case isTrue hthere => exact hthere
  case isFalse hnew =>
    rw [tb_eq_testBit, Bool.not_eq_true] at hnew
    have hwidth : F.SYS_CFG_TOUCHED_blocks.width = 23 := rfl
    rw [get_set_self, tb_eq_testBit, hwidth, Nat.testBit_mod_two_pow, Nat.add_comm, Nat.testBit_two_pow_add_eq, hnew]
    simpa using hblock

theorem softC_changes {d : Dev} {f : Field} {v : Nat} (h : d.get f ≠ v % 2 ^ f.width) : d.softC f v = (d.set f v).touch f.block :=
  if_neg h

theorem touch_regsKept (d : Dev) (block : Nat) : d.regsKept (d.touch block) [F.SYS_CFG_TOUCHED_blocks] :=
  fun _ hg => get_touch_ne d block (hg _ List.mem_cons_self)

theorem softC_regsKept (d : Dev) (f : Field) (v : Nat) : d.regsKept (d.softC f v) [f, F.SYS_CFG_TOUCHED_blocks] := by
  unfold Dev.softC
  split
  · exact regsKept_of_regs rfl _
  · exact regsKept_trans (set_regsKept (regsKept_of_regs rfl _) f v List.mem_cons_self)
      (regsKept_mono (touch_regsKept _ _) (List.subset_cons_self f [F.SYS_CFG_TOUCHED_blocks]))

/-- Settles O15: a write of the value held is no change; another value is stored, and then the block is marked. -/
theorem softwareChangeTouches : Obligations.SoftwareChangeTouches := by
  unfold Obligations.SoftwareChangeTouches
  intro d f v hkey hblock
  refine ⟨fun hsame => if_pos hsame, fun hother => ⟨get_softC_self d f v hkey, ?_⟩, softC_regsKept d f v⟩
  rw [softC_changes hother]
  exact tb_touch _ hblock

end Sys2Proof.Proofs
end

section
/-! PROOFS. The event area, the event counters and trace (R453 to R459): what clearing the area leaves, which counters count an event,
what the trace buffer keeps of the packets offered to it. -/
namespace Sys2Proof.Proofs
open Sys2Proof Sys2Proof.Machine Sys2Proof.Laws

/-! ### EVR_CLEAR (R453) -/

/-- Settles O17: by whether the pulse carries the key. -/
theorem eventAreaClear : Obligations.EventAreaClear := by
  unfold Obligations.EventAreaClear
  intro s key htakes
  have hexec : exec (.evrClear key) s = s.ends (s.dev.evrClear key) := run_acts (fun d => d.evrClear key) htakes
  rw [hexec, Dev.evrClear]
  refine ⟨fun hkey => ?_, fun hother => by rw [if_pos hother]⟩
  rw [if_neg (not_not.2 hkey)]
  exact ⟨_, rfl, rfl, rfl, rfl, rfl, rfl, rfl⟩

/-! ### Event counters (R454, R458) -/

theorem cntAdd_val (c : CntState) (rs : List (Nat × Nat)) (source inst n : Nat) {i : Nat} (hi : i < 256) :
    (cntAdd c rs source inst n).val.getD i 0 =
      if (bits (c.sel.getD i 0xFF0000) 10 0 = source &&
          (bits (c.sel.getD i 0xFF0000) 23 16 = 0xFF || bits (c.sel.getD i 0xFF0000) 23 16 = inst) && !frozenCnt rs i) = true
      then (c.val.getD i 0 + n) % 2 ^ 64 else c.val.getD i 0 := by
  rw [cntAdd, List.getD_eq_getElem _ _ (by simpa using hi), List.getElem_map, List.getElem_range]

/-- Settles O18: the new values stand in the order of the counters, each by its own selection. -/
theorem countersCount : Obligations.CountersCount := by
  unfold Obligations.CountersCount
  intro c rs source inst n i hi
  refine ⟨rfl, (cntAdd_val c rs source inst n hi).trans ?_⟩
  simp only [Bool.and_eq_true, Bool.or_eq_true, decide_eq_true_eq, Bool.not_eq_true', and_assoc]

/-! ### The trace buffer (R455) -/

theorem trcPush_room {t : TrcState} (stop : Bool) (p : TrcPacket) (h : t.held.length < 131072) :
    trcPush t stop p = { t with held := t.held ++ [p], stopped := stop && t.held.length + 1 == 131072 } := if_pos h

theorem trcPush_full {t : TrcState} (stop : Bool) (p : TrcPacket) (h : 131072 ≤ t.held.length) :
    trcPush t stop p = { t with held := t.held.tail ++ [p] } := by rw [trcPush, if_neg (Nat.not_lt.2 h), List.drop_one]

/-- A packet that is pushed changes what is held and whether the buffer has stopped, and is the newest one held. -/
theorem trcPush_counts (t : TrcState) (stop : Bool) (p : TrcPacket) :
    (trcPush t stop p).lost = t.lost ∧ (trcPush t stop p).owed = t.owed ∧ (trcPush t stop p).held.getLast? = some p := by
  unfold trcPush
  split <;> simp

theorem trcPush_length {t : TrcState} (stop : Bool) (p : TrcPacket) (h : t.held.length ≤ 131072) :
    (trcPush t stop p).held.length ≤ 131072 := by
  by_cases hroom : t.held.length < 131072
  · rw [trcPush_room stop p hroom, List.length_append]
    exact hroom
  · rw [trcPush_full stop p (Nat.not_lt.1 hroom), List.length_append, List.length_tail, List.length_singleton]
    omega

/-- The loss marker that goes before a packet. -/
def lossMarker (t : TrcState) (p : TrcPacket) : TrcPacket :=
  { timeNs := p.timeNs, kind := 15, block := 20, inst := 0, data := t.owed % 2 ^ 32 }

theorem trcOffer_busy {t : TrcState} (stop : Bool) (p : TrcPacket) (h : Config.traceBusy t.offered = true) :
    trcOffer t stop p = ({ t with offered := t.offered + 1, lost := (t.lost + 1) % 2 ^ 64, owed := t.owed + 1 }, []) := if_pos h

theorem trcOffer_sent {t : TrcState} (stop : Bool) (p : TrcPacket) (h : Config.traceBusy t.offered = false) (howed : t.owed = 0) :
    trcOffer t stop p = (trcPush { t with offered := t.offered + 1 } stop p, [p]) :=
  (if_neg (ne_true_of_eq_false h)).trans (if_pos howed)

/-- A packet behind lost ones goes after their marker, unless the buffer has stopped at the marker. -/
theorem trcOffer_marked {t : TrcState} (stop : Bool) (p : TrcPacket) (h : Config.traceBusy t.offered = false) (howed : t.owed ≠ 0) :
    let v := trcPush { t with offered := t.offered + 1, owed := 0 } stop (lossMarker t p)
    trcOffer t stop p = if v.stopped then (v, [lossMarker t p]) else (trcPush v stop p, [lossMarker t p, p]) :=
  (if_neg (ne_true_of_eq_false h)).trans (if_neg howed)

/-- A packet that is not dropped leaves the count of lost ones, settles what is owed, and goes out, behind a marker where some was. -/
theorem trcOffer_free {t : TrcState} (stop : Bool) (p : TrcPacket) (h : Config.traceBusy t.offered = false) :
    (trcOffer t stop p).1.lost = t.lost ∧ (trcOffer t stop p).1.owed = 0 ∧
      (t.owed = 0 ∧ (trcOffer t stop p).2 = [p] ∨
        t.owed ≠ 0 ∧ ∃ rest, (trcOffer t stop p).2 = lossMarker t p :: rest ∧ (rest = [] ∨ rest = [p])) := by
  by_cases howed : t.owed = 0
  case pos =>
    obtain ⟨hlost, hnext, -⟩ := trcPush_counts { t with offered := t.offered + 1 } stop p
    rw [trcOffer_sent stop p h howed]
    exact ⟨hlost, hnext.trans howed, .inl ⟨howed, rfl⟩⟩
  case neg =>
    have hmarked := trcOffer_marked stop p h howed
    extract_lets v at hmarked
    obtain ⟨hlost, hnext, -⟩ : v.lost = t.lost ∧ v.owed = 0 ∧ _ := trcPush_counts _ stop (lossMarker t p)
    obtain ⟨hlost', hnext', -⟩ := trcPush_counts v stop p
    rw [hmarked]
    split
    · exact ⟨hlost, hnext, .inr ⟨howed, [], rfl, .inl rfl⟩⟩
    · exact ⟨hlost'.trans hlost, hnext'.trans hnext, .inr ⟨howed, [p], rfl, .inr rfl⟩⟩

/-- Settles O19: the buffer by the room it has left, an offer by whether the packet is dropped and whether one before it was, the clear
by its definition. -/
theorem traceBuffer : Obligations.TraceBuffer := by
  unfold Obligations.TraceBuffer
  refine ⟨fun t stop p hlen => ?buffer, fun t stop p => ?offer,
    fun s htakes => ⟨s.dev.trcClear, run_acts Dev.trcClear htakes, rfl, rfl, rfl, rfl⟩⟩
  case buffer =>
    refine ⟨trcPush_length stop p hlen, (trcPush_counts t stop p).2.2, fun hroom => ?_, fun hlast => ?_, fun hfull => ?_⟩
    · rw [trcPush_room stop p hroom]
    · rw [trcPush_room stop p (by omega), hlast]
      exact Bool.and_true stop
    · rw [trcPush_full stop p (by omega)]
  case offer =>
    cases hbusy : Config.traceBusy t.offered with
    | true =>
      rw [trcOffer_busy stop p hbusy]
      exact ⟨rfl, rfl, by simp, fun _ _ hsent => nomatch hsent⟩
    | false =>
      obtain ⟨hlost, hnext, ⟨howed, hsent⟩ | ⟨howed, rest, hsent, hrest⟩⟩ := trcOffer_free stop p hbusy
      · simp only [hsent, if_pos howed]
        exact ⟨hlost, hnext, by simp, fun m rest h => by cases h; exact ⟨rfl, rfl⟩⟩
      · simp only [hsent, if_neg howed]
        exact ⟨hlost, hnext, by simp, fun m rest' h => by cases h; exact ⟨rfl, rfl, rfl, hrest⟩⟩

end Sys2Proof.Proofs
end

section
/-! PROOFS. Retention of Cairns and the wear placement loop (R307, R308, R374): what SNP_RETAIN and SNP_RELEASE answer, and what becomes
of a pool's V. -/
namespace Sys2Proof.Proofs
open Sys2Proof Sys2Proof.Machine Sys2Proof.Laws

/-! ### SNP_RETAIN and SNP_RELEASE (R307, R308) -/

/-- The namespace that SNP_NS_SEL selects. -/
def selNs (d : Dev) : Nat := d.get F.SNP_NS_SEL_nsid
/-- The Cairn that SNP_RET_CAIRN names. -/
def selCairn (d : Dev) : Nat := d.get F.SNP_RET_CAIRN_cairn

/-- The selected Cairn is retained already and not about to be released. -/
def alreadyHeld (d : Dev) : Bool :=
  (d.ns (selNs d)).retained.contains (selCairn d) && !(d.ns (selNs d)).releasing.contains (selCairn d)

/-- The selected Cairn is not the latest closed one of a namespace of this head. -/
def notLatest (d : Dev) : Prop :=
  selCairn d = 0 ∨ selCairn d ≠ (d.ns (selNs d)).closed ∨ d.owns (d.poolOf (selNs d)) = false

theorem snpRetain_held {d : Dev} (h : alreadyHeld d = true) : d.snpRetain = d.set F.SNP_RET_CTL_result 1 := if_pos h

/-- Past the Cairns already held, the answer is 3, 2, or 1 with an effect of its own. -/
theorem snpRetain_new {d : Dev} (h : alreadyHeld d = false) : ∃ e : Dev, d.snpRetain =
    if selCairn d = 0 ∨ selCairn d ≠ (d.ns (selNs d)).closed ∨ !d.owns (d.poolOf (selNs d)) then d.set F.SNP_RET_CTL_result 3
    else if d.retainFull (selNs d) then d.set F.SNP_RET_CTL_result 2 else e.set F.SNP_RET_CTL_result 1 :=
  ⟨_, if_neg (ne_true_of_eq_false h)⟩

theorem snpRetain_unavailable {d : Dev} (h : alreadyHeld d = false) (hbad : notLatest d) :
    d.snpRetain = d.set F.SNP_RET_CTL_result 3 := by
  obtain ⟨e, hnew⟩ := snpRetain_new h
  rw [hnew, if_pos (by simpa [notLatest] using hbad)]

theorem latest_of {d : Dev} (hpos : selCairn d ≠ 0) (hlast : selCairn d = (d.ns (selNs d)).closed)
    (howns : d.owns (d.poolOf (selNs d)) = true) : ¬ notLatest d := by
  rintro (hzero | hother | hforeign)
  · exact hpos hzero
  · exact hother hlast
  · exact Bool.false_ne_true (hforeign.symm.trans howns)

theorem snpRetain_full {d : Dev} (h : alreadyHeld d = false) (hgood : ¬ notLatest d) (hfull : d.retainFull (selNs d) = true) :
    d.snpRetain = d.set F.SNP_RET_CTL_result 2 := by
  obtain ⟨e, hnew⟩ := snpRetain_new h
  rw [hnew, if_neg (by simpa [notLatest] using hgood), if_pos hfull]

theorem get_snpRetain_room {d : Dev} (h : alreadyHeld d = false) (hgood : ¬ notLatest d) (hroom : d.retainFull (selNs d) = false) :
    d.snpRetain.get F.SNP_RET_CTL_result = 1 := by
  obtain ⟨e, hnew⟩ := snpRetain_new h
  rw [hnew, if_neg (by simpa [notLatest] using hgood), if_neg (ne_true_of_eq_false hroom), get_set_self]
  rfl

theorem snpRelease_absent {d : Dev} (h : (d.ns (selNs d)).retained.contains (selCairn d) = false) :
    d.snpRelease = d.set F.SNP_RET_CTL_result 3 := if_pos (by rw [Bool.not_eq_true']; exact h)

section
variable {d : Dev} (hkept : (d.ns (selNs d)).retained.contains (selCairn d) = true)
include hkept

/-- A retained Cairn is let go unless a Caravan holds it. -/
theorem snpRelease_kept : d.snpRelease =
    if d.heldByCaravan (selNs d) (selCairn d) then d.set F.SNP_RET_CTL_result 4
    else (d.onNs (selNs d) (fun x => x.letGo (selCairn d))).set F.SNP_RET_CTL_result 1 :=
  if_neg (by rw [Bool.not_eq_true', Bool.not_eq_false]; exact hkept)

theorem snpRelease_caravan (h : d.heldByCaravan (selNs d) (selCairn d) = true) : d.snpRelease = d.set F.SNP_RET_CTL_result 4 := by
  rw [snpRelease_kept hkept, if_pos h]

theorem snpRelease_free (h : d.heldByCaravan (selNs d) (selCairn d) = false) :
    d.snpRelease = (d.onNs (selNs d) (fun x => x.letGo (selCairn d))).set F.SNP_RET_CTL_result 1 := by
  rw [snpRelease_kept hkept, if_neg (ne_true_of_eq_false h)]

end

/-- Settles O37: each pulse by the tests it makes, in their order. -/
theorem retainResults : Obligations.RetainResults := by
  unfold Obligations.RetainResults
  intro s htakes
  refine ⟨⟨_, run_acts Dev.snpRetain htakes, snpRetain_held, snpRetain_unavailable,
      fun hnew hpos hlast howns => snpRetain_full hnew (latest_of hpos hlast howns),
      fun hnew hpos hlast howns => get_snpRetain_room hnew (latest_of hpos hlast howns)⟩,
    ⟨_, run_acts Dev.snpRelease htakes, snpRelease_absent, snpRelease_caravan, fun hkept hfree => ?_⟩⟩
  rw [snpRelease_free hkept hfree]
  exact ⟨get_set_self _ _ _, ns_onNs_self _ _ _, fun m hm => ns_onNs_ne _ _ hm,
    set_regsKept (regsKept_of_regs rfl _) _ 1 List.mem_cons_self, rfl, rfl⟩

/-! ### The wear placement loop (R374) -/

/-- The spread of wear over a pool's blocks. -/
def wearSpread (d : Dev) (p : PoolRec) : Nat := (d.pool p.poolId).peMax - (d.pool p.poolId).peMin (d.poolGood p)

theorem wlZoneOf_wide {limit spread : Nat} (h : limit * 3 < spread * 4) : wlZoneOf limit spread = 2 := by
  rw [wlZoneOf, if_neg (by omega), if_pos h]

theorem wlZoneOf_narrow {limit spread : Nat} (h : spread * 4 < limit) : wlZoneOf limit spread = 0 := if_pos h

theorem wlZoneOf_between {limit spread : Nat} (hlow : limit ≤ spread * 4) (hhigh : spread * 4 ≤ limit * 3) :
    wlZoneOf limit spread = 1 := by
  rw [wlZoneOf, if_neg (by omega), if_neg (by omega)]

/-- A number brought within the loop's bounds. -/
def withinLoop (d : Dev) (v : Nat) : Int := min (d.loopUpper 3) (max (d.loopLower 3) (Int.ofNat v))

/-- V of a pool that the loop has judged in auto: halved as the spread enters zone 2, doubled as it enters zone 0, else the same. -/
theorem wlV_wearLoop {d : Dev} {p : PoolRec} (hauto : d.loopPinned 3 = false) : ((d.wearLoop p).pool p.poolId).wlV =
    let z := wlZoneOf (d.get F.FTL_CFG_wl_spread) (wearSpread d p)
    if z = 2 ∧ (d.pool p.poolId).wlZone ≠ 2 then (withinLoop d ((d.pool p.poolId).wlV / 2)).toNat
    else if z = 0 ∧ (d.pool p.poolId).wlZone ≠ 0 then (withinLoop d ((d.pool p.poolId).wlV * 2)).toNat
    else (d.pool p.poolId).wlV := by
  rw [Dev.wearLoop, pool_onPool_self]
  simp only [hauto, Bool.false_eq_true, if_false]
  rfl

section
variable {d : Dev} (hlow : 0 ≤ d.loopLower 3) (hbounds : d.loopLower 3 ≤ d.loopUpper 3)
include hlow hbounds

/-- The loop's bounds are no negative numbers, so V takes the bounded number as it is. -/
theorem toNat_withinLoop (v : Nat) : ((withinLoop d v).toNat : Int) = withinLoop d v :=
  Int.toNat_of_nonneg (le_min (hlow.trans hbounds) (hlow.trans (le_max_left _ _)))

theorem withinLoop_bounds (v : Nat) :
    d.loopLower 3 ≤ ((withinLoop d v).toNat : Int) ∧ ((withinLoop d v).toNat : Int) ≤ d.loopUpper 3 := by
  rw [toNat_withinLoop hlow hbounds]
  exact ⟨le_min hbounds (le_max_left _ _), min_le_left _ _⟩

end

/-- Settles O38: by the zone that the spread has entered. -/
theorem wearLoopSteps : Obligations.WearLoopSteps := by
  unfold Obligations.WearLoopSteps
  intro d p hauto hlow hbounds
  refine ⟨fun hwide hwas => ?halved, fun hnarrow hwas => ?doubled, fun hge hle => ?same, fun hge hle => ?bounded,
    fun r hr => pool_onPool_ne _ _ hr, rfl⟩
  case halved =>
    rw [wlV_wearLoop hauto, wearSpread, wlZoneOf_wide hwide]
    simp only [true_and, if_pos hwas]
    exact toNat_withinLoop hlow hbounds _
  case doubled =>
    rw [wlV_wearLoop hauto, wearSpread, wlZoneOf_narrow hnarrow]
    simp only [true_and, if_pos hwas]
    exact toNat_withinLoop hlow hbounds _
  case same =>
    rw [wlV_wearLoop hauto, wearSpread, wlZoneOf_between hge hle]
    rfl
  case bounded =>
    rw [wlV_wearLoop hauto]
    dsimp only
    split
    · exact withinLoop_bounds hlow hbounds _
    · split
      · exact withinLoop_bounds hlow hbounds _
      · exact ⟨hge, hle⟩

end Sys2Proof.Proofs
end

section
/-! PROOFS. Lanes, bridges and dies (R318 to R356, R396): a frame out of order, a command without its credits, the band of a temperature,
and the duty of programs. -/
namespace Sys2Proof.Proofs
open Sys2Proof Sys2Proof.Machine Sys2Proof.Laws

/-! ### Frames (R322) -/

theorem frameBad_again {d : Dev} {l : Nat} (h : (d.lane l).naked = true) : d.frameBad l = d := if_pos h

theorem frameBad_first {d : Dev} {l : Nat} (h : (d.lane l).naked = false) :
    d.frameBad l = (d.onLane l (fun x => { x with naked := true })).emit (.laneAck l (d.lane l).rxFseq true) :=
  if_neg (ne_true_of_eq_false h)

theorem vrelenFrame_bad {d : Dev} {f : FrameFlit} (hactive : (d.lane f.lane.val).active = true)
    (hbad : f.crcOk = false ∨ f.fseq ≠ (d.lane f.lane.val).rxFseq) : d.vrelenFrame f = d.frameBad f.lane.val := by
  have hreject : (!f.crcOk || f.fseq != (d.lane f.lane.val).rxFseq) = true := by simpa using hbad
  exact (if_neg (by simp [hactive])).trans (if_pos hreject)

/-- Settles O39: a bad frame is discarded, with a nak where the gap has had none yet. -/
theorem frameOutOfOrder : Obligations.FrameOutOfOrder := by
  unfold Obligations.FrameOutOfOrder
  intro s f hup hactive hbad
  have hexec : exec (.vrelenFrame f) s = s.ends (s.dev.frameBad f.lane.val) := by
    rw [← vrelenFrame_bad hactive hbad]
    exact run_up (fun d => d.vrelenFrame f) hup
  rw [hexec]
  exact ⟨fun hagain => congrArg s.ends (frameBad_again hagain), fun hfirst => congrArg s.ends (frameBad_first hfirst)⟩

/-! ### Credits (R324) -/

/-- What a program's data take of the data credits covers them. -/
theorem length_le_dataUnits (data : Bytes) : data.length ≤ 1024 * dataUnits .program data := by
  rw [dataUnits, if_pos rfl]
  omega

theorem canSend_noCommandCredit {x : Lane} (op : BOp) (data : Bytes) (h : x.cmdCredits = 0) : x.canSend op data = false := by
  simp [Lane.canSend, h]

theorem canSend_noDataCredit {x : Lane} {data : Bytes} (h : 1024 * x.dataCredits < data.length) : x.canSend .program data = false := by
  have hshort : ¬ dataUnits .program data ≤ x.dataCredits := fun hle =>
    Nat.not_lt.2 ((length_le_dataUnits data).trans (Nat.mul_le_mul_left 1024 hle)) h
  simp [Lane.canSend, hshort]

theorem bridgeSend_waits {d : Dev} {lane : Nat} {c : BCmd} {data : Bytes}
    (h : (d.lane lane).held ≠ [] ∨ (d.lane lane).canSend c.op data = false) :
    d.bridgeSend lane c data = d.onLane lane (fun x => { x with held := x.held ++ [{ c with data := data }] }) :=
  if_neg (by simpa [List.isEmpty_iff, ← imp_iff_not_or] using h)

/-- Settles O40: whichever of the three holds the command back, it joins the end of those held. -/
theorem creditsGateCommands : Obligations.CreditsGateCommands := by
  unfold Obligations.CreditsGateCommands
  intro d lane c data hgate
  have hwaits : (d.lane lane).held ≠ [] ∨ (d.lane lane).canSend c.op data = false := by
    rcases hgate with hcmd | ⟨hprogram, hdata⟩ | hheld
    · exact .inr (canSend_noCommandCredit _ _ hcmd)
    · exact .inr (hprogram ▸ canSend_noDataCredit hdata)
    · exact .inl hheld
  rw [bridgeSend_waits hwaits, lane_onLane_self]
  exact ⟨rfl, rfl, rfl⟩

/-! ### Temperature bands (R352) -/

/-- The temperature from which a die is at least in a band. -/
def bandFrom (b : Nat) : Int := if b = 0 then -300 else if b = 1 then 0 else if b = 2 then 25 else if b = 3 then 70 else 85

/-- The highest band whose threshold a temperature reaches. -/
def bandReached (t : Int) : Nat :=
  (if 0 ≤ t then 1 else 0) + (if 25 ≤ t then 1 else 0) + (if 70 ≤ t then 1 else 0) + (if 85 ≤ t then 1 else 0)

theorem bandReached_le (t : Int) : bandReached t ≤ 4 := by
  unfold bandReached
  split_ifs <;> decide

theorem le_bandReached_iff {b : Nat} (t : Int) (hb : 1 ≤ b) (hb4 : b ≤ 4) : b ≤ bandReached t ↔ bandFrom b ≤ t := by
  unfold bandReached bandFrom
  split_ifs <;> omega

/-- In whole degrees, less than 3 °C below a threshold is 2 °C below it or nearer. -/
theorem bandOf_eq (was : Nat) (t : Int) : bandOf was t =
    if was < bandReached t then bandReached t else if bandReached (t + 2) < was then bandReached (t + 2) else was := by
  have h0 : -3 < t ↔ 0 ≤ t + 2 := by omega
  have h25 : 22 < t ↔ 25 ≤ t + 2 := by omega
  have h70 : 67 < t ↔ 70 ≤ t + 2 := by omega
  have h85 : 82 < t ↔ 85 ≤ t + 2 := by omega
  have hdown : (if -3 < t then 1 else 0) + (if 22 < t then 1 else 0) + (if 67 < t then 1 else 0) + (if 82 < t then 1 else 0) =
      bandReached (t + 2) := by
    rw [bandReached, if_congr h0 rfl rfl, if_congr h25 rfl rfl, if_congr h70 rfl rfl, if_congr h85 rfl rfl]
  rw [← hdown]
  rfl

/-- A die rises into the band reached, falls into the one reached within 2 °C, or stays. -/
theorem bandOf_cases (was : Nat) (t : Int) : (was < bandReached t ∧ bandOf was t = bandReached t) ∨
    (bandReached t ≤ was ∧ bandReached (t + 2) < was ∧ bandOf was t = bandReached (t + 2)) ∨
    (bandReached t ≤ was ∧ was ≤ bandReached (t + 2) ∧ bandOf was t = was) := by
  rw [bandOf_eq]
  split_ifs <;> omega

theorem bandOf_le {was : Nat} (t : Int) (hwas : was ≤ 4) : bandOf was t ≤ 4 := by
  have hup := bandReached_le t
  have hdown := bandReached_le (t + 2)
  have hcases := bandOf_cases was t
  omega

theorem le_bandOf_of_reached {was b : Nat} {t : Int} (hb : b ≤ 4) (habove : was < b) (hreach : bandFrom b ≤ t) :
    b ≤ bandOf was t := by
  have hup : b ≤ bandReached t := (le_bandReached_iff t (by omega) hb).2 hreach
  have hcases := bandOf_cases was t
  omega

theorem bandFrom_le_of_rise {was : Nat} {t : Int} (hrise : was < bandOf was t) : bandFrom (bandOf was t) ≤ t := by
  have hup : bandOf was t = bandReached t := by
    have hcases := bandOf_cases was t
    omega
  rw [hup] at hrise ⊢
  exact (le_bandReached_iff t (by omega) (bandReached_le t)).1 (Nat.le_refl _)

theorem le_bandFrom_of_fall {was : Nat} {t : Int} (hwas : was ≤ 4) (hfall : bandOf was t < was) :
    t ≤ bandFrom (bandOf was t + 1) - 3 := by
  have hdown : bandOf was t = bandReached (t + 2) := by
    have hcases := bandOf_cases was t
    omega
  rw [hdown] at hfall ⊢
  have hnext := le_bandReached_iff (t + 2) (Nat.le_add_left 1 (bandReached (t + 2))) (by omega)
  omega

theorem le_bandOf_of_held {was : Nat} {t : Int} (hwas : was ≤ 4) (hone : 1 ≤ was) (hheld : bandFrom was - 3 < t) :
    was ≤ bandOf was t := by
  have hdown : was ≤ bandReached (t + 2) := (le_bandReached_iff (t + 2) hone hwas).2 (by omega)
  have hcases := bandOf_cases was t
  omega

/-- Settles O42: the statement's thresholds are `bandFrom`. -/
theorem bandHysteresis : Obligations.BandHysteresis := by
  unfold Obligations.BandHysteresis
  exact fun was t hwas => ⟨bandOf_le t hwas, fun b => le_bandOf_of_reached, bandFrom_le_of_rise, le_bandFrom_of_fall hwas,
    le_bandOf_of_held hwas⟩

/-! ### Program duty (R396) -/

theorem dutyAt_cool (lower upper : Int) {t : Int} (h : t ≤ 80) : dutyAt lower upper t = upper := if_pos h

theorem dutyAt_hot (lower upper : Int) {t : Int} (h : 90 ≤ t) : dutyAt lower upper t = lower := by
  rw [dutyAt, if_neg (by omega), if_pos h]

theorem dutyAt_between (lower upper : Int) {t : Int} (hcool : 80 < t) (hhot : t < 90) :
    dutyAt lower upper t = upper - (upper - lower) * (t - 80) / 10 := by
  rw [dutyAt, if_neg (by omega), if_neg (by omega)]

section
variable {lower upper : Int} (hbounds : lower ≤ upper)
include hbounds

theorem dutyAt_bounds (t : Int) : lower ≤ dutyAt lower upper t ∧ dutyAt lower upper t ≤ upper := by
  have hspan : 0 ≤ upper - lower := Int.sub_nonneg_of_le hbounds
  by_cases hcool : t ≤ 80
  · rw [dutyAt_cool _ _ hcool]
    exact ⟨hbounds, Int.le_refl _⟩
  by_cases hhot : 90 ≤ t
  · rw [dutyAt_hot _ _ hhot]
    exact ⟨Int.le_refl _, hbounds⟩
  rw [dutyAt_between _ _ (by omega) (by omega)]
  have hpos : 0 ≤ (upper - lower) * (t - 80) := Int.mul_nonneg hspan (by omega)
  have hlt : (upper - lower) * (t - 80) ≤ (upper - lower) * 10 := Int.mul_le_mul_of_nonneg_left (by omega) hspan
  omega

/-- Between 80 and 90 °C what is taken from the upper bound rises with the temperature; outside, the duty is at a bound. -/
theorem dutyAt_antitone {t u : Int} (h : t ≤ u) : dutyAt lower upper u ≤ dutyAt lower upper t := by
  by_cases hcool : t ≤ 80
  · rw [dutyAt_cool _ _ hcool]
    exact (dutyAt_bounds hbounds u).2
  by_cases hhot : 90 ≤ u
  · rw [dutyAt_hot _ _ hhot]
    exact (dutyAt_bounds hbounds t).1
  rw [dutyAt_between _ _ (by omega) (by omega), dutyAt_between _ _ (by omega) (by omega)]
  have hspan : 0 ≤ upper - lower := Int.sub_nonneg_of_le hbounds
  have hmono : (upper - lower) * (t - 80) ≤ (upper - lower) * (u - 80) := Int.mul_le_mul_of_nonneg_left (by omega) hspan
  omega

end

/-- Settles O43: the two flat parts, the bounds, and the fall between. -/
theorem dutyCurve : Obligations.DutyCurve := by
  unfold Obligations.DutyCurve
  intro lower upper t u hbounds
  obtain ⟨hlow, hhigh⟩ := dutyAt_bounds hbounds t
  exact ⟨dutyAt_cool lower upper, dutyAt_hot lower upper, hlow, hhigh, dutyAt_antitone hbounds⟩

end Sys2Proof.Proofs
end

section
/-! PROOFS. Loss of power, one-time fuses, firmware trials, serdes, and the head number (R407, R414, R442 to R449, R462, R466). -/
namespace Sys2Proof.Proofs
open Sys2Proof Sys2Proof.Machine Sys2Proof.Laws

/-! ### PWR_FAIL_N (R407, R414) -/

/-- The device once PWR_FAIL_N has been low for 200 ns: the pin, its counter and the interrupt. -/
def powerFailed (d : Dev) : Dev := ((d.onPins (fun p => { p with pwrFailN := false })).bump F.RST_pwr_fail_events).raise 7

theorem powerFailed_frame (d : Dev) : (powerFailed d).pow = d.pow ∧ d.dataKept (powerFailed d) ∧
    d.regsKept (powerFailed d) [F.RST_pwr_fail_events] :=
  ⟨rfl, ⟨rfl, rfl, rfl⟩, regsKept_trans (bump_regsKept (regsKept_of_regs rfl _) _ 1 List.mem_cons_self)
    (regsKept_of_regs (raise_frame _ _).1 _)⟩

theorem pwrFailFall_glitch {d : Dev} {lowNs : Nat} (fate : DrainFate) (h : lowNs < 200) :
    d.pwrFailFall lowNs fate = d.bump F.RST_pwr_fail_glitches := if_pos h

theorem pwrFailFall_fails {d : Dev} {lowNs : Nat} (fate : DrainFate) (h : 200 ≤ lowNs) :
    d.pwrFailFall lowNs fate = (powerFailed d).drainOrPark fate := if_neg (Nat.not_lt.2 h)

/-- A head that parks with nothing to drain. -/
def parked (d : Dev) : Dev := (d.onPow (fun p => { p with run := .parked })).onPins (fun p => { p with arbHb := false })

theorem parked_frame (d : Dev) : (parked d).pow = { d.pow with run := .parked } ∧ d.dataKept (parked d) ∧ (parked d).regs = d.regs :=
  ⟨rfl, ⟨rfl, rfl, rfl⟩, rfl⟩

theorem drainOrPark_up {d : Dev} (fate : DrainFate) (h : d.pow.run = .up) : d.drainOrPark fate = d.wadiDrain fate := by
  rw [Dev.drainOrPark, h]

theorem drainOrPark_idle {d : Dev} (fate : DrainFate) (h : d.pow.run = .rom ∨ d.pow.run = .latched) : d.drainOrPark fate = parked d := by
  rcases h with h | h <;> simp only [Dev.drainOrPark, h] <;> rfl

theorem drainOrPark_stopped {d : Dev} (fate : DrainFate) (h : d.pow.run = .off ∨ d.pow.run = .parked) : d.drainOrPark fate = d := by
  rcases h with h | h <;> simp only [Dev.drainOrPark, h]

/-- Whatever its fate, a drain ends parked, with its record kept and drain_state 4. -/
theorem wadiDrain_ends (d : Dev) (fate : DrainFate) : (d.wadiDrain fate).pow.run = .parked ∧
    (d.wadiDrain fate).pow.drain.isSome = true ∧ (d.wadiDrain fate).get F.RST_STAT_drain_state = 4 :=
  ⟨rfl, rfl, get_set_self _ _ _⟩

/-- Settles O47: by the length of the pulse, and from 200 ns on by the run state, which the pin and its counter leave alone. -/
theorem powerFailPulse : Obligations.PowerFailPulse := by
  unfold Obligations.PowerFailPulse
  intro s lowNs fate
  have hexec : exec (.pwrFailNFall lowNs fate) s = s.ends (s.dev.pwrFailFall lowNs fate) := rfl
  obtain ⟨hpow, hdata, hregs⟩ := powerFailed_frame s.dev
  rw [hexec]
  refine ⟨fun hshort => by rw [pwrFailFall_glitch fate hshort], fun hlong => ⟨_, rfl, fun hup => ?up, fun hidle => ?idle,
    fun hstopped => ?stopped⟩⟩
  case up =>
    rw [pwrFailFall_fails fate hlong, drainOrPark_up fate (by rwa [hpow])]
    exact wadiDrain_ends _ fate
  case idle =>
    rw [pwrFailFall_fails fate hlong, drainOrPark_idle fate (by rwa [hpow])]
    obtain ⟨hparkPow, hparkData, hparkRegs⟩ := parked_frame (powerFailed s.dev)
    rw [hparkPow, hpow]
    exact ⟨rfl, rfl, dataKept_trans hdata hparkData, regsKept_trans hregs (regsKept_of_regs hparkRegs _)⟩
  case stopped =>
    rw [pwrFailFall_fails fate hlong, drainOrPark_stopped fate (by rwa [hpow])]
    exact ⟨hpow, hdata, hregs⟩

/-! ### FWU_FUSE (R449) -/

theorem exec_programOwner {s : State} (area : Bytes) (htakes : s.dev.takes 21 = true) :
    exec (.programOwner area) s = s.endsF (burn s.fuses s.dev false area) (s.dev.burned s.fuses false) := by
  show s.endsF (if s.dev.takes 21 then _ else _) (if s.dev.takes 21 then _ else _) = _
  rw [if_pos htakes, if_pos htakes]
  rfl

theorem exec_programKfuse {s : State} (area : Bytes) (htakes : s.dev.takes 21 = true) :
    exec (.programKfuse area) s = s.endsF (burn s.fuses s.dev true area) (s.dev.burned s.fuses true) := by
  show s.endsF (if s.dev.takes 21 then _ else _) (if s.dev.takes 21 then _ else _) = _
  rw [if_pos htakes, if_pos htakes]
  rfl

section
variable {fu : Fuses} {d : Dev}

theorem burn_outside (k : Bool) (area : Bytes) (h : d.pow.run ≠ .rom) : burn fu d k area = fu ∧ d.burned fu k = d := by
  simp [burn, Dev.burned, h]

section
variable (hrom : d.pow.run = .rom)
include hrom

theorem burn_owner_blank (area : Bytes) (hblank : fu.ownerHash = none) :
    burn fu d false area = { fu with ownerHash := some (d.fuseSource area 48) } := by
  simp [burn, hrom, hblank]

theorem burn_kFuse_blank (area : Bytes) (hblank : fu.kFuse = none) :
    burn fu d true area = { fu with kFuse := some (d.fuseSource area 32) } := by
  simp [burn, hrom, hblank]

/-- The source octets are zeroed only in the management buffer. -/
theorem burned_blank {k : Bool} (hblank : (if k then fu.kFuse else fu.ownerHash) = none) (harea : d.on F.FWU_SRC_source = false) :
    d.burned fu k = d := by
  simp [Dev.burned, hrom, hblank, harea]

/-- A field that is not blank refuses. -/
theorem burn_again {k : Bool} (area : Bytes) (hburned : (if k then fu.kFuse else fu.ownerHash) ≠ none) :
    burn fu d k area = fu ∧ d.burned fu k = d.set F.FWU_STAT_result 0x0C := by
  have hsome : (if k then fu.kFuse else fu.ownerHash).isSome = true := Option.isSome_iff_ne_none.2 hburned
  cases k with
  | false =>
    have howner : fu.ownerHash.isSome = true := hsome
    simp [burn, Dev.burned, hrom, howner]
  | true =>
    have hkfuse : fu.kFuse.isSome = true := hsome
    simp [burn, Dev.burned, hrom, hkfuse]

end
end

/-- Settles O49: by the run state and by whether the field is blank. -/
theorem fuseBurnedOnce : Obligations.FuseBurnedOnce := by
  unfold Obligations.FuseBurnedOnce
  intro s area htakes harea
  have hsource (n : Nat) : s.dev.fuseSource area n = sliceZ area 0 n := by rw [Dev.fuseSource, harea]; rfl
  rw [exec_programOwner area htakes, exec_programKfuse area htakes]
  refine ⟨fun hrom hblank => ?_, fun hrom hblank => ?_, fun hrom hburned => ?_, fun hrom hburned => ?_, fun hother => ?_⟩
  · rw [burn_owner_blank hrom area hblank, burned_blank (k := false) hrom hblank harea, hsource]
  · rw [burn_kFuse_blank hrom area hblank, burned_blank (k := true) hrom hblank harea, hsource]
  · obtain ⟨hfuses, hdev⟩ := burn_again (k := false) hrom area hburned
    rw [hfuses, hdev]
  · obtain ⟨hfuses, hdev⟩ := burn_again (k := true) hrom area hburned
    rw [hfuses, hdev]
  · obtain ⟨howner, hownerDev⟩ := burn_outside false area hother
    obtain ⟨hkfuse, hkfuseDev⟩ := burn_outside true area hother
    rw [howner, hownerDev, hkfuse, hkfuseDev]
    exact ⟨rfl, rfl⟩

/-! ### Network serdes of a sub-port (R462) -/

theorem mem_subPortSerdes_iff (port split m x : Nat) : x ∈ subPortSerdes port split m ↔
    8 * port + m * 2 ^ (3 - split) ≤ x ∧ x < 8 * port + (m + 1) * 2 ^ (3 - split) := by
  rw [subPortSerdes]
  generalize 2 ^ (3 - split) = width
  rw [List.mem_map, Nat.add_one_mul m width]
  constructor
  · rintro ⟨i, hi, rfl⟩
    rw [List.mem_range] at hi
    omega
  · rintro ⟨hlow, hhigh⟩
    exact ⟨x - (8 * port + m * width), List.mem_range.2 (by omega), by omega⟩

/-- The 2^s sub-ports of a port share its eight serdes out, 2^(3−s) each. -/
theorem mem_subPort_iff {split : Nat} (port x : Nat) (hsplit : split ≤ 3) :
    (∃ m, m < 2 ^ split ∧ x ∈ subPortSerdes port split m) ↔ 8 * port ≤ x ∧ x ≤ 8 * port + 7 := by
  simp only [mem_subPortSerdes_iff]
  have hshare : 2 ^ split * 2 ^ (3 - split) = 8 := by rw [← Nat.pow_add, Nat.add_sub_cancel' hsplit]
  have hpos : 0 < 2 ^ (3 - split) := Nat.two_pow_pos _
  generalize 2 ^ (3 - split) = width at hshare hpos ⊢
  generalize 2 ^ split = count at hshare ⊢
  constructor
  · rintro ⟨m, hm, hlow, hhigh⟩
    have hlast : (m + 1) * width ≤ count * width := Nat.mul_le_mul_right _ hm
    omega
  · rintro ⟨hlow, hhigh⟩
    have hm : (x - 8 * port) / width < count := (Nat.div_lt_iff_lt_mul hpos).2 (by omega)
    have hbelow : (x - 8 * port) / width * width ≤ x - 8 * port := Nat.div_mul_le_self _ _
    have habove : x - 8 * port < ((x - 8 * port) / width + 1) * width := Nat.lt_mul_of_div_lt (Nat.lt_succ_self _) hpos
    exact ⟨_, hm, by omega, by omega⟩

/-- Settles O51: the serdes of one sub-port, those of all sub-ports of a port, and the example of a 400GbE sub-port. -/
theorem subPortSerdes : Obligations.SubPortSerdes := by
  unfold Obligations.SubPortSerdes
  refine ⟨fun port split m x _ => ?_, fun port split x => mem_subPort_iff port x, rfl⟩
  have hpos : 0 < 2 ^ (3 - split) := Nat.two_pow_pos _
  rw [mem_subPortSerdes_iff]
  generalize 2 ^ (3 - split) = width at hpos ⊢
  rw [Nat.add_one_mul m width]
  omega

/-! ### The end of a firmware trial (R442, R445) -/

theorem slot_setSlot_same {d : Dev} {i j : Nat} (c : FwSlot) (h : i = 0 ↔ j = 0) : (d.setSlot i c).boot.slot j = c := by
  by_cases hi : i = 0
  · simp [Dev.setSlot, BootFlash.slot, hi, h.1 hi]
  · simp [Dev.setSlot, BootFlash.slot, hi, mt h.2 hi]

theorem slot_setSlot_other {d : Dev} {i j : Nat} (c : FwSlot) (h : ¬ (i = 0 ↔ j = 0)) : (d.setSlot i c).boot.slot j = d.boot.slot j := by
  by_cases hi : i = 0
  · have hj : j ≠ 0 := fun hj => h ⟨fun _ => hj, fun _ => hi⟩
    simp [Dev.setSlot, BootFlash.slot, hi, hj]
  · have hj : j = 0 := by omega
    simp [Dev.setSlot, BootFlash.slot, hi, hj]

/-- Of boot flash an event reaches the event area alone. -/
theorem flushEvents_slot (d : Dev) (i : Nat) : d.flushEvents.boot.slot i = d.boot.slot i := by
  unfold Dev.flushEvents
  split <;> rfl

theorem event_slot (d : Dev) (b : Nat) (k : EvKind) (l : List Nat) (i : Nat) : (d.event b k l).boot.slot i = d.boot.slot i := by
  simp only [Dev.event]
  split <;> split <;> split <;> simp [flushEvents_slot] <;> rfl

/-- The update state goes to the peer as a packet without data of a host. -/
theorem peerSend_fwu_frame (d : Dev) (f : FwuPeer) : (d.peerSend (.fwu f)).boot = d.boot ∧ d.dataKept (d.peerSend (.fwu f)) ∧
    d.regsKept (d.peerSend (.fwu f)) [F.HHL_tx_packets] := by
  unfold Dev.peerSend
  split
  · exact ⟨rfl, ⟨rfl, rfl, rfl⟩, regsKept_of_regs rfl _⟩
  · exact ⟨rfl, ⟨rfl, rfl, rfl⟩, regsKept_trans (bump_regsKept (regsKept_of_regs rfl _) _ 1 List.mem_cons_self)
      (regsKept_of_regs (emit_frame _ _).1 _)⟩

/-- Whether or not the peer is told, FWU_STAT.state is written and nothing of boot flash or data moves. -/
theorem fwuState_frame (d : Dev) (st : Nat) : (d.fwuState st).boot = d.boot ∧ d.dataKept (d.fwuState st) ∧
    d.regsKept (d.fwuState st) [F.FWU_STAT_state, F.HHL_tx_packets] := by
  unfold Dev.fwuState
  split
  · exact ⟨rfl, ⟨rfl, rfl, rfl⟩, regsKept_of_regs rfl _⟩
  have hset : d.regsKept (d.set F.FWU_STAT_state st) [F.FWU_STAT_state, F.HHL_tx_packets] :=
    set_regsKept (regsKept_of_regs rfl _) _ st List.mem_cons_self
  dsimp only
  split
  · obtain ⟨hboot, hdata, hregs⟩ := peerSend_fwu_frame (d.set F.FWU_STAT_state st) (d.set F.FWU_STAT_state st).fwuPeer
    exact ⟨hboot, hdata, regsKept_trans hset (regsKept_mono hregs (List.subset_cons_self _ _))⟩
  · exact ⟨rfl, ⟨rfl, rfl, rfl⟩, hset⟩

theorem get_fwuState (d : Dev) {st : Nat} (hst : st < 8) : (d.fwuState st).get F.FWU_STAT_state = st := by
  have hset : (d.set F.FWU_STAT_state st).get F.FWU_STAT_state = st := (get_set_self _ _ _).trans (Nat.mod_eq_of_lt hst)
  unfold Dev.fwuState
  split
  · assumption
  dsimp only
  split
  · exact ((peerSend_fwu_frame _ _).2.2 _ (by decide)).trans hset
  · exact hset

/-- The running slot active, the other one valid. -/
def slotsSettled (d : Dev) : Dev :=
  (d.setSlot d.runSlot { d.boot.slot d.runSlot with state := .active }).setSlot (1 - d.runSlot)
    { d.boot.slot (1 - d.runSlot) with state := .valid }

theorem slotsSettled_slots (d : Dev) : ((slotsSettled d).boot.slot d.runSlot).state = .active ∧
    ((slotsSettled d).boot.slot (1 - d.runSlot)).state = .valid := by
  constructor
  · rw [slotsSettled, slot_setSlot_other _ (by omega), slot_setSlot_same _ Iff.rfl]
  · rw [slotsSettled, slot_setSlot_same _ Iff.rfl]

/-- A trial's end before FWU_STAT.state is written: the slots, the result and the event. -/
def trialRecorded (d : Dev) : Dev := ((slotsSettled d).set F.FWU_STAT_result 0x11).event 21 .trialPassed [d.runSlot]

theorem trialPassed_trial {d : Dev} (h : d.get F.FWU_STAT_state = 6) : d.trialPassed = (trialRecorded d).fwuState 0 :=
  if_neg (not_not.2 h)

theorem trialRecorded_regsKept (d : Dev) : d.regsKept (trialRecorded d) (F.FWU_STAT_result :: eventRegs) := by
  have hslots : (slotsSettled d).regs = d.regs := by simp [slotsSettled]
  have hresult := set_regsKept (regsKept_of_regs hslots (F.FWU_STAT_result :: eventRegs)) F.FWU_STAT_result 0x11 List.mem_cons_self
  unfold trialRecorded
  exact event_regsKept hresult 21 .trialPassed [d.runSlot] (fun _ h => List.mem_cons_of_mem _ h)

theorem trialRecorded_dataKept (d : Dev) : d.dataKept (trialRecorded d) := by
  have hslots : d.dataKept ((slotsSettled d).set F.FWU_STAT_result 0x11) := by simp [Dev.dataKept, slotsSettled]
  unfold trialRecorded
  exact dataKept_trans hslots (event_dataKept _ _ _ _)

theorem get_trialRecorded_result (d : Dev) : (trialRecorded d).get F.FWU_STAT_result = 0x11 := by
  rw [trialRecorded, get_event_ne _ _ _ _ (by decide), get_set_self]
  rfl

theorem trialRecorded_slot (d : Dev) (i : Nat) : (trialRecorded d).boot.slot i = (slotsSettled d).boot.slot i := event_slot _ _ _ _ _

/-- Settles O50: by whether a trial is under way; its end is told to the peer after all else. -/
theorem trialRaisesMinimum : Obligations.TrialRaisesMinimum := by
  unfold Obligations.TrialRaisesMinimum
  intro s
  have hexec : exec .trialPassed s = s.endsF (trialFuses s.fuses s.dev) s.dev.trialPassed := rfl
  rw [hexec, trialFuses]
  refine ⟨fun htrial => ⟨_, by rw [if_neg (not_not.2 htrial)], ?_⟩,
    fun hnone => by rw [if_pos hnone, Dev.trialPassed, if_pos hnone]⟩
  obtain ⟨hboot, hdata, hregs⟩ := fwuState_frame (trialRecorded s.dev) 0
  obtain ⟨hrun, hold⟩ := slotsSettled_slots s.dev
  rw [trialPassed_trial htrial, hboot, trialRecorded_slot, trialRecorded_slot]
  refine ⟨(hregs _ (by decide)).trans (get_trialRecorded_result _), get_fwuState _ (by decide), hrun, hold,
    dataKept_trans (trialRecorded_dataKept _) hdata, ?_⟩
  exact regsKept_trans (regsKept_mono (trialRecorded_regsKept _) (by simp +contextual)) (regsKept_mono hregs (by simp))

/-! ### Two heads with one number (R466) -/

/-- The registers of the link with no lane up. -/
def linkShownDown (d : Dev) : Dev := (d.onHead (fun h => { h with lanes := [] })).showLink

theorem linkShownDown_down (d : Dev) : (linkShownDown d).get F.HHL_STAT_link_up = 0 ∧ (linkShownDown d).get F.HHL_STAT_lanes_up = 0 := by
  constructor
  · rw [linkShownDown, Dev.showLink, get_setB_self]
    rfl
  · simp (disch := decide) only [linkShownDown, Dev.showLink, get_setB_ne, get_set_ne, get_set_self]
    rfl

theorem linkShownDown_frame (d : Dev) : (linkShownDown d).head.lanes = [] ∧ d.dataKept (linkShownDown d) := ⟨rfl, rfl, rfl, rfl⟩

/-- With no lanes the link is down, whatever the image asks for, so it does not begin. -/
theorem setLinkLanes_nil (d : Dev) : d.setLinkLanes [] = linkShownDown d := by
  have hdown : (linkShownDown d).on F.HHL_STAT_link_up = false := congrArg (· == 1) (linkShownDown_down d).1
  have hstays : ¬ (!d.on F.HHL_STAT_link_up && (linkShownDown d).on F.HHL_STAT_link_up) = true := by simp [hdown]
  exact if_neg hstays

theorem linkLaneRetrain_sameHead (d : Dev) (lane : Nat) :
    d.linkLaneRetrain lane true true = (linkShownDown d).event 12 .headNumberClash := by
  rw [← setLinkLanes_nil]
  rfl

/-- Settles O46: the link loses all its lanes, and the event that follows shows nothing else in its registers. -/
theorem sameHeadNumber : Obligations.SameHeadNumber := by
  unfold Obligations.SameHeadNumber
  intro s lane hup
  have hexec : exec (.pengenkoLaneRetrain lane true true) s = s.ends ((linkShownDown s.dev).event 12 .headNumberClash) := by
    rw [← linkLaneRetrain_sameHead s.dev lane.val]
    exact run_up (fun d => d.linkLaneRetrain lane.val true true) hup
  obtain ⟨hup0, hlanes0⟩ := linkShownDown_down s.dev
  obtain ⟨hlanes, hdata⟩ := linkShownDown_frame s.dev
  exact ⟨_, hexec, hlanes, (get_event_ne _ _ _ _ (by decide)).trans hup0, (get_event_ne _ _ _ _ (by decide)).trans hlanes0, hdata⟩

end Sys2Proof.Proofs
end
